-- ==== Sys2Proof/Word.lean ====
section
/-! DEFINITION. The byte and word types of the umbilical frames and the sensor loop (R187). -/

namespace Sys2Proof

/-- One byte on a serial pair. -/
abbrev Byte := BitVec 8

/-- A two-byte field, such as the tag or a CRC (R166, R188). -/
abbrev Word := BitVec 16

end Sys2Proof
end

