-- ==== Sys2Proof/Config.lean ====
section
/-! DEFINITION. The free values: what the spec leaves open. Each is opaque, so nothing can be proved of its value. -/

namespace Sys2Proof.Config

/-- Which of several events that fall together the part takes first (R19, R86, R163; log 3). -/
opaque freePick : Nat → Nat

/-- Whether the guard unit takes a reading before the lanes do (R91; log 4). -/
opaque freeGuardFirst : Nat → Bool

/-- Whether a raw signal exactly halfway between two units is rounded up (R92 states no rounding of it; log 9):
a function of the input's number and of the raw quantity, in µA or in thousandths of the unit. -/
opaque freeRoundUp : Nat → Int → Bool

end Sys2Proof.Config
end

