-- ==== Sys2Proof/Syntax.lean ====
section
/-! DEFINITION. The names of the part (origins, classes, points, channels, handles), the fields of guards, and the commands: one constructor of `Instr` per row of spec/opcode_table.json. -/

namespace Sys2Proof

/-- The three surface requesters (R166). -/
inductive Origin where
  | operator | verticality | plant
  deriving DecidableEq, Repr

/-- The classes of orders (R2). -/
inductive Cls where
  | guard | operator | verticality | plan | plant
  deriving DecidableEq, Repr

/-- An actuator by its index 0..11 (R29): WHL-A 0, WHL-B 1, PLT-1..PLT-8 2..9, PMP 10, GATE 11. -/
abbrev Actuator := Fin 12

/-- A measurement point by its identifier 0..18 (R89). -/
abbrev Point := Fin 19

/-- A direct input, the points 0..10 (R89): WSA, WSB, PS1..PS8, PMS. -/
abbrev DirectPoint := Fin 11

/-- A channel by its code (R187): P0..P13 as 0..13, D0..D3 as 14..17. -/
abbrev Chan := Fin 18

/-- A slot of the order table (R3). -/
abbrev Slot := Fin 40

/-- A template index (R153). -/
abbrev TemplateIx := Fin 32

/-- A plan bank and an entry slot in it (R111). -/
abbrev BankIx := Fin 2
abbrev EntryIx := Fin 24

/-- The name of an order: its slot and the generation it was created under (R3). -/
structure Handle where
  slot : Slot
  gen : BitVec 8
  deriving DecidableEq, Repr

/-- The four smart sensor modules (R95). -/
inductive Module where
  | tilt | flow | dens | pres
  deriving DecidableEq, Repr

/-- What an output stage reports (R132, R137). -/
inductive FaultKind where
  | openLoad | overCurrent
  deriving DecidableEq, Repr

/-- Whether an order stays in force after it settles (R1). -/
inductive Completion where
  | standing | settle
  deriving DecidableEq, Repr

/-- A guard's relation (R73). -/
inductive Relation where
  | requireAbove | requireBelow
  deriving DecidableEq, Repr

/-- A guard's action (R73). -/
inductive GuardAction where
  | retire | freeze
  deriving DecidableEq, Repr

/-- The five fields of a guard (R73); the dwell is in ms. -/
structure Guard where
  point : Point
  relation : Relation
  threshold : Int
  action : GuardAction
  dwell : Nat
  deriving DecidableEq, Repr

/-- What every valid request frame carries beside its kind (R166): the sender, the tag, and the body as
received, so that the form check of R187 is part of the model. -/
structure Req where
  origin : Origin
  tag : Word
  body : List Byte
  deriving DecidableEq, Repr

/-- The commands: the steps of spec/opcode_table.json, in its order. -/
inductive Instr where
  | powerOn
  | place (r : Req)
  | issue (r : Req)
  | amend (r : Req)
  | renew (r : Req)
  | withdraw (r : Req)
  | query (r : Req)
  | list (r : Req)
  | lowest (r : Req)
  | mask (r : Req)
  | unmask (r : Req)
  | yield (r : Req)
  | view (r : Req)
  | setLimits (r : Req)
  | setSettle (r : Req)
  | setInterlock (r : Req)
  | depth (r : Req)
  | setDrift (r : Req)
  | readPoints (r : Req)
  | setModule (r : Req)
  | setDepthStale (r : Req)
  | putEntry (r : Req)
  | dropEntry (r : Req)
  | clearShadow (r : Req)
  | readEntry (r : Req)
  | swap (r : Req)
  | mapActuator (r : Req)
  | spare (r : Req)
  | freezeMap (r : Req)
  | thaw (r : Req)
  | clearFault (r : Req)
  | setLocal (r : Req)
  | forceLocal (r : Req)
  | restore (r : Req)
  | readChannel (r : Req)
  | setCalibration (r : Req)
  | putTemplate (r : Req)
  | readTemplate (r : Req)
  | setFallback (r : Req)
  | setHalt (r : Req)
  | halt (r : Req)
  | setLink (r : Req)
  | start (r : Req)
  | restart (r : Req)
  | status (r : Req)
  /-- a valid frame of the kind given, which names no request (R168) -/
  | unknownRequest (r : Req) (kind : Byte)
  /-- the bytes on the pair, sync byte first, that make a bad frame (R167) -/
  | badFrame (bytes : List Byte)
  /-- the bytes on the pair before the 2 ms gap (R167) -/
  | interByteTimeout (bytes : List Byte)
  | silenceExpiry
  | frameSent
  | leaseExpiry (h : Handle)
  | controlInterval (a : Actuator)
  | settleDwellExpiry (a : Actuator)
  | gateTravelComplete
  /-- guard 1 of the order is `0`, guard 2 is `1` (R73) -/
  | guardDwellExpiry (h : Handle) (g : Fin 2)
  | moduleStaleExpiry (m : Module)
  | depthStaleExpiry
  /-- one sample (R92): the loop or transducer current in µA and, on a pickup, the measured speed in
  thousandths of the point's unit (PRESUMED resolutions, log 9) -/
  | directSample (p : DirectPoint) (currentUA : Nat) (speedMilli : Int)
  /-- one frame of the sensor loop as the gaps delimit it (R192) -/
  | moduleReadingFrame (bytes : List Byte)
  | channelFaultReport (c : Chan) (k : FaultKind)
  deriving DecidableEq, Repr

end Sys2Proof
end

