-- ==== Sys2Proof/Decode.lean ====
section
/-! DEFINITION. Bytes and what they spell: fields, codes, the CRC, the receiver of the umbilical, the forms of the
request bodies (R166, R167, R187 to R192), and `decodeTableWord` (the table gives no row any bits). -/

namespace Sys2Proof

/-! ### Fields (R187: high byte first, signed values in two's complement) -/

def u16 (hi lo : Byte) : Nat := hi.toNat * 256 + lo.toNat

def s16 (hi lo : Byte) : Int :=
  if u16 hi lo < 32768 then (u16 hi lo : Int) else (u16 hi lo : Int) - 65536

def putByte (n : Nat) : List Byte := [BitVec.ofNat 8 n]

def putU16 (n : Nat) : List Byte := [BitVec.ofNat 8 (n / 256), BitVec.ofNat 8 n]

def putS16 (i : Int) : List Byte := putU16 (i % 65536).toNat

def putFlag (b : Bool) : List Byte := if b then [1] else [0]

/-- An optional item without a sentinel: a presence byte, then the item or zeros of its width (R187). -/
def putOptU8 : Option Nat → List Byte
  | some n => 1 :: putByte n
  | none => [0, 0]

def putOptS16 : Option Int → List Byte
  | some i => 1 :: putS16 i
  | none => [0, 0, 0]

/-- An item whose absence is the sentinel 0xFF (R187). -/
def putOrFF : Option Nat → List Byte
  | some n => putByte n
  | none => [0xFF]

/-- A handle, or 0xFF 0xFF for none (R189). -/
def putHandle : Option Handle → List Byte
  | some h => [BitVec.ofNat 8 h.slot.val, h.gen]
  | none => [0xFF, 0xFF]

def flag? (b : Byte) : Option Bool :=
  if b = 0 then some false else if b = 1 then some true else none

/-! ### Codes (R187) -/

def Origin.code : Origin → Nat
  | .operator => 1 | .verticality => 2 | .plant => 3

def origin? (b : Byte) : Option Origin :=
  if b = 1 then some .operator else if b = 2 then some .verticality
  else if b = 3 then some .plant else none

def Cls.code : Cls → Nat
  | .operator => 1 | .verticality => 2 | .plant => 3 | .guard => 4 | .plan => 5

def cls? (b : Byte) : Option Cls :=
  if b = 1 then some .operator else if b = 2 then some .verticality
  else if b = 3 then some .plant else if b = 4 then some .guard
  else if b = 5 then some .plan else none

def Completion.code : Completion → Nat
  | .standing => 1 | .settle => 2

def completion? (b : Byte) : Option Completion :=
  if b = 1 then some .standing else if b = 2 then some .settle else none

def Relation.code : Relation → Nat
  | .requireAbove => 1 | .requireBelow => 2

def relation? (b : Byte) : Option Relation :=
  if b = 1 then some .requireAbove else if b = 2 then some .requireBelow else none

def GuardAction.code : GuardAction → Nat
  | .retire => 1 | .freeze => 2

def guardAction? (b : Byte) : Option GuardAction :=
  if b = 1 then some .retire else if b = 2 then some .freeze else none

def Module.code : Module → Nat
  | .tilt => 0 | .flow => 1 | .dens => 2 | .pres => 3

def module? (b : Byte) : Option Module :=
  if b = 0 then some .tilt else if b = 1 then some .flow
  else if b = 2 then some .dens else if b = 3 then some .pres else none

def FaultKind.code : FaultKind → Nat
  | .openLoad => 1 | .overCurrent => 2

/-- The kinds that name a request (R187): consecutive values from the first of each owning block. -/
def requestKinds : List (Nat × Nat) :=
  [(0x10, 7), (0x20, 8), (0x30, 5), (0x40, 5), (0x50, 10), (0x60, 5), (0x70, 4)]

def namesRequest (k : Byte) : Bool :=
  requestKinds.any fun g => g.1 ≤ k.toNat && k.toNat < g.1 + g.2

/-! ### The CRC of R188, which is also the integrity code of R95 -/

def crcShift (c : Word) : Word := if c.msb then (c <<< 1) ^^^ 0x1021 else c <<< 1

def crcByte (c : Word) (b : Byte) : Word :=
  crcShift (crcShift (crcShift (crcShift (crcShift (crcShift (crcShift (crcShift
    (c ^^^ (b.setWidth 16 <<< 8)))))))))

def crc16 (bytes : List Byte) : Word := bytes.foldl crcByte 0xFFFF

def putCrc (bytes : List Byte) : List Byte := putU16 (crc16 bytes).toNat

/-! ### The receiver (R166, R167) -/

/-- Hunting, or collecting with the bytes after the sync byte so far (the length first) and the ms since the last. -/
inductive Receiver where
  | hunting
  | collecting (got : List Byte) (gap : Nat)
  deriving DecidableEq, Repr

/-- What the receiver has after some bytes: still at it, a bad frame, or a valid frame. -/
inductive Received where
  | more (r : Receiver)
  | bad
  | valid (r : Req) (kind : Byte)
  deriving DecidableEq, Repr

/-- The shortest and longest length of R166 and R188: origin, tag and kind, and a body of 0..120 bytes. -/
def minLength : Nat := 4
def maxLength : Nat := 124

/-- A complete frame, from the length to the second CRC byte, is checked for its origin and its CRC (R167). -/
def checkFrame (got : List Byte) : Received :=
  match got with
  | len :: org :: t1 :: t0 :: kind :: rest =>
    let n := len.toNat - minLength
    match origin? org with
    | some o =>
      if rest.drop n = putCrc (got.take (len.toNat + 1)) then
        .valid ⟨o, t1 ++ t0, rest.take n⟩ kind
      else .bad
    | none => .bad
  | _ => .bad

/-- One byte at the receiver (R167). -/
def rxByte (r : Receiver) (b : Byte) : Received :=
  match r with
  | .hunting => if b = 0x7E then .more (.collecting [] 0) else .more .hunting
  | .collecting [] _ =>
    if minLength ≤ b.toNat ∧ b.toNat ≤ maxLength then .more (.collecting [b] 0) else .bad
  | .collecting (len :: got) _ =>
    if got.length + 1 < len.toNat + 2 then .more (.collecting (len :: got ++ [b]) 0)
    else checkFrame (len :: got ++ [b])

/-- The bytes of one frame at the receiver, up to the byte that completes it. -/
def receive : Receiver → List Byte → Received
  | r, [] => .more r
  | r, b :: bs =>
    match rxByte r b with
    | .more r' => receive r' bs
    | .bad => .bad
    | .valid q k => .valid q k

/-- The bytes of a frame with the header given, from the sync byte to the CRC (R188). -/
def frameBytes (origin : Nat) (tag : Word) (kind : Byte) (rest : List Byte) : List Byte :=
  let covered := putByte (4 + rest.length) ++ putByte origin ++ putU16 tag.toNat ++ [kind] ++ rest
  0x7E :: covered ++ putCrc covered

/-- The frame a requester sends. -/
def requestFrame (r : Req) (kind : Byte) : List Byte :=
  frameBytes r.origin.code r.tag kind r.body

/-! ### The forms of the request bodies (R187: malformed is `none`)

A form holds the fields as numbers; codes and flags are already names, since an unknown one is malformed.
Bodies that chapter 11 does not lay out follow the order of their own rule (R187; log 13). -/

/-- A handle field as received. -/
structure HandleForm where
  slot : Nat
  gen : Byte
  deriving DecidableEq, Repr

def HandleForm.isNone (h : HandleForm) : Bool := h.slot = 255 && h.gen = 0xFF

/-- A guard record (R189). -/
structure GuardForm where
  point : Nat
  relation : Relation
  threshold : Int
  action : GuardAction
  dwell : Nat
  deriving DecidableEq, Repr

/-- The guard records that end a body: exactly `n` of them (R189). -/
def formGuards : Nat → List Byte → Option (List GuardForm)
  | 0, [] => some []
  | n + 1, p :: rel :: t1 :: t0 :: act :: d1 :: d0 :: rest => do
    let relation ← relation? rel
    let action ← guardAction? act
    let gs ← formGuards n rest
    some (⟨p.toNat, relation, s16 t1 t0, action, u16 d1 d0⟩ :: gs)
  | _, _ => none

/-- PLACE (R189). -/
structure PlaceForm where
  actuator : Nat
  target : Int
  ramp : Nat
  completion : Completion
  prereq : HandleForm
  lease : Nat
  tethered : Bool
  guards : List GuardForm
  deriving DecidableEq, Repr

def formPlace : List Byte → Option PlaceForm
  | a :: t1 :: t0 :: r1 :: r0 :: c :: ps :: pg :: l1 :: l0 :: te :: n :: rest => do
    let completion ← completion? c
    let tethered ← flag? te
    if n.toNat ≤ 2 then
      let gs ← formGuards n.toNat rest
      some ⟨a.toNat, s16 t1 t0, u16 r1 r0, completion, ⟨ps.toNat, pg⟩, u16 l1 l0, tethered, gs⟩
    else none
  | _ => none

/-- ISSUE (R189). -/
structure IssueForm where
  index : Nat
  target : Option Int
  prereq : HandleForm
  deriving DecidableEq, Repr

/-- DESIGN CHOICE (log 28): the target bytes are not examined where the flag says that no target is given. -/
def formIssue : List Byte → Option IssueForm
  | [i, f, t1, t0, ps, pg] => do
    let given ← flag? f
    some ⟨i.toNat, if given then some (s16 t1 t0) else none, ⟨ps.toNat, pg⟩⟩
  | _ => none

/-- AMEND (R189): a field is present where its bit of the change byte is set; a change byte of 0 or with a
reserved bit is refused BAD_FIELD. -/
structure AmendForm where
  handle : HandleForm
  target : Option Int
  ramp : Option Nat
  lease : Option Nat
  deriving DecidableEq, Repr

def formAmend : List Byte → Option AmendForm
  | [hs, hg, ch, t1, t0, r1, r0, l1, l0] =>
    if ch ≠ 0 ∧ ch.toNat < 8 then
      some ⟨⟨hs.toNat, hg⟩, if ch.getLsbD 0 then some (s16 t1 t0) else none,
        if ch.getLsbD 1 then some (u16 r1 r0) else none,
        if ch.getLsbD 2 then some (u16 l1 l0) else none⟩
    else none
  | _ => none

/-- RENEW: the handle and the new reload value, 0 for none (R24, R187). -/
def formRenew : List Byte → Option (HandleForm × Nat)
  | [hs, hg, l1, l0] => some (⟨hs.toNat, hg⟩, u16 l1 l0)
  | _ => none

/-- WITHDRAW and QUERY: the handle. -/
def formHandle : List Byte → Option HandleForm
  | [hs, hg] => some ⟨hs.toNat, hg⟩
  | _ => none

/-- An optional one-byte item behind its presence byte (R187). DESIGN CHOICE (log 28): the bytes of an absent item are
not examined. -/
def formOptU8 (p v : Byte) : Option (Option Nat) := do
  let present ← flag? p
  some (if present then some v.toNat else none)

/-- An optional unsigned two-byte item, its bytes not examined where it is absent (log 28). -/
def formOptU16 (p v1 v0 : Byte) : Option (Option Nat) := do
  let present ← flag? p
  some (if present then some (u16 v1 v0) else none)

/-- An optional signed two-byte item, its bytes not examined where it is absent (log 28). -/
def formOptS16 (p v1 v0 : Byte) : Option (Option Int) := do
  let present ← flag? p
  some (if present then some (s16 v1 v0) else none)

/-- LIST: the starting slot, the actuator filter and the class filter (R27). -/
structure ListForm where
  start : Nat
  actuator : Option Nat
  cls : Option Cls
  deriving DecidableEq, Repr

/-- A present class filter that names no class is malformed (R27, R187). DESIGN CHOICE (log 28): the class byte of an
absent filter is not examined, so one that is neither 0 nor a class is not malformed. -/
def formList : List Byte → Option ListForm
  | [st, pa, a, pc, c] => do
    let actuator ← formOptU8 pa a
    let byClass ← flag? pc
    if byClass then
      let k ← cls? c
      some ⟨st.toNat, actuator, some k⟩
    else some ⟨st.toNat, actuator, none⟩
  | _ => none

/-- LOWEST, MASK and UNMASK: an actuator and a class. -/
def formActuatorClass : List Byte → Option (Nat × Cls)
  | [a, c] => do
    let k ← cls? c
    some (a.toNat, k)
  | _ => none

/-- YIELD: an actuator and the setting. -/
def formYield : List Byte → Option (Nat × Bool)
  | [a, f] => do
    let on ← flag? f
    some (a.toNat, on)
  | _ => none

/-- A body of one byte: an actuator, a channel code, a slot or an index. -/
def formByte : List Byte → Option Nat
  | [a] => some a.toNat
  | _ => none

/-- A body of two one-byte items: MAP, SPARE, SET FALLBACK, SET HALT. -/
def formTwoBytes : List Byte → Option (Nat × Nat)
  | [a, b] => some (a.toNat, b.toNat)
  | _ => none

/-- A body with no fields. -/
def formEmpty : List Byte → Option Unit
  | [] => some ()
  | _ => none

/-- SET LIMITS: the actuator and the two limits. -/
def formLimits : List Byte → Option (Nat × Int × Int)
  | [a, l1, l0, h1, h0] => some (a.toNat, s16 l1 l0, s16 h1 h0)
  | _ => none

/-- SET SETTLE: the actuator, the band, the dwell and the gate travel time, each optional (R70). -/
structure SettleForm where
  actuator : Nat
  band : Option Int
  dwell : Option Nat
  travel : Option Nat
  deriving DecidableEq, Repr

def formSettle : List Byte → Option SettleForm
  | [a, p, b1, b0, q, d1, d0, t, v1, v0] => do
    let band ← formOptS16 p b1 b0
    let dwell ← formOptU16 q d1 d0
    let travel ← formOptU16 t v1 v0
    if band.isSome || dwell.isSome || travel.isSome then some ⟨a.toNat, band, dwell, travel⟩ else none
  | _ => none

/-- SET INTERLOCK: the actuator, the pump minimum, the flow minimum and the creep limit, each optional (R71). -/
structure InterlockForm where
  actuator : Nat
  pumpMin : Option Int
  flowMin : Option Int
  creep : Option Int
  deriving DecidableEq, Repr

def formInterlock : List Byte → Option InterlockForm
  | [a, p, b1, b0, q, d1, d0, t, v1, v0] => do
    let pumpMin ← formOptS16 p b1 b0
    let flowMin ← formOptS16 q d1 d0
    let creep ← formOptS16 t v1 v0
    if pumpMin.isSome || flowMin.isSome || creep.isSome then some ⟨a.toNat, pumpMin, flowMin, creep⟩
    else none
  | _ => none

/-- DEPTH: the depth. -/
def formDepth : List Byte → Option Int
  | [d1, d0] => some (s16 d1 d0)
  | _ => none

/-- SET DRIFT: DRX and DRY. -/
def formDrift : List Byte → Option (Int × Int)
  | [x1, x0, y1, y0] => some (s16 x1 x0, s16 y1 y0)
  | _ => none

/-- READ POINTS: a count, 1..19, and that many identifiers (R109). -/
def formPoints : List Byte → Option (List Nat)
  | n :: ids =>
    if n.toNat = ids.length ∧ 1 ≤ ids.length ∧ ids.length ≤ 19 then some (ids.map (·.toNat)) else none
  | [] => none

/-- SET MODULE: the module, the bad-frame threshold and the stale limit, each setting optional (R100). -/
structure ModuleForm where
  module : Module
  threshold : Option Nat
  stale : Option Nat
  deriving DecidableEq, Repr

def formModule : List Byte → Option ModuleForm
  | [m, p, t, q, s1, s0] => do
    let module ← module? m
    let threshold ← formOptU8 p t
    let stale ← formOptU16 q s1 s0
    if threshold.isSome || stale.isSome then some ⟨module, threshold, stale⟩ else none
  | _ => none

/-- SET DEPTH STALE: the limit in s. -/
def formU16 : List Byte → Option Nat
  | [v1, v0] => some (u16 v1 v0)
  | _ => none

/-- PUT ENTRY (R190). -/
structure EntryForm where
  slot : Nat
  depthFrom : Int
  depthTo : Int
  actuator : Nat
  target : Int
  ramp : Nat
  deriving DecidableEq, Repr

def formEntry : List Byte → Option EntryForm
  | [sl, f1, f0, t1, t0, a, g1, g0, r1, r0] =>
    some ⟨sl.toNat, s16 f1 f0, s16 t1 t0, a.toNat, s16 g1 g0, u16 r1 r0⟩
  | _ => none

/-- READ ENTRY: the bank, 0 or 1, and the slot (R127). -/
def formReadEntry : List Byte → Option (Bool × Nat)
  | [b, sl] => do
    let bank ← flag? b
    some (bank, sl.toNat)
  | _ => none

/-- SET LOCAL: the channel and the duty. -/
def formByteU16 : List Byte → Option (Nat × Nat)
  | [c, d1, d0] => some (c.toNat, u16 d1 d0)
  | _ => none

/-- SET CALIBRATION: the actuator, the low duty and the high duty. -/
def formCalibration : List Byte → Option (Nat × Nat × Nat)
  | [a, l1, l0, h1, h0] => some (a.toNat, u16 l1 l0, u16 h1 h0)
  | _ => none

/-- A template in a body (R190). -/
structure TemplateForm where
  actuator : Nat
  target : Int
  ramp : Nat
  completion : Completion
  lease : Nat
  tethered : Bool
  guards : List GuardForm
  deriving DecidableEq, Repr

/-- PUT TEMPLATE (R190): the index and, unless the request empties the template, its fields. -/
def formTemplate : List Byte → Option (Nat × Option TemplateForm)
  | [i, f] => if f = 0 then some (i.toNat, none) else none
  | i :: f :: a :: t1 :: t0 :: r1 :: r0 :: c :: l1 :: l0 :: te :: n :: rest =>
    if f = 1 then do
      let completion ← completion? c
      let tethered ← flag? te
      if n.toNat ≤ 2 then
        let gs ← formGuards n.toNat rest
        some (i.toNat, some ⟨a.toNat, s16 t1 t0, u16 r1 r0, completion, u16 l1 l0, tethered, gs⟩)
      else none
    else none
  | _ => none

/-- SET LINK: the silence limit and the bad-frame threshold, each optional (R178). -/
def formLink : List Byte → Option (Option Nat × Option Nat)
  | [p, s1, s0, q, t] => do
    let silence ← formOptU16 p s1 s0
    let threshold ← formOptU8 q t
    if silence.isSome || threshold.isSome then some (silence, threshold) else none
  | _ => none

/-- No row of spec/opcode_table.json has bits, so no word spells a command. -/
def decodeTableWord (_nbits _w : Nat) : Option Instr := none

end Sys2Proof
end

