-- ==== Sys2Proof/Machine/State.lean ====
section
/-! DEFINITION. The state of the part as plain data (INVENTORY.md, heading State), its reset, and the reasons a step could stop. -/

namespace Sys2Proof.Machine

/-- Nothing in the spec stops the part, so there is no fault: nobody raises one, which is safe. -/
inductive Fault where
  deriving DecidableEq, Repr

/-- The reasons to give a command no meaning. -/
inductive Refusal where
  /-- Raised by an arm of `exec` whose row has no meaning yet; no arm of this model raises it. Safe. -/
  | notModelled (mnemonic : String)
  deriving DecidableEq, Repr

/-- R180. -/
inductive Mode where
  | setup | run
  deriving DecidableEq, Repr

/-- R5. -/
inductive OrderState where
  | waiting | pending | governing
  deriving DecidableEq, Repr

/-- Why an order retires (the table of section 1.4). -/
inductive Cause where
  | withdrawn | superseded | expired | completed | guardTrip | prereqLost | linkLost | driveLost
  | outOfBand | planSwap | restart
  deriving DecidableEq, Repr

/-- The condition state of a guard entry (R75), with the ms its dwell timer has run in TIMING. -/
inductive Cond where
  | inert | satisfied | timing (run : Nat) | active
  deriving DecidableEq, Repr

/-- A guard entry of the guard unit (R74). -/
structure GuardEntry where
  guard : Guard
  cond : Cond
  deriving DecidableEq, Repr

/-- A lease (R1, R18): the reload value in s and the time remaining in ms. -/
structure Lease where
  reload : Nat
  remaining : Nat
  deriving DecidableEq, Repr

/-- The order record (R1), without the handle, which its slot gives (R3). -/
structure Order where
  cls : Cls
  actuator : Actuator
  target : Int
  ramp : Option Nat
  completion : Completion
  prereq : Option Handle
  guards : List GuardEntry
  lease : Option Lease
  tethered : Bool
  state : OrderState
  settled : Bool
  planEntry : Option (BankIx × EntryIx)
  template : Option TemplateIx
  deriving DecidableEq, Repr

/-- A slot of the order table (R3): free when `order` is absent. -/
structure SlotState where
  gen : BitVec 8
  order : Option Order
  deriving DecidableEq, Repr

/-- One item for each class. -/
structure PerClass (α : Type) where
  guard : α
  operator : α
  verticality : α
  plan : α
  plant : α
  deriving DecidableEq, Repr

/-- R31; the reason of HELD is computed from the hold reasons (R50). -/
inductive LaneState where
  | off | rest | driven | held | down
  deriving DecidableEq, Repr

/-- The settle detector (R61), with the ms its dwell timer has run in TIMING. -/
inductive Detector where
  | idle | timing (run : Nat) | settled
  deriving DecidableEq, Repr

/-- The gate travel timer (R60), with the ms it has run. -/
inductive Travel where
  | cleared | running (run : Nat) | complete
  deriving DecidableEq, Repr

/-- A lane (R30, R55, R57, R61, R69, R70). Commands are in fiftieths of the unit, the GATE's in 0 or 1. -/
structure Lane where
  state : LaneState
  gov : Option Handle
  orderSet : PerClass (Option Handle)
  precedence : List Cls
  mask : PerClass Bool
  yield : Bool
  maskHold : Bool
  guardHold : Bool
  command : Option Int
  interval : Option Nat
  detector : Detector
  lo : Int
  hi : Int
  band : Int
  dwell : Nat
  deriving DecidableEq, Repr

/-- The return interlock of a wheel lane (R66). -/
structure Interlock where
  pumpMin : Int
  flowMin : Int
  creep : Int
  engaged : Bool
  deriving DecidableEq, Repr

/-- R90. -/
inductive PointStatus where
  | valid | stale | faulted
  deriving DecidableEq, Repr

/-- A direct point (R90, R94): the recovery timer is stopped or has run so many ms. -/
structure DirectState where
  status : PointStatus
  value : Option Int
  recovery : Option Nat
  deriving DecidableEq, Repr

/-- A sensor module (R96). -/
structure ModuleState where
  status : PointStatus
  badCount : Nat
  goodRun : Nat
  stale : Option Nat
  threshold : Nat
  staleLimit : Nat
  deriving DecidableEq, Repr

/-- DEP (R101); the limit is in s. -/
structure DepthState where
  value : Option Int
  status : PointStatus
  stale : Option Nat
  staleLimit : Nat
  deriving DecidableEq, Repr

/-- The drift estimate (R105). -/
structure DriftState where
  x : Int
  y : Int
  status : PointStatus
  remX : Int
  remY : Int
  deriving DecidableEq, Repr

/-- R114; a LIVE entry holds the handle of its PLAN order. -/
inductive EntryState where
  | dormant | ahead | passed | live (h : Handle) | cleared | skipped
  deriving DecidableEq, Repr

/-- A filled entry slot of a plan bank (R111). -/
structure PlanEntry where
  depthFrom : Int
  depthTo : Int
  actuator : Actuator
  target : Int
  ramp : Option Nat
  state : EntryState
  deriving DecidableEq, Repr

/-- An actuator's entry of the actuator map (R135). -/
structure MapEntry where
  assigned : Option Chan
  spare : Option Chan
  frozen : Bool
  deriving DecidableEq, Repr

/-- R132. -/
inductive ChanMode where
  | released | order | localDuty
  deriving DecidableEq, Repr

/-- A channel (R132): its health is OK exactly when it has no fault kind. -/
structure ChanState where
  fault : Option FaultKind
  mode : ChanMode
  localDuty : Nat
  output : Nat
  deriving DecidableEq, Repr

/-- An actuator's calibration (R134). -/
structure Calibration where
  low : Nat
  high : Nat
  deriving DecidableEq, Repr

/-- A filled template (R153). -/
structure Template where
  actuator : Actuator
  target : Int
  ramp : Option Nat
  completion : Completion
  guards : List Guard
  lease : Option Nat
  tethered : Bool
  deriving DecidableEq, Repr

/-- R171. -/
inductive LinkState where
  | await | up | lost
  deriving DecidableEq, Repr

/-- Link supervision (R171, R172, R178): the silence timer is stopped or has run so many ms. -/
structure LinkPort where
  state : LinkState
  silence : Option Nat
  badCount : Nat
  silenceLimit : Nat
  badThreshold : Nat
  deriving DecidableEq, Repr

/-- Whose turn the pair is (R176). -/
inductive Pair where
  | free | heldForAnswer | heldToEmpty
  deriving DecidableEq, Repr

/-- The outcome of a request (R187). -/
inductive Code where
  | done | notRunning | notSetup | notPermitted | unknownRequest | badField | badActuator | notApplicable
  | outOfRange | staleHandle | notOwner | tableFull | actuatorDown | badPrereq | badTemplate
  | templateInUse | overlap | badChannel | channelTaken
  deriving DecidableEq, Repr

/-- Why a spawn failed (R116). -/
inductive SpawnFailure where
  | down | limits | full
  deriving DecidableEq, Repr

/-- The notices (R177). -/
inductive Notice where
  | retired (h : Handle) (a : Actuator) (c : Cause)
  | remapped (a : Actuator) (faulted : Option Chan) (now : Chan)
  | down (a : Actuator) (faulted : Option Chan)
  | forcedLocal (a : Actuator) (forced : Option Chan)
  | pointFaulted (p : DirectPoint)
  | moduleFaulted (m : Module)
  | entrySkipped (b : BankIx) (e : EntryIx) (a : Actuator) (why : SpawnFailure)
  deriving DecidableEq, Repr

/-- A frame of the transmit queue (R175): an answer or a notice. -/
inductive TxFrame where
  | answer (dest : Origin) (tag : Word) (kind : Byte) (code : Code) (body : List Byte)
  | notice (dest : Origin) (n : Notice)
  deriving DecidableEq, Repr

/-- The whole part. `travel` and `travelLimit` (s) are the GATE lane's (R60); `interlocks` are WHL-A's and
WHL-B's; `line`, `draws` and `pending` are the model's own (INVENTORY.md). -/
structure State where
  mode : Mode
  slots : Vector SlotState 40
  lanes : Vector Lane 12
  travel : Travel
  travelLimit : Nat
  interlocks : Vector Interlock 2
  direct : Vector DirectState 11
  modules : Vector ModuleState 4
  modValues : Vector (Option Int) 5
  depth : DepthState
  drift : DriftState
  banks : Vector (Vector (Option PlanEntry) 24) 2
  active : BankIx
  map : Vector MapEntry 12
  chans : Vector ChanState 18
  cals : Vector Calibration 12
  templates : Vector (Option Template) 32
  fallback : Vector (Option TemplateIx) 12
  halt : Vector (Option TemplateIx) 12
  link : LinkPort
  txQueue : List TxFrame
  noticesLost : Bool
  rx : Receiver
  pair : Pair
  finishing : Bool
  collided : Bool
  line : List Byte
  draws : Nat
  pending : List Instr
  deriving DecidableEq, Repr

/-! ### Power-on values -/

/-- The default precedence lists (R43). -/
def precedenceWheelPlate : List Cls := [.guard, .operator, .verticality, .plan]
def precedencePumpGate : List Cls := [.guard, .operator, .plant]

/-- A lane at power-on (R30, R72) with the limits and settle settings given. -/
def Lane.reset (precedence : List Cls) (lo hi band : Int) (dwell : Nat) : Lane where
  state := .off
  gov := none
  orderSet := ⟨none, none, none, none, none⟩
  precedence := precedence
  mask := ⟨false, false, false, false, false⟩
  yield := false
  maskHold := false
  guardHold := false
  command := none
  interval := none
  detector := .idle
  lo := lo
  hi := hi
  band := band
  dwell := dwell

/-- The three kinds of lane with their full range (R29) and default settle settings (R61). -/
def Lane.resetWheel : Lane := .reset precedenceWheelPlate (-350) 350 5 500
def Lane.resetPlate : Lane := .reset precedenceWheelPlate 0 200 2 300
def Lane.resetPump : Lane := .reset precedencePumpGate 0 1800 20 1000
/-- The GATE has no band or dwell: DESIGN CHOICE 0 and 0, never read (log 18). -/
def Lane.resetGate : Lane := .reset precedencePumpGate 0 1 0 0

/-- R66, R72. -/
def Interlock.reset : Interlock := ⟨300, 120, 30, true⟩

/-- R92, R110. -/
def DirectState.reset : DirectState := ⟨.stale, none, none⟩

/-- R99. -/
def ModuleState.reset : ModuleState := ⟨.stale, 0, 0, none, 5, 1000⟩

/-- R132. -/
def ChanState.reset : ChanState := ⟨none, .released, 0, 0⟩

/-- The machine right after power-on (R28, R30, R72, R99, R101, R105, R110, R131, R132, R134, R135, R153, R159,
R179, R180). `pair`, `finishing`, `collided`, `line` and `draws` are
DESIGN CHOICES (log 5, 16, 17). -/
def State.reset : State where
  mode := .setup
  slots := Vector.replicate 40 ⟨0, none⟩
  lanes := #v[.resetWheel, .resetWheel, .resetPlate, .resetPlate, .resetPlate, .resetPlate, .resetPlate,
    .resetPlate, .resetPlate, .resetPlate, .resetPump, .resetGate]
  travel := .cleared
  travelLimit := 4
  interlocks := Vector.replicate 2 .reset
  direct := Vector.replicate 11 .reset
  modules := Vector.replicate 4 .reset
  modValues := Vector.replicate 5 none
  depth := ⟨none, .stale, none, 5⟩
  drift := ⟨0, 0, .stale, 0, 0⟩
  banks := Vector.replicate 2 (Vector.replicate 24 none)
  active := 0
  map := #v[⟨some 0, some 11, false⟩, ⟨some 1, some 11, false⟩,
    ⟨some 2, some 12, false⟩, ⟨some 3, some 12, false⟩, ⟨some 4, some 12, false⟩, ⟨some 5, some 12, false⟩,
    ⟨some 6, some 12, false⟩, ⟨some 7, some 12, false⟩, ⟨some 8, some 12, false⟩, ⟨some 9, some 12, false⟩,
    ⟨some 10, some 13, false⟩, ⟨some 14, some 15, false⟩]
  chans := Vector.replicate 18 .reset
  cals := #v[⟨100, 900⟩, ⟨100, 900⟩,
    ⟨200, 800⟩, ⟨200, 800⟩, ⟨200, 800⟩, ⟨200, 800⟩, ⟨200, 800⟩, ⟨200, 800⟩, ⟨200, 800⟩, ⟨200, 800⟩,
    ⟨0, 1000⟩, ⟨0, 1000⟩]
  templates := Vector.replicate 32 none
  fallback := Vector.replicate 12 none
  halt := Vector.replicate 12 none
  link := ⟨.await, none, 0, 2000, 8⟩
  txQueue := []
  noticesLost := false
  rx := .hunting
  pair := .free
  finishing := false
  collided := false
  line := []
  draws := 0
  pending := []

end Sys2Proof.Machine
end

