-- ==== Sys2Proof/Machine/Access.lean ====
section
/-! DEFINITION. Reading and writing one item of the state: the one home of each table's indexing. -/

namespace Sys2Proof.Machine

/-! ### The ranges the tables are worked through in (ascending, R8, R16, R118, R161) -/

def allSlots : List Slot := List.finRange 40
def allActuators : List Actuator := List.finRange 12
def allChans : List Chan := List.finRange 18
def allEntries : List EntryIx := List.finRange 24
def allPoints : List Point := List.finRange 19
def allModules : List Module := [.tilt, .flow, .dens, .pres]

/-- GATE, PMP and the wheels (R29). -/
def gate : Actuator := 11
def pump : Actuator := 10

/-! ### Per-class items -/

def PerClass.get {α : Type} (p : PerClass α) : Cls → α
  | .guard => p.guard
  | .operator => p.operator
  | .verticality => p.verticality
  | .plan => p.plan
  | .plant => p.plant

def PerClass.set {α : Type} (p : PerClass α) (c : Cls) (x : α) : PerClass α :=
  match c with
  | .guard => { p with guard := x }
  | .operator => { p with operator := x }
  | .verticality => { p with verticality := x }
  | .plan => { p with plan := x }
  | .plant => { p with plant := x }

/-! ### The order table -/

def State.slot (s : State) (i : Slot) : SlotState := s.slots[i.val]

def State.setSlot (s : State) (i : Slot) (x : SlotState) : State :=
  { s with slots := s.slots.set i.val x }

/-- The live order in a slot. -/
def State.orderAt (s : State) (i : Slot) : Option Order := (s.slot i).order

/-- The handle of a slot's order (R3). -/
def State.handleAt (s : State) (i : Slot) : Handle := ⟨i, (s.slot i).gen⟩

/-- The live order a handle reaches: its slot is live and the generations agree (R4). -/
def State.order? (s : State) (h : Handle) : Option Order :=
  if (s.slot h.slot).gen = h.gen then s.orderAt h.slot else none

/-- Changes the record of a live order; a free slot stays as it is. -/
def State.updOrder (s : State) (i : Slot) (f : Order → Order) : State :=
  match s.orderAt i with
  | some o => s.setSlot i ⟨(s.slot i).gen, some (f o)⟩
  | none => s

/-- The slot of the live order of an actuator and class (R36). -/
def State.findOrder (s : State) (a : Actuator) (c : Cls) : Option Slot :=
  allSlots.find? fun i =>
    match s.orderAt i with
    | some o => o.actuator = a && o.cls = c
    | none => false

/-- The lowest-numbered free slot (R3). -/
def State.freeSlot? (s : State) : Option Slot := allSlots.find? fun i => (s.orderAt i).isNone

/-- The number of live orders (R186). -/
def State.liveCount (s : State) : Nat := (allSlots.filter fun i => (s.orderAt i).isSome).length

/-! ### Lanes -/

def State.lane (s : State) (a : Actuator) : Lane := s.lanes[a.val]

def State.updLane (s : State) (a : Actuator) (f : Lane → Lane) : State :=
  { s with lanes := s.lanes.set a.val (f (s.lane a)) }

/-- The governing order of a lane with its handle. -/
def State.governing (s : State) (a : Actuator) : Option (Handle × Order) :=
  match (s.lane a).gov with
  | some h => (s.order? h).map fun o => (h, o)
  | none => none

/-- The interlock of a wheel lane; none for other lanes (R66). -/
def wheel? (a : Actuator) : Option (Fin 2) := if h : a.val < 2 then some ⟨a.val, h⟩ else none

def State.interlock (s : State) (w : Fin 2) : Interlock := s.interlocks[w.val]

def State.setInterlock (s : State) (w : Fin 2) (x : Interlock) : State :=
  { s with interlocks := s.interlocks.set w.val x }

def wheelActuator (w : Fin 2) : Actuator := ⟨w.val, by omega⟩

/-! ### Measurement -/

def State.directAt (s : State) (p : DirectPoint) : DirectState := s.direct[p.val]

def State.setDirect (s : State) (p : DirectPoint) (x : DirectState) : State :=
  { s with direct := s.direct.set p.val x }

def moduleIndex : Module → Fin 4
  | .tilt => 0 | .flow => 1 | .dens => 2 | .pres => 3

def State.module (s : State) (m : Module) : ModuleState := s.modules[(moduleIndex m).val]

def State.setModule (s : State) (m : Module) (x : ModuleState) : State :=
  { s with modules := s.modules.set (moduleIndex m).val x }

/-- The value of module point 11 + `k` (R89). -/
def State.modValue (s : State) (k : Fin 5) : Option Int := s.modValues[k.val]

def State.setModValue (s : State) (k : Fin 5) (v : Int) : State :=
  { s with modValues := s.modValues.set k.val (some v) }

/-! ### Plan store -/

def State.entry (s : State) (b : BankIx) (e : EntryIx) : Option PlanEntry := s.banks[b.val][e.val]

def State.setEntry (s : State) (b : BankIx) (e : EntryIx) (x : Option PlanEntry) : State :=
  { s with banks := s.banks.set b.val (s.banks[b.val].set e.val x) }

/-- Sets the state of a filled entry slot. -/
def State.setEntryState (s : State) (b : BankIx) (e : EntryIx) (st : EntryState) : State :=
  match s.entry b e with
  | some x => s.setEntry b e (some { x with state := st })
  | none => s

/-- The bank that is not active (R112). -/
def State.shadow (s : State) : BankIx := if s.active = 0 then 1 else 0

/-! ### Map, channels, templates -/

def State.mapAt (s : State) (a : Actuator) : MapEntry := s.map[a.val]

def State.setMap (s : State) (a : Actuator) (x : MapEntry) : State := { s with map := s.map.set a.val x }

def State.chan (s : State) (c : Chan) : ChanState := s.chans[c.val]

def State.setChan (s : State) (c : Chan) (x : ChanState) : State := { s with chans := s.chans.set c.val x }

/-- The actuator a channel is assigned to. -/
def State.assignee (s : State) (c : Chan) : Option Actuator :=
  allActuators.find? fun a => (s.mapAt a).assigned = some c

def State.cal (s : State) (a : Actuator) : Calibration := s.cals[a.val]

def State.template (s : State) (t : TemplateIx) : Option Template := s.templates[t.val]

def State.setTemplate (s : State) (t : TemplateIx) (x : Option Template) : State :=
  { s with templates := s.templates.set t.val x }

/-- The two sets of R159. -/
inductive IssueSet where
  | fallback | halt
  deriving DecidableEq, Repr

def State.binding (s : State) (w : IssueSet) (a : Actuator) : Option TemplateIx :=
  match w with
  | .fallback => s.fallback[a.val]
  | .halt => s.halt[a.val]

def State.setBinding (s : State) (w : IssueSet) (a : Actuator) (t : Option TemplateIx) : State :=
  match w with
  | .fallback => { s with fallback := s.fallback.set a.val t }
  | .halt => { s with halt := s.halt.set a.val t }

/-! ### The transmit queue (R175) -/

def TxFrame.isNotice : TxFrame → Bool
  | .notice _ _ => true
  | .answer _ _ _ _ _ => false

def State.noticeCount (s : State) : Nat := (s.txQueue.filter TxFrame.isNotice).length

/-- A notice joins the queue, or is discarded when the queue holds 16 notices, and the flag is set (R175). -/
def queueNotice (dest : Origin) (n : Notice) (s : State) : State :=
  if s.noticeCount < 16 then { s with txQueue := s.txQueue ++ [.notice dest n] }
  else { s with noticesLost := true }

end Sys2Proof.Machine
end

