-- ==== Sys2Proof/Machine/Operands.lean ====
section
/-! DEFINITION. The fixed tables of the actuators and points, the checks of every field a request can carry (step 3
of R170, each field in the order it stands in the body, R187), and the layouts of answer and notice bodies. -/

namespace Sys2Proof.Machine

/-! ### Actuators (R29, R56) -/

inductive Kind where
  | wheel | plate | pump | gate
  deriving DecidableEq, Repr

def kindOf (a : Actuator) : Kind :=
  if a.val < 2 then .wheel else if a.val < 10 then .plate else if a.val = 10 then .pump else .gate

/-- The full range in the actuator's unit. -/
def fullRange (a : Actuator) : Int × Int :=
  match kindOf a with
  | .wheel => (-350, 350)
  | .plate => (0, 200)
  | .pump => (0, 1800)
  | .gate => (0, 1)

/-- The default ramp in units per second; the GATE has none. -/
def defaultRamp (a : Actuator) : Nat :=
  match kindOf a with
  | .wheel => 20
  | .plate => 10
  | .pump => 50
  | .gate => 0

/-- The greatest ramp an order may carry. -/
def maxRamp (a : Actuator) : Nat :=
  match kindOf a with
  | .wheel => 200
  | .plate => 50
  | .pump => 300
  | .gate => 0

/-- The classes applicable to an actuator (R2, R29). -/
def applicable (c : Cls) (a : Actuator) : Bool :=
  match c with
  | .guard | .operator => true
  | .verticality | .plan => a.val < 10
  | .plant => 10 ≤ a.val

/-- The feedback point: WSA, WSB, PS1..PS8, PMS have the actuators' own numbers; the GATE has none. -/
def feedback (a : Actuator) : Option Point := if a.val < 11 then some ⟨a.val, by omega⟩ else none

/-- The class of a sender's orders (R2) and the addressee of a class's notices (R9). -/
def classOf : Origin → Cls
  | .operator => .operator
  | .verticality => .verticality
  | .plant => .plant

def addressee : Cls → Origin
  | .verticality => .verticality
  | .plant => .plant
  | .operator | .guard | .plan => .operator

/-- The cycle of a lane's non-GUARD classes and the default precedence list (R43). -/
def cycleOf (a : Actuator) : List Cls :=
  if a.val < 10 then [.operator, .verticality, .plan] else [.operator, .plant]

def defaultPrecedence (a : Actuator) : List Cls := .guard :: cycleOf a

/-- The precedence list with the class last (R44). -/
def rotateLowest (a : Actuator) (c : Cls) : List Cls :=
  let cyc := cycleOf a
  let k := cyc.idxOf c + 1
  .guard :: (cyc.drop k ++ cyc.take k)

/-- The range of a settle band (R70). -/
def bandMax (a : Actuator) : Int :=
  match kindOf a with
  | .wheel => 50
  | .plate => 20
  | .pump => 200
  | .gate => 0

/-! ### Points and channels (R89, R132) -/

def pointRange (p : Point) : Int × Int :=
  if p.val < 2 then (-400, 400)
  else if p.val < 10 then (0, 220)
  else if p.val = 10 then (0, 2000)
  else if p.val < 13 then (-5000, 5000)
  else if p.val = 13 then (0, 1500)
  else if p.val = 14 then (900, 2200)
  else if p.val = 15 then (0, 1000)
  else if p.val = 16 then (0, 25000)
  else (-32767, 32767)

def inRange (r : Int × Int) (v : Int) : Bool := r.1 ≤ v && v ≤ r.2

def depPoint : Point := 16
def drxPoint : Point := 17
def dryPoint : Point := 18
def pmsPoint : Point := 10
def slfPoint : Point := 13

/-- P0..P13 are proportional, D0..D3 discrete (R132). -/
def isDiscrete (c : Chan) : Bool := 14 ≤ c.val

/-- Proportional actuators take proportional channels and the GATE a discrete one (R135). -/
def kindsMatch (a : Actuator) (c : Chan) : Bool := (kindOf a = .gate) == isDiscrete c

/-! ### Field checks -/

def require (ok : Bool) (c : Code) : Except Code Unit := if ok then .ok () else .error c

def actuatorField (n : Nat) : Except Code Actuator :=
  if h : n < 12 then .ok ⟨n, h⟩ else .error .badActuator

def chanField (n : Nat) : Except Code Chan := if h : n < 18 then .ok ⟨n, h⟩ else .error .badChannel

def slotField (n : Nat) : Except Code Slot := if h : n < 40 then .ok ⟨n, h⟩ else .error .outOfRange

def entryField (n : Nat) : Except Code EntryIx := if h : n < 24 then .ok ⟨n, h⟩ else .error .outOfRange

def templateField (n : Nat) : Except Code TemplateIx := if h : n < 32 then .ok ⟨n, h⟩ else .error .outOfRange

def pointField (n : Nat) : Except Code Point := if h : n < 19 then .ok ⟨n, h⟩ else .error .outOfRange

/-- A handle a request acts on (R4, R189). -/
def handleField (f : HandleForm) : Except Code Handle := do
  let i ← slotField f.slot
  .ok ⟨i, f.gen⟩

/-- An optional prerequisite handle (R189). -/
def prereqField (f : HandleForm) : Except Code (Option Handle) :=
  if f.isNone then .ok none else (handleField f).map some

/-- A target within the configured limits of the actuator's lane (R15; the GATE's are 0 and 1, R69). -/
def targetOk (s : State) (a : Actuator) (t : Int) : Bool := inRange ((s.lane a).lo, (s.lane a).hi) t

def targetField (s : State) (a : Actuator) (t : Int) : Except Code Unit := require (targetOk s a t) .outOfRange

/-- A ramp, 0 for none (R56, R187); none may be given for the GATE (R15). -/
def rampField (a : Actuator) (n : Nat) : Except Code (Option Nat) :=
  if n = 0 then .ok none
  else if kindOf a = .gate then .error .notApplicable
  else if n ≤ maxRamp a then .ok (some n)
  else .error .outOfRange

/-- A lease, 0 for none, else 1..3600 s. -/
def leaseField (n : Nat) : Except Code (Option Nat) :=
  if n = 0 then .ok none else if n ≤ 3600 then .ok (some n) else .error .outOfRange

/-- One guard record (R14): the step of the dwell is tested before its range. -/
def guardField (f : GuardForm) : Except Code Guard := do
  let p ← pointField f.point
  require (inRange (pointRange p) f.threshold) .outOfRange
  require (f.dwell % 100 = 0) .badField
  require (f.dwell ≤ 10000) .outOfRange
  .ok ⟨p, f.relation, f.threshold, f.action, f.dwell⟩

def guardFields : List GuardForm → Except Code (List Guard)
  | [] => .ok []
  | f :: fs => do
    let g ← guardField f
    let gs ← guardFields fs
    .ok (g :: gs)

/-! ### Codes of answers (R187) -/

def OrderState.code : OrderState → Nat
  | .waiting => 1 | .pending => 2 | .governing => 3

def PointStatus.code : PointStatus → Nat
  | .valid => 0 | .stale => 1 | .faulted => 2

def Mode.code : Mode → Nat
  | .setup => 0 | .run => 1

def LinkState.code : LinkState → Nat
  | .await => 0 | .up => 1 | .lost => 2

def ChanMode.code : ChanMode → Nat
  | .released => 0 | .order => 1 | .localDuty => 2

def faultCode : Option FaultKind → Nat
  | none => 0
  | some k => k.code

def Lane.code (l : Lane) : Nat :=
  match l.state with
  | .off => 0
  | .rest => 1
  | .driven => 2
  | .held => if l.maskHold then 3 else 4
  | .down => 5

def EntryState.code : EntryState → Nat
  | .dormant => 0 | .ahead => 1 | .passed => 2 | .live _ => 3 | .cleared => 4 | .skipped => 5

/-- RESTART has no code: its retirements make no notice (R187); it is never sent. -/
def Cause.code : Cause → Nat
  | .withdrawn => 1 | .superseded => 2 | .expired => 3 | .completed => 4 | .guardTrip => 5
  | .prereqLost => 6 | .linkLost => 7 | .driveLost => 8 | .outOfBand => 9 | .planSwap => 10
  | .restart => 0

def SpawnFailure.code : SpawnFailure → Nat
  | .down => 1 | .limits => 2 | .full => 3

def Code.code : Code → Nat
  | .done => 0 | .notRunning => 1 | .notSetup => 2 | .notPermitted => 3 | .unknownRequest => 4
  | .badField => 5 | .badActuator => 6 | .notApplicable => 7 | .outOfRange => 8 | .staleHandle => 9
  | .notOwner => 10 | .tableFull => 11 | .actuatorDown => 12 | .badPrereq => 13 | .badTemplate => 14
  | .templateInUse => 15 | .overlap => 16 | .badChannel => 17 | .channelTaken => 18

/-! ### Layouts of items -/

def optChan (c : Option Chan) : List Byte := putOrFF (c.map (·.val))

/-- A list of classes: a count and the codes (log 13). -/
def putClasses (cs : List Cls) : List Byte := putByte cs.length ++ cs.flatMap fun c => putByte c.code

/-- A guard record (R189). -/
def putGuard (g : Guard) : List Byte :=
  putByte g.point.val ++ putByte g.relation.code ++ putS16 g.threshold ++ putByte g.action.code ++ putU16 g.dwell

/-- The time a guard's dwell has run (R88). -/
def GuardEntry.timeRun (e : GuardEntry) : Nat :=
  match e.cond with
  | .inert | .satisfied => 0
  | .timing n => n
  | .active => e.guard.dwell

def GuardEntry.isViolated (e : GuardEntry) : Bool :=
  match e.cond with
  | .timing _ | .active => true
  | .inert | .satisfied => false

def GuardEntry.isActive (e : GuardEntry) : Bool := e.cond = .active

/-- Seconds remaining, rounded up (R18). -/
def Lease.remainingS (l : Lease) : Nat := (l.remaining + 999) / 1000

/-- The order record of a QUERY answer (R189). -/
def putOrder (h : Handle) (o : Order) : List Byte :=
  putHandle (some h) ++ putByte o.cls.code ++ putByte o.actuator.val ++ putS16 o.target
  ++ putU16 (o.ramp.getD 0) ++ putByte o.completion.code ++ putHandle o.prereq ++ putFlag o.tethered
  ++ putByte o.state.code ++ putFlag o.settled
  ++ (match o.planEntry with
      | some (b, e) => putByte b.val ++ putByte e.val
      | none => [0xFF, 0xFF])
  ++ putOrFF (o.template.map (·.val))
  ++ (match o.lease with
      | some l => putU16 l.reload ++ putU16 l.remainingS
      | none => [0, 0, 0, 0])
  ++ putByte o.guards.length
  ++ o.guards.flatMap fun e =>
      putGuard e.guard ++ putFlag e.isViolated ++ putU16 e.timeRun ++ putFlag e.isActive

/-- A summary of a LIST answer (R189). -/
def putSummary (h : Handle) (o : Order) : List Byte :=
  putHandle (some h) ++ putByte o.cls.code ++ putByte o.actuator.val ++ putByte o.state.code

/-- A plan entry (R190). -/
def putEntry (e : PlanEntry) : List Byte :=
  putS16 e.depthFrom ++ putS16 e.depthTo ++ putByte e.actuator.val ++ putS16 e.target ++ putU16 (e.ramp.getD 0)

/-- A template (R190). -/
def putTemplate (t : Template) : List Byte :=
  putByte t.actuator.val ++ putS16 t.target ++ putU16 (t.ramp.getD 0) ++ putByte t.completion.code
  ++ putU16 (t.lease.getD 0) ++ putFlag t.tethered ++ putByte t.guards.length ++ t.guards.flatMap putGuard

/-- The kind and body of a notice (R187, R190). -/
def Notice.kind : Notice → Byte
  | .retired _ _ _ => 0x80
  | .remapped _ _ _ | .down _ _ | .forcedLocal _ _ => 0x81
  | .pointFaulted _ | .moduleFaulted _ => 0x82
  | .entrySkipped _ _ _ _ => 0x83

def Notice.body : Notice → List Byte
  | .retired h a c => putHandle (some h) ++ putByte a.val ++ putByte c.code
  | .remapped a f n => [1] ++ putByte a.val ++ optChan f ++ putByte n.val
  | .down a f => [2] ++ putByte a.val ++ optChan f ++ [0xFF]
  | .forcedLocal a f => [3] ++ putByte a.val ++ optChan f ++ [0xFF]
  | .pointFaulted p => [0] ++ putByte p.val ++ [2]
  | .moduleFaulted m => [1] ++ putByte m.code ++ [2]
  | .entrySkipped b e a w => putByte b.val ++ putByte e.val ++ [5] ++ putByte a.val ++ putByte w.code

/-- The bytes of a frame of the transmit queue (R177, R188). -/
def TxFrame.bytes : TxFrame → List Byte
  | .answer dest tag kind code body => frameBytes dest.code tag kind (putByte code.code ++ body)
  | .notice dest n => frameBytes 0 0 n.kind (putByte dest.code ++ n.body)

end Sys2Proof.Machine
end

