-- ==== Sys2Proof/Machine/Flags.lean ====
section
/-! DEFINITION. Everything the part computes from its state without changing it: point statuses, guard conditions,
the interlock flag, the settle condition, aims and steps of the command, duties and roundings. -/

namespace Sys2Proof.Machine

/-! ### Points (R89, R90) -/

/-- The module whose status a module point shares, and the place of its value (R95). -/
def modulePoint (k : Fin 5) : Module :=
  if k.val < 2 then .tilt else if k.val = 2 then .flow else if k.val = 3 then .dens else .pres

def State.pointStatus (s : State) (p : Point) : PointStatus :=
  if h : p.val < 11 then (s.directAt ⟨p.val, h⟩).status
  else if h' : p.val < 16 then (s.module (modulePoint ⟨p.val - 11, by omega⟩)).status
  else if p.val = 16 then s.depth.status
  else s.drift.status

def State.pointValue (s : State) (p : Point) : Option Int :=
  if h : p.val < 11 then (s.directAt ⟨p.val, h⟩).value
  else if h' : p.val < 16 then s.modValue ⟨p.val - 11, by omega⟩
  else if p.val = 16 then s.depth.value
  else if p.val = 17 then some s.drift.x
  else some s.drift.y

/-! ### Guards (R73, R75) -/

/-- The relation against a value; equality satisfies neither (R73). -/
def relationHolds (r : Relation) (threshold v : Int) : Bool :=
  match r with
  | .requireAbove => threshold < v
  | .requireBelow => v < threshold

/-- An evaluation finds the guard violated: its point is not VALID, or the relation fails (R75). -/
def violated (s : State) (g : Guard) : Bool :=
  match s.pointStatus g.point, s.pointValue g.point with
  | .valid, some v => !relationHolds g.relation g.threshold v
  | _, _ => true

/-- Some guard of the order is an ACTIVE FREEZE guard (R50). -/
def Order.frozen (o : Order) : Bool := o.guards.any GuardEntry.isActive

/-! ### Lanes -/

/-- A class that may not govern the lane; GUARD is always unmasked (R37). -/
def Lane.masked (l : Lane) (c : Cls) : Bool := c ≠ .guard && l.mask.get c

/-- `c` stands before `d` in the precedence list (R37). -/
def Lane.ranksAbove (l : Lane) (c d : Cls) : Bool := l.precedence.idxOf c < l.precedence.idxOf d

/-- The order in the position of a class when it is eligible: PENDING or GOVERNING (R37). -/
def State.eligible (s : State) (a : Actuator) (c : Cls) : Option Handle :=
  match (s.lane a).orderSet.get c with
  | some h =>
    match s.order? h with
    | some o => if o.state = .waiting then none else some h
    | none => none
  | none => none

/-- The candidate: the unmasked eligible order of the class highest in the precedence list (R37). -/
def State.candidate (s : State) (a : Actuator) : Option (Cls × Handle) :=
  (s.lane a).precedence.findSome? fun c =>
    if (s.lane a).masked c then none else (s.eligible a c).map fun h => (c, h)

/-- Next in line (R54). -/
def State.nextInLine (s : State) (a : Actuator) : Option Cls :=
  match s.governing a with
  | none => none
  | some (_, o) =>
    (s.lane a).precedence.find? fun c =>
      !(s.lane a).masked c && c ≠ o.cls && (s.eligible a c).isSome

/-! ### Commands (R55, R56, R59, R68) -/

/-- A value of the actuator's unit as a command: fiftieths, or the GATE's 0 or 1 (R55). -/
def toCommand (a : Actuator) (t : Int) : Int := if kindOf a = .gate then t else 50 * t

def clamp (lo hi v : Int) : Int := if v < lo then lo else if hi < v then hi else v

/-- The REST aim in the actuator's unit: 0, or the lower limit where it lies above 0 (R56). -/
def restAim (l : Lane) : Int := if 0 < l.lo then l.lo else 0

/-- The creep clamp of a wheel lane whose interlock is engaged (R68), in the command's unit. -/
def State.creepClamp (s : State) (a : Actuator) (c : Int) : Int :=
  match wheel? a with
  | some w =>
    if (s.interlock w).engaged then clamp (-(50 * (s.interlock w).creep)) (50 * (s.interlock w).creep) c else c
  | none => c

/-- The aim and the rate of a lane in REST or DRIVEN (R56, R68); none in OFF, HELD and DOWN. -/
def State.aim (s : State) (a : Actuator) : Option (Int × Nat) :=
  match (s.lane a).state with
  | .rest => some (s.creepClamp a (toCommand a (restAim (s.lane a))), defaultRamp a)
  | .driven =>
    match s.governing a with
    | some (_, o) => some (s.creepClamp a (toCommand a o.target), o.ramp.getD (defaultRamp a))
    | none => none
  | .off | .held | .down => none

/-- One control interval's motion: by the rate in fiftieths, landing on the aim when it is nearer (R57). -/
def stepToward (aim : Int) (rate : Nat) (c : Int) : Int :=
  if c < aim then (if aim - c < (rate : Int) then aim else c + rate)
  else if aim < c then (if c - aim < (rate : Int) then aim else c - rate)
  else c

/-- The initial command of a lane that enters REST (R59). -/
def State.initialCommand (s : State) (a : Actuator) : Int :=
  match feedback a with
  | none => 0
  | some p =>
    match s.pointStatus p, s.pointValue p with
    | .valid, some v => s.creepClamp a (toCommand a (clamp (s.lane a).lo (s.lane a).hi v))
    | _, _ => s.creepClamp a (toCommand a (restAim (s.lane a)))

/-- A command in whole units, halves away from zero (R55). -/
def reportCommand (a : Actuator) (c : Int) : Int :=
  if kindOf a = .gate then c else if 0 ≤ c then (c + 25) / 50 else -((-c + 25) / 50)

/-! ### Settle (R61, R62, R63) -/

/-- The feedback is VALID and within the band of the target. -/
def State.inBand (s : State) (a : Actuator) (target : Int) : Bool :=
  match feedback a with
  | none => false
  | some p =>
    match s.pointStatus p, s.pointValue p with
    | .valid, some v => (v - target).natAbs ≤ (s.lane a).band.toNat
    | _, _ => false

/-- The command equals the target exactly. -/
def State.atTarget (s : State) (a : Actuator) (target : Int) : Bool :=
  (s.lane a).command = some (toCommand a target)

/-! ### The return interlock (R66) -/

/-- A point is short of a minimum: not VALID, or below it. -/
def State.short (s : State) (p : Point) (minimum : Int) : Bool :=
  match s.pointStatus p, s.pointValue p with
  | .valid, some v => v < minimum
  | _, _ => true

/-- The interlock flag as the points stand. -/
def State.interlockFlag (s : State) (x : Interlock) : Bool :=
  s.short pmsPoint x.pumpMin || (x.flowMin ≠ 0 && s.short slfPoint x.flowMin)

/-! ### Duties (R134) -/

/-- The straight line through the calibration points, to the nearest ‰, halves up. -/
def State.dutyOf (s : State) (a : Actuator) (c : Int) : Nat :=
  if kindOf a = .gate then (1000 * c).toNat
  else
    let lo := (fullRange a).1
    let den := 50 * ((fullRange a).2 - lo)
    let num := (s.cal a).low * den + ((s.cal a).high - (s.cal a).low : Int) * (c - 50 * lo)
    ((2 * num + den) / (2 * den)).toNat

/-! ### Raw signals (R92, R93) -/

/-- The nearest integer to `num / den`; exactly halfway the spec states no rounding and the free value decides. -/
def roundNearest (up : Bool) (num : Int) (den : Nat) : Int :=
  let q := num / den
  let r := num % den
  if 2 * r < den then q else if (den : Int) < 2 * r then q + 1 else if up then q + 1 else q

/-- The value of one sample, or none when the signal is outside its live range (R93). Currents are in µA and
speeds in thousandths of the unit (log 9); the pump's pickup has no direction (log 10). -/
def sampleValue (p : DirectPoint) (currentUA : Nat) (speedMilli : Int) : Option Int :=
  if p.val < 2 ∨ p.val = 10 then
    let speed := if p.val = 10 then (speedMilli.natAbs : Int) else speedMilli
    let r := pointRange ⟨p.val, by omega⟩
    if currentUA < 2000 ∨ 20000 < currentUA then none
    else if inRange (1000 * r.1, 1000 * r.2) speed then some (roundNearest (Config.freeRoundUp p.val speed) speed 1000)
    else none
  else if currentUA < 3800 ∨ 20500 < currentUA then none
  else if currentUA < 4000 then some 0
  else if 20000 < currentUA then some 220
  else some (roundNearest (Config.freeRoundUp p.val currentUA) ((currentUA - 4000 : Int) * 220) 16000)

/-! ### The pair (R176) -/

/-- The part may begin a frame: the link is UP, and the part holds the pair, or the pair is free with no frame coming
in. -/
def State.maySend (s : State) : Bool := s.link.state = .up && (s.pair ≠ .free || s.rx = .hunting)

/-- The oldest frame of the queue is being sent: the part may send it, or it had begun to and finishes it. -/
def State.sending (s : State) : Bool := !s.txQueue.isEmpty && (s.maySend || s.finishing)

/-! ### Plan bands (R111, R113) -/

def inBandOf (from_ to_ d : Int) : Bool := from_ ≤ d && d < to_

def PlanEntry.holds (e : PlanEntry) (d : Int) : Bool := inBandOf e.depthFrom e.depthTo d

/-- AHEAD or PASSED by the position of the depth (R115, R118). -/
def PlanEntry.position (e : PlanEntry) (d : Int) : EntryState := if e.depthTo ≤ d then .passed else .ahead

/-- Each begins before the other ends (R113). -/
def bandsOverlap (f1 t1 f2 t2 : Int) : Bool := f1 < t2 && f2 < t1

end Sys2Proof.Machine
end

