-- ==== Sys2Proof/Machine/Ops.lean ====
section
/-! DEFINITION. The operations the commands share: channel outputs, the gate step, a lane's resolution, retirement
with its cascade, guard arming and evaluation, settle reports, placement, the internal issue, and the link's frames. -/

namespace Sys2Proof.Machine

/-! ### Outputs (R133) -/

/-- The output duty of a channel by its mode. -/
def State.outputOf (s : State) (c : Chan) : Nat :=
  match (s.chan c).mode with
  | .released => 0
  | .localDuty => (s.chan c).localDuty
  | .order =>
    match s.assignee c with
    | some a =>
      match (s.lane a).command with
      | some v => s.dutyOf a v
      | none => 0
    | none => 0

/-- Recomputes a channel's output. -/
def refreshChan (c : Chan) (s : State) : State := s.setChan c { s.chan c with output := s.outputOf c }

/-- The lane hands its command through the map to its assigned channel (R57), which follows it in ORDER (R133). -/
def handCommand (a : Actuator) (s : State) : State :=
  match (s.mapAt a).assigned with
  | some c => if (s.chan c).mode = .order then refreshChan c s else s
  | none => s

def setCommand (a : Actuator) (v : Int) (s : State) : State :=
  handCommand a (s.updLane a fun l => { l with command := some v })

/-- The gate's command steps at once and its travel timer restarts; a step to the value held changes nothing (R60). -/
def gateStep (v : Int) (s : State) : State :=
  if (s.lane gate).command = some v then s else setCommand gate v { s with travel := .running 0 }

/-! ### Resolution (R37 to R42, R50) -/

/-- Demotion to PENDING (R41). -/
def demote (a : Actuator) (s : State) : State :=
  match (s.lane a).gov with
  | some h =>
    (s.updOrder h.slot fun o => { o with state := .pending, settled := false }).updLane a
      fun l => { l with gov := none, detector := .idle }
  | none => s

/-- Promotion (R40); the command is not touched here (R58). -/
def promote (a : Actuator) (h : Handle) (s : State) : State :=
  (s.updOrder h.slot fun o => { o with state := .governing }).updLane a
    fun l => { l with gov := some h, detector := .idle }

/-- Step 1 of R38: a masked governing order gives way when the yield flag is on. -/
def resolveYield (a : Actuator) (s : State) : State :=
  match s.governing a with
  | some (_, o) => if (s.lane a).masked o.cls && (s.lane a).yield then demote a s else s
  | none => s

/-- Steps 2 to 4 of R38: promotion of the candidate, pre-emption, or no change. -/
def resolveChoice (a : Actuator) (s : State) : State :=
  match s.governing a, s.candidate a with
  | none, some (_, h) => promote a h s
  | some (_, o), some (c, h) => if (s.lane a).ranksAbove c o.cls then promote a h (demote a s) else s
  | _, none => s

/-- The hold reasons, the lane state and, on the GATE, the step that follow from the governing order (R31, R38, R50,
R51, R60). Entering HELD clears settled and restarts the detector. -/
def takeHolds (a : Actuator) (s : State) : State :=
  match s.governing a with
  | none =>
    let s := s.updLane a fun l =>
      { l with gov := none, maskHold := false, guardHold := false, state := .rest, detector := .idle }
    if a = gate then gateStep 0 s else s
  | some (h, o) =>
    let byMask := (s.lane a).masked o.cls
    let byGuard := o.frozen
    if byMask || byGuard then
      (s.updOrder h.slot fun o => { o with settled := false }).updLane a fun l =>
        { l with maskHold := byMask, guardHold := byGuard, state := .held, detector := .idle }
    else
      let s := s.updLane a fun l => { l with maskHold := false, guardHold := false, state := .driven }
      if a = gate then gateStep o.target s else s

/-- One resolution, taken whole (R38); a lane in OFF or DOWN takes none (R32, R35). -/
def resolve (a : Actuator) (s : State) : State :=
  if (s.lane a).state = .off ∨ (s.lane a).state = .down then s
  else takeHolds a (resolveChoice a (resolveYield a s))

/-! ### Retirement (R7, R8, R9) -/

/-- Step 2 of R7 without the resolution: the order leaves its lane's order set. -/
def dropFromLane (a : Actuator) (c : Cls) (h : Handle) (s : State) : State :=
  s.updLane a fun l =>
    { l with
      orderSet := if l.orderSet.get c = some h then l.orderSet.set c none else l.orderSet
      gov := if l.gov = some h then none else l.gov
      detector := if l.gov = some h then .idle else l.detector }

/-- Step 3 of R7: what the plan store does on the report of a PLAN order's retirement (R120). -/
def planReport (o : Order) (c : Cause) (s : State) : State :=
  match o.planEntry with
  | none => s
  | some (b, e) => if c = .outOfBand ∨ c = .planSwap ∨ c = .restart then s else s.setEntryState b e .cleared

/-- Steps 1 to 5 of R7 for the order in a slot; the guards and the lease go with the record (step 1). `lane` says
whether the lane resolves on the removal: not at a supersede (R11), a DOWN (R34) or RESTART (R33), and not for an
order that has not reached its lane (R77). -/
def retireOne (lane : Bool) (i : Slot) (c : Cause) (s : State) : State :=
  match s.orderAt i with
  | none => s
  | some o =>
    let h := s.handleAt i
    let s := dropFromLane o.actuator o.cls h s
    let s := if lane && o.state ≠ .waiting then resolve o.actuator s else s
    let s := planReport o c s
    let s := s.setSlot i ⟨h.gen + 1, none⟩
    if c = .restart then s else queueNotice (addressee o.cls) (.retired h o.actuator c) s

/-- The slot holds a WAITING order whose prerequisite is `h` (R8, R16). -/
def State.waitsOn (s : State) (i : Slot) (h : Handle) : Bool :=
  match s.orderAt i with
  | some o => o.state = .waiting && o.prereq = some h
  | none => false

/-- The cascade of R8, depth first in ascending slot order. Each retirement frees a slot, so a depth of 40 is
never used up. -/
def cascade : Nat → Handle → State → State
  | 0, _, s => s
  | n + 1, h, s =>
    allSlots.foldl (fun s i =>
      if s.waitsOn i h then cascade n (s.handleAt i) (retireOne false i .prereqLost s) else s) s

/-- The retirement of the order in a slot with its cascade (R7). -/
def retireCore (lane : Bool) (i : Slot) (c : Cause) (s : State) : State :=
  match s.orderAt i with
  | some _ => cascade 40 (s.handleAt i) (retireOne lane i c s)
  | none => s

/-! ### Guards at the arming of an order (R77) -/

def setCond (h : Handle) (g : Nat) (c : Cond) (s : State) : State :=
  s.updOrder h.slot fun o =>
    { o with guards := o.guards.modify g fun e => { e with cond := c } }

/-- The guard leaves INERT: it is evaluated before its order reaches the lane, and with a dwell of 0 a violated one
acts at once. -/
def armGuard (g : Nat) (h : Handle) (s : State) : State :=
  match s.order? h with
  | none => s
  | some o =>
    match o.guards[g]? with
    | none => s
    | some e =>
      if violated s e.guard then
        if e.guard.dwell = 0 then
          match e.guard.action with
          | .retire => retireCore false h.slot .guardTrip s
          | .freeze => setCond h g .active s
        else setCond h g (.timing 0) s
      else setCond h g .satisfied s

def armGuards (h : Handle) (s : State) : State := armGuard 1 h (armGuard 0 h s)

/-! ### Settle reports (R16, R63, R64) -/

/-- A WAITING order is released: PENDING, its guards armed, then handed to its lane (R16, R77). -/
def release (i : Slot) (s : State) : State :=
  let h := s.handleAt i
  let s := armGuards h (s.updOrder i fun o => { o with state := .pending })
  match s.order? h with
  | some o => resolve o.actuator s
  | none => s

/-- The GATE order that meets the settle condition of R63 and is not yet settled. -/
def State.gateSettles (s : State) : Option Handle :=
  match s.governing gate with
  | some (h, o) =>
    if (s.lane gate).state = .driven ∧ o.settled = false ∧ s.travel = .complete ∧ s.atTarget gate o.target
    then some h else none
  | none => none

/-- The GATE settles at once, by `settle`, where its order governs unhindered with the command at its target and the
travel timer complete (R63). -/
def settleGateBy (settle : Handle → State → State) (s : State) : State :=
  match s.gateSettles with
  | some h => settle h s
  | none => s

/-- The lane sets settled and reports it (R64): its dependents are released in ascending slot order (R16), the GATE
settling, by `settle`, right after the resolution of a release that makes an order govern there (R39, R63); a SETTLE
order then completes, and the GATE may settle on what its retirement leaves (log 11). -/
def settleBy (settle : Handle → State → State) (h : Handle) (s : State) : State :=
  let s := allSlots.foldl (fun s i => if s.waitsOn i h then settleGateBy settle (release i s) else s)
    (s.updOrder h.slot fun o => { o with settled := true })
  match s.order? h with
  | some o => if o.completion = .settle then settleGateBy settle (retireCore true h.slot .completed s) else s
  | none => s

/-- Each nested settle follows a release or a completion, and there are 40 orders to release and 40 to complete, so a
depth of 81 is never used up. -/
def settleFor : Nat → Handle → State → State
  | 0 => fun _ s => s
  | n + 1 => settleBy (settleFor n)

def settleOrder (h : Handle) (s : State) : State := settleFor 81 h s

/-- The GATE settles at once where a change made its order govern unhindered (R63). After a retirement it is taken when
the retirement is whole (DEDUCED from R7, log 11). -/
def settleGate (s : State) : State := settleGateBy settleOrder s

/-- A retirement that its lane resolves on (R7, R42). -/
def retire (i : Slot) (c : Cause) (s : State) : State := settleGate (retireCore true i c s)

/-! ### Guard evaluation (R76 to R82) -/

/-- The action of a guard whose dwell has run out (R80, R81). -/
def guardAct (h : Handle) (g : Nat) (action : GuardAction) (s : State) : State :=
  match action with
  | .retire => retire h.slot .guardTrip s
  | .freeze =>
    let s := setCond h g .active s
    match s.order? h with
    | some o => if o.state = .governing then takeHolds o.actuator s else s
    | none => s

/-- An ACTIVE guard is found satisfied (R82). -/
def guardEnds (h : Handle) (g : Nat) (s : State) : State :=
  let s := setCond h g .satisfied s
  match s.order? h with
  | some o => if o.state = .governing then settleGate (takeHolds o.actuator s) else s
  | none => s

/-- One evaluation of a guard that watches the point (R78). -/
def evalGuard (p : Point) (h : Handle) (g : Nat) (s : State) : State :=
  match s.order? h with
  | none => s
  | some o =>
    match o.guards[g]? with
    | none => s
    | some e =>
      if e.guard.point = p then
        match e.cond, violated s e.guard with
        | .satisfied, true =>
          if e.guard.dwell = 0 then guardAct h g e.guard.action s else setCond h g (.timing 0) s
        | .timing _, false => setCond h g .satisfied s
        | .active, false => guardEnds h g s
        | .inert, _ => s
        | .satisfied, false => s
        | .timing _, true => s
        | .active, true => s
      else s

/-- The guard unit takes one reading or status change of a point: ascending slots, guard 1 before guard 2 (R76). -/
def guardUse (p : Point) (s : State) : State :=
  allSlots.foldl (fun s i => evalGuard p (s.handleAt i) 1 (evalGuard p (s.handleAt i) 0 s)) s

/-! ### The lanes as users of a point (R62, R66, R67, R91) -/

def clearSettled (a : Actuator) (s : State) : State :=
  match (s.lane a).gov with
  | some h => s.updOrder h.slot fun o => { o with settled := false }
  | none => s

def setDetector (a : Actuator) (d : Detector) (s : State) : State := s.updLane a fun l => { l with detector := d }

/-- The restart of the detector (R62). -/
def restartDetector (a : Actuator) (s : State) : State := setDetector a .idle (clearSettled a s)

/-- The settle detector of a proportional lane takes a reading or a change to STALE or FAULTED (R61, R62). -/
def settleUse (a : Actuator) (s : State) : State :=
  match (s.lane a).state, s.governing a with
  | .driven, some (h, o) =>
    if s.inBand a o.target then
      match (s.lane a).detector with
      | .idle =>
        if s.atTarget a o.target then
          if (s.lane a).dwell = 0 then settleOrder h (setDetector a .settled s)
          else setDetector a (.timing 0) s
        else s
      | .timing _ => s
      | .settled => s
    else restartDetector a s
  | _, _ => s

/-- A wheel lane re-evaluates its flag (R66) and on engagement cuts its command at once (R67). -/
def interlockUse (w : Fin 2) (s : State) : State :=
  let x := s.interlock w
  let flag := s.interlockFlag x
  let a := wheelActuator w
  let s := s.setInterlock w { x with engaged := flag }
  if flag && !x.engaged then
    match (s.lane a).command with
    | some c =>
      if s.creepClamp a c = c then s
      else
        let s := setCommand a (s.creepClamp a c) s
        if (s.lane a).state = .driven then restartDetector a s else s
    | none => s
  else s

/-- The lane users of a point (R91). -/
def laneUse (p : Point) (s : State) : State :=
  let s := if h : p.val < 11 then settleUse ⟨p.val, by omega⟩ s else s
  if p = pmsPoint ∨ p = slfPoint then interlockUse 1 (interlockUse 0 s) else s

/-- A reading or status change reaches its users (R91). Where the order of the users makes a difference the spec
leaves it open, and a free value decides (log 4). -/
def handPoint (p : Point) (s : State) : State :=
  let guardFirst := laneUse p (guardUse p s)
  let laneFirst := guardUse p (laneUse p s)
  if guardFirst = laneFirst then guardFirst
  else if Config.freeGuardFirst s.draws then { guardFirst with draws := s.draws + 1 }
  else { laneFirst with draws := s.draws + 1 }

/-! ### Placement (R10 to R13) -/

/-- The initial state of a new order (R13). -/
def State.initialState (s : State) (prereq : Option Handle) : OrderState :=
  match prereq with
  | none => .pending
  | some h =>
    match s.order? h with
    | some q => if q.state = .governing ∧ q.settled then .pending else .waiting
    | none => .waiting

/-- `q` is WAITING on `h`, directly or through a chain of WAITING orders (R12). -/
def State.waitsThrough (s : State) : Nat → Handle → Handle → Bool
  | 0, _, _ => false
  | n + 1, q, h =>
    match s.order? q with
    | some o =>
      o.state = .waiting && (o.prereq = some h || match o.prereq with
        | some q' => s.waitsThrough n q' h
        | none => false)
    | none => false

/-- The test of a prerequisite (R12). -/
def State.prereqOk (s : State) (a : Actuator) (c : Cls) (prereq : Option Handle) : Bool :=
  match prereq with
  | none => true
  | some q =>
    match s.order? q with
    | none => false
    | some o =>
      o.actuator ≠ a &&
      match s.findOrder a c with
      | some i => s.handleAt i ≠ q && !s.waitsThrough 40 q (s.handleAt i)
      | none => true

/-- The record of a new order, before its state is fixed (R10): guards INERT, the lease at its reload value. -/
def newOrder (c : Cls) (a : Actuator) (target : Int) (ramp : Option Nat) (completion : Completion)
    (prereq : Option Handle) (guards : List Guard) (lease : Option Nat) (tethered : Bool)
    (planEntry : Option (BankIx × EntryIx)) (template : Option TemplateIx) : Order where
  cls := c
  actuator := a
  target := target
  ramp := ramp
  completion := completion
  prereq := prereq
  guards := guards.map fun g => ⟨g, .inert⟩
  lease := lease.map fun n => ⟨n, 1000 * n⟩
  tethered := tethered
  state := .waiting
  settled := false
  planEntry := planEntry
  template := template

/-- The order that holds the position, with its handle (R11). -/
def State.holder (s : State) (a : Actuator) (c : Cls) : Option Handle := (s.findOrder a c).map s.handleAt

/-- The first step of R10: the holder of the position retires SUPERSEDED with its cascade, and its lane does not resolve
yet (R11). -/
def supersede (a : Actuator) (c : Cls) (s : State) : State :=
  match s.findOrder a c with
  | some i => retireCore false i .superseded s
  | none => s

/-- The lane records the new order in its position, if its own guards have left it live (R36, R77). -/
def recordOrder (h : Handle) (a : Actuator) (c : Cls) (s : State) : State :=
  if (s.order? h).isSome then s.updLane a fun l => { l with orderSet := l.orderSet.set c (some h) } else s

/-- The second and third step of R10, in the free slot `i`: the record, the arming of its guards when it is PENDING
(R77), and the lane's one resolution with the new order in place. -/
def installOrder (o : Order) (i : Slot) (replaced : Bool) (s : State) : State :=
  let h := s.handleAt i
  let st := s.initialState o.prereq
  let s := s.setSlot i ⟨h.gen, some { o with state := st }⟩
  let s := if st = .pending then armGuards h s else s
  let s := recordOrder h o.actuator o.cls s
  settleGate (if st = .pending ∨ replaced then resolve o.actuator s else s)

/-- A placement that has passed its checks (R10, R11). Answers the new handle and the handle superseded, or nothing
where no slot is free. -/
def placeOrder (o : Order) (s : State) : State × Option (Handle × Option Handle) :=
  let t := supersede o.actuator o.cls s
  match t.freeSlot? with
  | none => (t, none)
  | some i =>
    (installOrder o i (s.holder o.actuator o.cls).isSome t, some (t.handleAt i, s.holder o.actuator o.cls))

/-- A position to take: a free slot, or an order of the position to supersede (R10, R15). -/
def State.hasRoom (s : State) (a : Actuator) (c : Cls) : Bool :=
  (s.findOrder a c).isSome || s.freeSlot?.isSome

/-! ### The internal issue (R161, R162) -/

/-- A channel is forced LOCAL (R148). -/
def forceChan (c : Chan) (s : State) : State :=
  let s := s.setChan c { s.chan c with mode := .localDuty }
  refreshChan c s

/-- An actuator whose GUARD order cannot be placed (R162). -/
def forceActuator (a : Actuator) (s : State) : State :=
  match (s.mapAt a).assigned with
  | some c => queueNotice .operator (.forcedLocal a (some c)) (forceChan c s)
  | none => queueNotice .operator (.forcedLocal a none) s

/-- The counts of a HALT answer ride along: orders issued, channels forced (R164). -/
structure IssueRun where
  st : State
  issued : Nat
  forced : Nat

/-- One actuator of an internal issue. A binding to an empty template, which R159 rules out, issues nothing. -/
def issueOne (w : IssueSet) (r : IssueRun) (a : Actuator) : IssueRun :=
  let s := r.st
  match s.binding w a with
  | none => r
  | some t =>
    if (s.lane a).state = .down then r
    else
      match s.template t with
      | none => r
      | some tm =>
        if targetOk s a tm.target && s.hasRoom a .guard then
          let o := newOrder .guard a tm.target tm.ramp tm.completion none tm.guards tm.lease false none (some t)
          { r with st := (placeOrder o s).1, issued := r.issued + 1 }
        else { r with st := forceActuator a s, forced := r.forced + 1 }

def internalIssue (w : IssueSet) (s : State) : IssueRun := allActuators.foldl (issueOne w) ⟨s, 0, 0⟩

/-! ### The link (R167 to R176) -/

/-- The loss of the link in RUN: tethered orders retire in slot order, then the fallback set is issued (R173). -/
def linkLoss (s : State) : State :=
  let s := allSlots.foldl (fun s i =>
    match s.orderAt i with
    | some o => if o.tethered then retire i .linkLost s else s
    | none => s) s
  (internalIssue .fallback s).st

/-- The link enters LOST (R171, R173). `sending` says whether a frame is being sent: it is sent whole (R176). -/
def enterLost (sending : Bool) (s : State) : State :=
  let s := { s with
    link := { s.link with state := .lost, silence := none }
    pair := .free
    finishing := sending }
  if s.mode = .run then linkLoss s else s

/-- A bad frame: the receiver hunts again, the count rises, and in UP the threshold loses the link (R167, R172). A
frame being sent is sent whole (R176): in UP the part then has the pair until its queue is empty. -/
def takeBadFrame (s : State) : State :=
  let n := if s.link.badCount < 255 then s.link.badCount + 1 else 255
  let t := { s with link := { s.link with badCount := n }, rx := .hunting, collided := false }
  if s.link.state = .up then
    if s.link.badThreshold ≤ n then enterLost s.sending t
    else { t with pair := if s.txQueue.isEmpty then .free else .heldToEmpty, finishing := false }
  else { t with pair := .free }

/-- What every valid frame does before its kind is looked up (R168). -/
def takeValidFrame (s : State) : State :=
  { s with
    link := { s.link with state := .up, silence := some 0, badCount := 0 }
    rx := .hunting
    finishing := false
    collided := false }

/-- What a block gives back for a request (R169): the state, the outcome and the answer's body. -/
structure Reply where
  st : State
  code : Code
  body : List Byte

/-- A refusal leaves every block as it was (R170). -/
def refuse (s : State) (c : Code) : Reply := ⟨s, c, []⟩

def done (s : State) (body : List Byte) : Reply := ⟨s, .done, body⟩

/-- The answer joins the queue and the part holds the pair until it is sent (R169, R176). -/
def queueAnswer (r : Req) (kind : Byte) (p : Reply) : State :=
  { p.st with
    txQueue := p.st.txQueue ++ [.answer r.origin r.tag kind p.code p.body]
    pair := .heldForAnswer }

/-- A request: its frame's effects, the owning block's decision, its one answer. A request is a valid frame, which a
colliding frame never is (R176, log 15). A body above 120 bytes cannot come
in a valid frame: the length of such a frame makes it bad (R166, log 7). -/
def request (kind : Byte) (r : Req) (s : State) (block : State → Reply) : Host.Outcome State Fault Refusal :=
  if r.body.length ≤ 120 then .next (queueAnswer r kind (block (takeValidFrame s)))
  else .next (takeBadFrame s)

/-! ### The five steps of R170 -/

/-- Step 1, for a request taken in RUN only. -/
def inRun (s : State) (k : Reply) : Reply := if s.mode = .run then k else refuse s .notRunning

/-- Step 1, for a request taken in SETUP only. -/
def inSetup (s : State) (k : Reply) : Reply := if s.mode = .setup then k else refuse s .notSetup

/-- Step 2. -/
def admitting (ok : Bool) (s : State) (k : Reply) : Reply := if ok then k else refuse s .notPermitted

/-- The form check of step 3 (R187). -/
def formed {α : Type} (f : Option α) (s : State) (k : α → Reply) : Reply :=
  match f with
  | some x => k x
  | none => refuse s .badField

/-- The values of step 3, or the states of step 5: the first that fails gives its code. -/
def checked {α : Type} (e : Except Code α) (s : State) (k : α → Reply) : Reply :=
  match e with
  | .ok x => k x
  | .error c => refuse s c

/-- Step 4: the handle reaches a live order (R4). -/
def reached (h : Handle) (s : State) (k : Order → Reply) : Reply :=
  match s.order? h with
  | some o => k o
  | none => refuse s .staleHandle

def isOperator (r : Req) : Bool := r.origin = .operator

/-- OPERATOR or VERTICALITY. -/
def isPlanner (r : Req) : Bool := r.origin ≠ .plant

end Sys2Proof.Machine
end

