-- ==== Sys2Proof/Machine/Lanes.lean ====
section
/-! DEFINITION. The requests of the lanes (chapters 2 and 3): LOWEST, MASK, UNMASK, YIELD, VIEW, SET LIMITS, SET
SETTLE, SET INTERLOCK; the control interval, the settle dwell and the gate travel timer. -/

namespace Sys2Proof.Machine

/-- The lane state with its reason and the governing handle, as the answers report them. -/
def State.laneReport (s : State) (a : Actuator) : List Byte :=
  putByte (s.lane a).code ++ putHandle (s.lane a).gov

/-- The masked classes of a lane, in the order of its cycle (log 13). -/
def State.maskList (s : State) (a : Actuator) : List Cls := (cycleOf a).filter fun c => (s.lane a).masked c

/-! ### LOWEST (R44) -/

/-- An actuator, and a class of its lane other than GUARD (R44, R46). -/
def checkLaneClass (f : Nat × Cls) : Except Code Actuator := do
  let a ← actuatorField f.1
  require (f.2 ≠ .guard && applicable f.2 a) .notApplicable
  .ok a

/-- The rotation; a class already last changes nothing and resolves nothing. -/
def setLowest (a : Actuator) (c : Cls) (s : State) : State :=
  if (s.lane a).precedence.getLast? = some c then s
  else settleGate (resolve a (s.updLane a fun l => { l with precedence := rotateLowest a c }))

def execLowest (r : Req) (s : State) : Host.Outcome State Fault Refusal :=
  request 0x20 r s fun s =>
    inRun s <| admitting (isOperator r) s <| formed (formActuatorClass r.body) s fun f =>
      checked (checkLaneClass f) s fun a =>
        let t := setLowest a f.2 s
        done t (putClasses (t.lane a).precedence ++ t.laneReport a)

/-! ### MASK, UNMASK, YIELD (R46, R47, R49) -/

/-- Sets or clears a class's place in the mask and resolves, unless it stands so already. -/
def setMask (a : Actuator) (c : Cls) (on : Bool) (s : State) : State :=
  if (s.lane a).mask.get c = on then s
  else settleGate (resolve a (s.updLane a fun l => { l with mask := l.mask.set c on }))

/-- The answer of MASK and UNMASK. -/
def maskReply (a : Actuator) (t : State) : Reply := done t (putClasses (t.maskList a) ++ t.laneReport a)

def execMask (r : Req) (s : State) : Host.Outcome State Fault Refusal :=
  request 0x21 r s fun s =>
    inRun s <| admitting (isOperator r) s <| formed (formActuatorClass r.body) s fun f =>
      checked (checkLaneClass f) s fun a => maskReply a (setMask a f.2 true s)

def execUnmask (r : Req) (s : State) : Host.Outcome State Fault Refusal :=
  request 0x22 r s fun s =>
    inRun s <| admitting (isOperator r) s <| formed (formActuatorClass r.body) s fun f =>
      checked (checkLaneClass f) s fun a => maskReply a (setMask a f.2 false s)

def setYield (a : Actuator) (on : Bool) (s : State) : State :=
  if (s.lane a).yield = on then s
  else settleGate (resolve a (s.updLane a fun l => { l with yield := on }))

def execYield (r : Req) (s : State) : Host.Outcome State Fault Refusal :=
  request 0x23 r s fun s =>
    inRun s <| admitting (isOperator r) s <| formed (formYield r.body) s fun f =>
      checked (actuatorField f.1) s fun a =>
        let t := setYield a f.2 s
        done t (putFlag (t.lane a).yield ++ t.laneReport a)

/-! ### VIEW (R53, R54) -/

/-- One position: the handle and the state of the order that holds it, or none. -/
def State.positionBytes (s : State) (a : Actuator) (c : Cls) : List Byte :=
  match (s.lane a).orderSet.get c with
  | some h => putHandle (some h) ++ putByte (match s.order? h with
    | some o => o.state.code
    | none => 0)
  | none => [0xFF, 0xFF, 0]

/-- The feedback point's value, itself perhaps absent, and status; absent for the GATE. -/
def State.feedbackBytes (s : State) (a : Actuator) : List Byte :=
  match feedback a with
  | some p => [1] ++ putOptS16 (s.pointValue p) ++ putByte (s.pointStatus p).code
  | none => [0, 0, 0, 0, 0]

/-- The VIEW answer in the order of R53, with the presence bytes of R187 (log 13). -/
def State.viewBody (s : State) (a : Actuator) : List Byte :=
  let l := s.lane a
  putByte l.code ++ putFlag l.guardHold ++ putHandle l.gov
  ++ putByte l.precedence.length ++ l.precedence.flatMap (s.positionBytes a)
  ++ putClasses l.precedence ++ putClasses (s.maskList a) ++ putFlag l.yield
  ++ putOptS16 (l.command.map (reportCommand a))
  ++ s.feedbackBytes a
  ++ (match wheel? a with
      | some w => putOptU8 (some (if (s.interlock w).engaged then 1 else 0))
      | none => putOptU8 none)
  ++ putOptU8 ((s.nextInLine a).map (·.code))

def execView (r : Req) (s : State) : Host.Outcome State Fault Refusal :=
  request 0x24 r s fun s =>
    formed (formByte r.body) s fun n =>
      checked (actuatorField n) s fun a => done s (s.viewBody a)

/-! ### SET LIMITS, SET SETTLE, SET INTERLOCK (R69 to R71) -/

def checkLimits (f : Nat × Int × Int) : Except Code Actuator := do
  let a ← actuatorField f.1
  require (kindOf a ≠ .gate) .notApplicable
  require (inRange (fullRange a) f.2.1 && inRange (fullRange a) f.2.2 && f.2.1 < f.2.2) .outOfRange
  require (!(kindOf a = .wheel && (0 < f.2.1 || f.2.2 < 0))) .outOfRange
  .ok a

def execSetLimits (r : Req) (s : State) : Host.Outcome State Fault Refusal :=
  request 0x25 r s fun s =>
    inSetup s <| admitting (isOperator r) s <| formed (formLimits r.body) s fun f =>
      checked (checkLimits f) s fun a =>
        done (s.updLane a fun l => { l with lo := f.2.1, hi := f.2.2 }) (putS16 f.2.1 ++ putS16 f.2.2)

/-- An optional item is checked where it is given. -/
def optional {α : Type} (x : Option α) (check : α → Except Code Unit) : Except Code Unit :=
  match x with
  | some v => check v
  | none => .ok ()

def checkSettle (f : SettleForm) : Except Code Actuator := do
  let a ← actuatorField f.actuator
  optional f.band fun b => do
    require (kindOf a ≠ .gate) .notApplicable
    require (1 ≤ b && b ≤ bandMax a) .outOfRange
  optional f.dwell fun d => do
    require (kindOf a ≠ .gate) .notApplicable
    require (d ≤ 5000) .outOfRange
  optional f.travel fun t => do
    require (kindOf a = .gate) .notApplicable
    require (1 ≤ t && t ≤ 30) .outOfRange
  .ok a

def applySettle (a : Actuator) (f : SettleForm) (s : State) : State :=
  let s := s.updLane a fun l => { l with band := f.band.getD l.band, dwell := f.dwell.getD l.dwell }
  { s with travelLimit := f.travel.getD s.travelLimit }

/-- The settle parameters in force: the band and the dwell, or the GATE's travel time. -/
def State.settleBytes (s : State) (a : Actuator) : List Byte :=
  if kindOf a = .gate then putU16 s.travelLimit
  else putS16 (s.lane a).band ++ putU16 (s.lane a).dwell

def execSetSettle (r : Req) (s : State) : Host.Outcome State Fault Refusal :=
  request 0x26 r s fun s =>
    inSetup s <| admitting (isOperator r) s <| formed (formSettle r.body) s fun f =>
      checked (checkSettle f) s fun a =>
        let t := applySettle a f s
        done t (t.settleBytes a)

/-- The range of each interlock setting (R66). -/
def checkInterlock (f : InterlockForm) : Except Code (Fin 2) := do
  let a ← actuatorField f.actuator
  match wheel? a with
  | none => .error .notApplicable
  | some w =>
    optional f.pumpMin fun v => require (inRange (0, 1800) v) .outOfRange
    optional f.flowMin fun v => require (inRange (0, 1500) v) .outOfRange
    optional f.creep fun v => require (inRange (0, 350) v) .outOfRange
    .ok w

/-- The settings given replace the old ones and the flag is re-evaluated at once (R71). -/
def applyInterlock (w : Fin 2) (f : InterlockForm) (s : State) : State :=
  let x := s.interlock w
  let y := { x with
    pumpMin := f.pumpMin.getD x.pumpMin
    flowMin := f.flowMin.getD x.flowMin
    creep := f.creep.getD x.creep }
  s.setInterlock w { y with engaged := s.interlockFlag y }

def execSetInterlock (r : Req) (s : State) : Host.Outcome State Fault Refusal :=
  request 0x27 r s fun s =>
    inSetup s <| admitting (isOperator r) s <| formed (formInterlock r.body) s fun f =>
      checked (checkInterlock f) s fun w =>
        let t := applyInterlock w f s
        let y := t.interlock w
        done t (putS16 y.pumpMin ++ putS16 y.flowMin ++ putS16 y.creep)

/-! ### The lane's timers (R57, R62, R63) -/

/-- A control interval timer has reached 20 ms. -/
def Lane.intervalDue (l : Lane) : Bool :=
  match l.interval with
  | some n => 20 ≤ n
  | none => false

/-- The command's motion at an expiry: on a proportional lane in REST or DRIVEN, one step toward the aim (R57). -/
def moveCommand (a : Actuator) (s : State) : State :=
  if kindOf a = .gate then s
  else
    match (s.lane a).command, s.aim a with
    | some c, some (aim, rate) =>
      if stepToward aim rate c = c then s else setCommand a (stepToward aim rate c) s
    | _, _ => s

/-- The control interval timer expires when it has run 20 ms, and starts again (R57; log 2). -/
def execControlInterval (a : Actuator) (s : State) : Host.Outcome State Fault Refusal :=
  if (s.lane a).intervalDue then
    .next (moveCommand a (s.updLane a fun l => { l with interval := some 0 }))
  else .next s

/-- The settle dwell timer has reached the settle dwell. -/
def Lane.dwellDue (l : Lane) : Bool :=
  match l.detector with
  | .timing n => l.dwell ≤ n
  | .idle | .settled => false

/-- The detector enters SETTLED and the settle is reported (R62, R64; log 2). -/
def execSettleDwellExpiry (a : Actuator) (s : State) : Host.Outcome State Fault Refusal :=
  match (s.lane a).state, s.governing a with
  | .driven, some (h, _) =>
    if (s.lane a).dwellDue then .next (settleOrder h (setDetector a .settled s)) else .next s
  | _, _ => .next s

/-- The gate travel timer has reached the travel time (R60). -/
def State.travelDue (s : State) : Bool :=
  match s.travel with
  | .running n => 1000 * s.travelLimit ≤ n
  | .cleared | .complete => false

/-- The timer stands complete and may settle the governing order (R63; log 2). -/
def execGateTravelComplete (s : State) : Host.Outcome State Fault Refusal :=
  if s.travelDue then .next (settleGate { s with travel := .complete }) else .next s

end Sys2Proof.Machine
end

