-- ==== Sys2Proof/Machine/Link.lean ====
section
/-! DEFINITION. The link port (chapter 9): the silence timer, frames sent, unknown requests, SET LINK. -/

namespace Sys2Proof.Machine

/-! ### Silence (R171, R172) -/

/-- The silence timer, which runs in UP alone, has reached the silence limit. -/
def State.silenceDue (s : State) : Bool :=
  match s.link.silence with
  | some n => s.link.state = .up && s.link.silenceLimit ≤ n
  | none => false

/-- The expiry enters LOST (R171, R173; log 2). A frame the part is sending then is sent whole (R176). -/
def execSilenceExpiry (s : State) : Host.Outcome State Fault Refusal :=
  if s.silenceDue then .next (enterLost s.sending s) else .next s

/-! ### Sending (R175, R176) -/

/-- Whose turn the pair is once a frame has been sent and `rest` is left (R176). The answer to the last frame is the
newest one: while an answer is left in the queue the part holds the pair (log 27, a case R175 does not have). -/
def pairAfter (s : State) (f : TxFrame) (rest : List TxFrame) : Pair :=
  if s.link.state = .up then
    match s.pair with
    | .free => .free
    | .heldForAnswer => if f.isNotice || rest.any (fun g => !g.isNotice) then .heldForAnswer else .free
    | .heldToEmpty => if rest.isEmpty then .free else .heldToEmpty
  else .free

/-- The oldest frame has been sent and leaves the queue; `line` holds its bytes (log 17). -/
def execFrameSent (s : State) : Host.Outcome State Fault Refusal :=
  match s.txQueue with
  | [] => .next s
  | f :: rest =>
    if s.sending then
      .next { s with txQueue := rest, line := f.bytes, finishing := false, pair := pairAfter s f rest }
    else .next s

/-! ### Requests of the link port (R168, R178) -/

/-- A kind that names no request is answered UNKNOWN_REQUEST with an empty body (R168). A kind that names one is no
such event (log 6). -/
def execUnknownRequest (r : Req) (kind : Byte) (s : State) : Host.Outcome State Fault Refusal :=
  if namesRequest kind then .next s else request kind r s fun s => refuse s .unknownRequest

def checkLink (f : Option Nat × Option Nat) : Except Code Unit := do
  require (match f.1 with
    | some n => 500 ≤ n && n ≤ 10000
    | none => true) .outOfRange
  require (match f.2 with
    | some n => 1 ≤ n && n ≤ 64
    | none => true) .outOfRange

def applyLink (f : Option Nat × Option Nat) (s : State) : State :=
  { s with link := { s.link with
      silenceLimit := f.1.getD s.link.silenceLimit
      badThreshold := f.2.getD s.link.badThreshold } }

def execSetLink (r : Req) (s : State) : Host.Outcome State Fault Refusal :=
  request 0x70 r s fun s =>
    inSetup s <| admitting (isOperator r) s <| formed (formLink r.body) s fun f =>
      checked (checkLink f) s fun _ =>
        let t := applyLink f s
        done t (putU16 t.link.silenceLimit ++ putByte t.link.badThreshold ++ putByte t.link.state.code
          ++ putByte t.link.badCount)

end Sys2Proof.Machine
end

