-- ==== Sys2Proof/Machine/Orders.lean ====
section
/-! DEFINITION. The requests of the order table: PLACE, AMEND, RENEW, WITHDRAW, QUERY, LIST (chapter 1), and the lease expiry. -/

namespace Sys2Proof.Machine

/-! ### PLACE (R14, R15) -/

/-- Step 5 of a placement (R15, R158). -/
def checkPosition (s : State) (a : Actuator) (c : Cls) (prereq : Option Handle) : Except Code Unit := do
  require ((s.lane a).state ≠ .down) .actuatorDown
  require (s.prereqOk a c prereq) .badPrereq
  require (s.hasRoom a c) .tableFull

/-- The checks of PLACE after the form, in the order of the body, and the order they let through. -/
def checkPlace (s : State) (c : Cls) (f : PlaceForm) : Except Code Order := do
  let a ← actuatorField f.actuator
  require (applicable c a) .notApplicable
  targetField s a f.target
  let ramp ← rampField a f.ramp
  let prereq ← prereqField f.prereq
  let lease ← leaseField f.lease
  let guards ← guardFields f.guards
  checkPosition s a c prereq
  .ok (newOrder c a f.target ramp f.completion prereq guards lease f.tethered none none)

/-- The state an answer reports of an order: 0 when it has already retired (R77, R187; log 12). -/
def State.stateCode (s : State) (h : Handle) : Nat :=
  match s.order? h with
  | some o => o.state.code
  | none => 0

/-- The answer of a placement (R14, R157): the handle, its state, the handle superseded. -/
def placed (o : Order) (s : State) : Reply :=
  match placeOrder o s with
  | (t, some (h, old)) => done t (putHandle (some h) ++ putByte (t.stateCode h) ++ putHandle old)
  | (_, none) => refuse s .tableFull

/-- PLACE (R14). -/
def execPlace (r : Req) (s : State) : Host.Outcome State Fault Refusal :=
  request 0x10 r s fun s =>
    inRun s <| formed (formPlace r.body) s fun f =>
      checked (checkPlace s (classOf r.origin) f) s fun o => placed o s

/-! ### AMEND (R21 to R23) -/

/-- The field checks of AMEND that need no order (R23). -/
def checkAmend (f : AmendForm) : Except Code Handle := do
  let h ← handleField f.handle
  let _ ← leaseField (f.lease.getD 0)
  .ok h

/-- The checks of AMEND against the order's actuator (R23). -/
def checkAmended (s : State) (o : Order) (f : AmendForm) : Except Code Unit := do
  require (!(kindOf o.actuator = .gate && f.ramp.getD 0 ≠ 0)) .notApplicable
  require (match f.target with
    | some t => targetOk s o.actuator t
    | none => true) .outOfRange
  require (f.ramp.getD 0 ≤ maxRamp o.actuator) .outOfRange

/-- The record after an AMEND (R21): a ramp or lease of 0 takes the item away. -/
def amended (f : AmendForm) (o : Order) : Order :=
  { o with
    target := f.target.getD o.target
    ramp := match f.ramp with
      | none => o.ramp
      | some n => if n = 0 then none else some n
    lease := match f.lease with
      | none => o.lease
      | some n => if n = 0 then none else some ⟨n, 1000 * n⟩ }

/-- AMEND of a live order: on a GOVERNING order a changed target or ramp restarts the settle detector, and the gate
steps at once when its lane is DRIVEN (R22, R60). -/
def amendOrder (h : Handle) (o : Order) (f : AmendForm) (s : State) : State :=
  let o' := amended f o
  let s := s.updOrder h.slot (amended f)
  if o.state = .governing ∧ (o'.target ≠ o.target ∨ o'.ramp ≠ o.ramp) then
    let s := restartDetector o.actuator s
    if o.actuator = gate ∧ (s.lane gate).state = .driven then gateStep o'.target s else s
  else s

/-- An order's state and settled field in an answer. -/
def State.standing (s : State) (h : Handle) : List Byte :=
  match s.order? h with
  | some o => putByte o.state.code ++ putFlag o.settled
  | none => [0, 0]

def execAmend (r : Req) (s : State) : Host.Outcome State Fault Refusal :=
  request 0x12 r s fun s =>
    inRun s <| formed (formAmend r.body) s fun f =>
      checked (checkAmend f) s fun h =>
        reached h s fun o =>
          if o.cls = classOf r.origin then
            checked (checkAmended s o f) s fun _ =>
              let t := amendOrder h o f s
              done t (t.standing h)
          else refuse s .notOwner

/-! ### RENEW (R24) -/

def checkRenew (f : HandleForm × Nat) : Except Code Handle := do
  let h ← handleField f.1
  let _ ← leaseField f.2
  .ok h

/-- The lease after a RENEW with the new reload value, 0 for none given. -/
def renewed (n : Nat) (l : Option Lease) : Option Lease :=
  if n = 0 then l.map fun x => ⟨x.reload, 1000 * x.reload⟩ else some ⟨n, 1000 * n⟩

def putLease : Option Lease → List Byte
  | some l => putU16 l.reload ++ putU16 l.remainingS
  | none => [0, 0, 0, 0]

def execRenew (r : Req) (s : State) : Host.Outcome State Fault Refusal :=
  request 0x13 r s fun s =>
    inRun s <| formed (formRenew r.body) s fun f =>
      checked (checkRenew f) s fun h =>
        reached h s fun o =>
          if o.cls = classOf r.origin then
            let lease := renewed f.2 o.lease
            done (s.updOrder h.slot fun o => { o with lease := lease }) (putLease lease)
          else refuse s .notOwner

/-! ### WITHDRAW (R20, R25) -/

/-- OPERATOR may withdraw any order, the others their own class (R20). -/
def mayWithdraw (origin : Origin) (c : Cls) : Bool := origin = .operator || c = classOf origin

def execWithdraw (r : Req) (s : State) : Host.Outcome State Fault Refusal :=
  request 0x14 r s fun s =>
    inRun s <| formed (formHandle r.body) s fun f =>
      checked (handleField f) s fun h =>
        reached h s fun o =>
          if mayWithdraw r.origin o.cls then
            let t := retireCore true h.slot .withdrawn s
            done (settleGate t) (putByte (s.liveCount - t.liveCount))
          else refuse s .notOwner

/-! ### QUERY and LIST (R26, R27) -/

def execQuery (r : Req) (s : State) : Host.Outcome State Fault Refusal :=
  request 0x15 r s fun s =>
    formed (formHandle r.body) s fun f =>
      checked (handleField f) s fun h =>
        reached h s fun o => done s (putOrder h o)

/-- The checks of LIST in the order of the body (log 14). -/
def checkList (f : ListForm) : Except Code (Slot × Option Actuator) := do
  let i ← slotField f.start
  match f.actuator with
  | none => .ok (i, none)
  | some n =>
    let a ← actuatorField n
    .ok (i, some a)

/-- The live orders a LIST goes through, in ascending slot order. -/
def State.listed (s : State) (start : Slot) (a : Option Actuator) (c : Option Cls) : List Slot :=
  allSlots.filter fun i =>
    start ≤ i &&
    match s.orderAt i with
    | some o => a.all (· = o.actuator) && c.all (· = o.cls)
    | none => false

def State.summary (s : State) (i : Slot) : List Byte :=
  match s.orderAt i with
  | some o => putSummary (s.handleAt i) o
  | none => []

/-- Up to 20 summaries and the slot after the last of them, or 0xFF when the list is complete (R27, R189). -/
def State.listBody (s : State) (found : List Slot) : List Byte :=
  let page := found.take 20
  putByte page.length ++ page.flatMap s.summary
  ++ (if 20 < found.length then
        match page.getLast? with
        | some i => putByte (i.val + 1)
        | none => [0xFF]
      else [0xFF])

def execList (r : Req) (s : State) : Host.Outcome State Fault Refusal :=
  request 0x16 r s fun s =>
    formed (formList r.body) s fun f =>
      checked (checkList f) s fun (i, a) => done s (s.listBody (s.listed i a f.cls))

/-! ### The lease timer (R18, R19) -/

/-- The lease of the order has run out. -/
def Order.leaseOut (o : Order) : Bool :=
  match o.lease with
  | some l => l.remaining = 0
  | none => false

/-- The order retires EXPIRED when its lease timer stands at zero; a lease reloaded, removed or gone with its order
has no expiry (R7, R19; log 2). -/
def execLeaseExpiry (h : Handle) (s : State) : Host.Outcome State Fault Refusal :=
  match s.order? h with
  | some o => if o.leaseOut then .next (retire h.slot .expired s) else .next s
  | none => .next s

end Sys2Proof.Machine
end

