-- ==== Sys2Proof/Machine/Channels.lean ====
section
/-! DEFINITION. The actuator map and the drive stage (chapter 7): moves, fault reports, DOWN, lanes entering REST, and the map and channel requests. -/

namespace Sys2Proof.Machine

/-! ### The spare test and the move (R136) -/

/-- The spare an actuator can move to: its flag is clear, a spare is designated, OK, and assigned to no actuator. -/
def State.usableSpare (s : State) (a : Actuator) : Option Chan :=
  match (s.mapAt a).frozen, (s.mapAt a).spare with
  | false, some c => if (s.chan c).fault = none ∧ s.assignee c = none then some c else none
  | _, _ => none

/-- A channel released: it puts out 0 and keeps its health and local duty (R136, R138, R141). -/
def releaseChan (c : Chan) (s : State) : State :=
  s.setChan c { s.chan c with mode := .released, output := 0 }

def assign (a : Actuator) (c : Option Chan) (s : State) : State :=
  s.setMap a { s.mapAt a with assigned := c }

/-- A move (R136): the new channel takes the old one's mode and local duty, where there was an old one, and its
output follows at once; the old one is unassigned and RELEASED. -/
def moveActuator (a : Actuator) (new : Chan) (s : State) : State :=
  match (s.mapAt a).assigned with
  | some old =>
    refreshChan new (assign a (some new)
      (releaseChan old
        (s.setChan new { s.chan new with mode := (s.chan old).mode, localDuty := (s.chan old).localDuty })))
  | none => refreshChan new (assign a (some new) s)

/-! ### Lanes entering DOWN and REST (R32, R34, R35, R59, R72) -/

def laneDown (a : Actuator) (s : State) : State :=
  let s := s.updLane a fun l =>
    { l with
      state := .down, gov := none, maskHold := false, guardHold := false
      command := none, interval := none, detector := .idle }
  if a = gate then { s with travel := .cleared } else s

/-- The lane leaves OFF or DOWN for REST with its initial command; the GATE's travel timer starts from zero (R60);
the command is handed to the channel. -/
def laneRest (a : Actuator) (s : State) : State :=
  let v := s.initialCommand a
  let s := s.updLane a fun l =>
    { l with
      state := .rest, gov := none, maskHold := false, guardHold := false
      command := some v, interval := some 0, detector := .idle }
  let s := if a = gate then { s with travel := .running 0 } else s
  handCommand a s

/-! ### Fault reports (R137 to R139) -/

/-- Every live order of the actuator retires DRIVE_LOST in ascending slot order, without resolution (R34). -/
def retireDriveLost (a : Actuator) (s : State) : State :=
  allSlots.foldl (fun s i =>
    match s.orderAt i with
    | some o => if o.actuator = a then retireCore false i .driveLost s else s
    | none => s) s

/-- The actuator goes DOWN (R138). -/
def actuatorDown (a : Actuator) (c : Chan) (s : State) : State :=
  let s := queueNotice .operator (.down a (some c)) s
  laneDown a (retireDriveLost a (assign a none (releaseChan c s)))

/-- A fault report (R137 to R139): beyond the health it acts only in RUN, on an assigned channel that was OK. -/
def execChannelFaultReport (c : Chan) (k : FaultKind) (s : State) : Host.Outcome State Fault Refusal :=
  let t := s.setChan c { s.chan c with fault := some k }
  if s.mode = .run ∧ (s.chan c).fault = none then
    match s.assignee c with
    | none => .next t
    | some a =>
      match t.usableSpare a with
      | some sp => .next (queueNotice .operator (.remapped a (some c) sp) (moveActuator a sp t))
      | none => .next (actuatorDown a c t)
  else .next t

/-! ### MAP (R142) -/

/-- The kind and the health are checked at the field step, the assignment at the state step. -/
def checkMap (s : State) (f : Nat × Nat) : Except Code (Actuator × Chan) := do
  let a ← actuatorField f.1
  let c ← chanField f.2
  require (kindsMatch a c && (s.chan c).fault = none) .badChannel
  require (match s.assignee c with
    | some b => b = a
    | none => true) .channelTaken
  .ok (a, c)

/-- An actuator brought back from DOWN: its channel enters ORDER unless it is in LOCAL (R142). -/
def bringBack (a : Actuator) (c : Chan) (s : State) : State :=
  let s := assign a (some c) s
  let s := if (s.chan c).mode = .localDuty then s else s.setChan c { s.chan c with mode := .order }
  laneRest a s

def applyMap (a : Actuator) (c : Chan) (s : State) : State :=
  if (s.mapAt a).assigned = some c then s
  else if s.mode = .setup then assign a (some c) s
  else if (s.lane a).state = .down then bringBack a c s
  else moveActuator a c s

def execMapActuator (r : Req) (s : State) : Host.Outcome State Fault Refusal :=
  request 0x50 r s fun s =>
    admitting (isOperator r) s <| formed (formTwoBytes r.body) s fun f =>
      checked (checkMap s f) s fun (a, c) =>
        let t := applyMap a c s
        done t (putByte a.val ++ putByte c.val ++ putByte (t.chan c).mode.code
          ++ putU16 (t.chan c).output ++ putByte (t.lane a).code)

/-! ### SPARE, FREEZE MAP, THAW (R143 to R145) -/

/-- 0xFF removes the designation (R187). -/
def checkSpare (f : Nat × Nat) : Except Code (Actuator × Option Chan) := do
  let a ← actuatorField f.1
  if f.2 = 255 then .ok (a, none)
  else
    let c ← chanField f.2
    require (kindsMatch a c) .badChannel
    .ok (a, some c)

def execSpare (r : Req) (s : State) : Host.Outcome State Fault Refusal :=
  request 0x51 r s fun s =>
    admitting (isOperator r) s <| formed (formTwoBytes r.body) s fun f =>
      checked (checkSpare f) s fun (a, c) =>
        done (s.setMap a { s.mapAt a with spare := c }) (optChan (s.mapAt a).assigned ++ optChan c)

/-- The freeze flag set or cleared, with the answer FREEZE MAP and THAW share. -/
def setFrozen (r : Req) (on : Bool) (s : State) : Reply :=
  admitting (isOperator r) s <| formed (formByte r.body) s fun n =>
    checked (actuatorField n) s fun a =>
      let m := s.mapAt a
      done (s.setMap a { m with frozen := on })
        (putByte a.val ++ putFlag on ++ optChan m.assigned ++ optChan m.spare)

def execFreezeMap (r : Req) (s : State) : Host.Outcome State Fault Refusal :=
  request 0x52 r s (setFrozen r true)

def execThaw (r : Req) (s : State) : Host.Outcome State Fault Refusal :=
  request 0x53 r s (setFrozen r false)

/-! ### Channel requests (R146 to R150) -/

def execClearFault (r : Req) (s : State) : Host.Outcome State Fault Refusal :=
  request 0x54 r s fun s =>
    admitting (isOperator r) s <| formed (formByte r.body) s fun n =>
      checked (chanField n) s fun c =>
        done (s.setChan c { s.chan c with fault := none }) (putByte 0 ++ putByte (s.chan c).mode.code)

/-- 0..1000 ‰, or 0 or 1000 ‰ on a discrete channel (R147). -/
def checkLocal (f : Nat × Nat) : Except Code Chan := do
  let c ← chanField f.1
  require (f.2 ≤ 1000 && (!isDiscrete c || f.2 = 0 || f.2 = 1000)) .outOfRange
  .ok c

def setLocalDuty (c : Chan) (n : Nat) (s : State) : State :=
  let s := s.setChan c { s.chan c with localDuty := n }
  if (s.chan c).mode = .localDuty then refreshChan c s else s

def execSetLocal (r : Req) (s : State) : Host.Outcome State Fault Refusal :=
  request 0x55 r s fun s =>
    admitting (isOperator r) s <| formed (formByteU16 r.body) s fun f =>
      checked (checkLocal f) s fun c =>
        let t := setLocalDuty c f.2 s
        done t (putU16 (t.chan c).localDuty ++ putByte (t.chan c).mode.code ++ putU16 (t.chan c).output)

def execForceLocal (r : Req) (s : State) : Host.Outcome State Fault Refusal :=
  request 0x56 r s fun s =>
    admitting (isOperator r) s <| formed (formByte r.body) s fun n =>
      checked (chanField n) s fun c =>
        let t := forceChan c s
        done t (putByte (t.chan c).mode.code ++ putU16 (t.chan c).localDuty ++ putU16 (t.chan c).output
          ++ putOptU8 ((t.assignee c).map (·.val)))

/-- Out of LOCAL: to ORDER in RUN when assigned, else to RELEASED (R149). -/
def restoreChan (c : Chan) (s : State) : State :=
  if (s.chan c).mode = .localDuty then
    if s.mode = .run ∧ (s.assignee c).isSome then refreshChan c (s.setChan c { s.chan c with mode := .order })
    else releaseChan c s
  else s

def execRestore (r : Req) (s : State) : Host.Outcome State Fault Refusal :=
  request 0x57 r s fun s =>
    admitting (isOperator r) s <| formed (formByte r.body) s fun n =>
      checked (chanField n) s fun c =>
        let t := restoreChan c s
        done t (putByte (t.chan c).mode.code ++ putU16 (t.chan c).output)

/-- The READ CHANNEL answer in the order of R150; kind 0 is proportional and 1 discrete (log 13). -/
def State.channelBytes (s : State) (c : Chan) : List Byte :=
  let x := s.chan c
  let spares := allActuators.filter fun a => (s.mapAt a).spare = some c
  putByte (if isDiscrete c then 1 else 0) ++ putFlag x.fault.isSome ++ putByte (faultCode x.fault)
  ++ putByte x.mode.code ++ putU16 x.localDuty ++ putU16 x.output
  ++ putOptU8 ((s.assignee c).map (·.val))
  ++ putByte spares.length ++ spares.flatMap (fun a => putByte a.val)
  ++ (match s.assignee c with
      | some a =>
        if kindOf a = .gate then [0, 0, 0, 0, 0, 0]
        else [1] ++ putU16 (s.cal a).low ++ putU16 (s.cal a).high ++ putFlag (s.mapAt a).frozen
      | none => [0, 0, 0, 0, 0, 0])

def execReadChannel (r : Req) (s : State) : Host.Outcome State Fault Refusal :=
  request 0x58 r s fun s =>
    formed (formByte r.body) s fun n =>
      checked (chanField n) s fun c => done s (s.channelBytes c)

/-! ### SET CALIBRATION (R151) -/

def checkCalibration (f : Nat × Nat × Nat) : Except Code Actuator := do
  let a ← actuatorField f.1
  require (kindOf a ≠ .gate) .notApplicable
  require (f.2.1 ≤ 1000 && f.2.2 ≤ 1000 && f.2.1 ≠ f.2.2) .outOfRange
  .ok a

def execSetCalibration (r : Req) (s : State) : Host.Outcome State Fault Refusal :=
  request 0x59 r s fun s =>
    inSetup s <| admitting (isOperator r) s <| formed (formCalibration r.body) s fun f =>
      checked (checkCalibration f) s fun a =>
        done { s with cals := s.cals.set a.val ⟨f.2.1, f.2.2⟩ } (putU16 f.2.1 ++ putU16 f.2.2)

end Sys2Proof.Machine
end

