-- ==== Sys2Proof/Machine/Points.lean ====
section
/-! DEFINITION. The measurement unit (chapter 5): direct samples, module frames and their stale timers, depth and drift, and SET DRIFT, READ POINTS, SET MODULE, SET DEPTH STALE. -/

namespace Sys2Proof.Machine

/-! ### Direct inputs (R92 to R94) -/

def directPoint (p : DirectPoint) : Point := ⟨p.val, by omega⟩

/-- The sample events of one input are 20 ms apart (R92), so each in-range sample of a recovering run advances the
fault-recovery timer by 20 ms (log 8). -/
def samplePeriod : Nat := 20

/-- A value is taken into the point and makes it VALID: a reading and, where the status changes, one event with it. -/
def takeDirect (p : DirectPoint) (v : Int) (s : State) : State :=
  handPoint (directPoint p) (s.setDirect p ⟨.valid, some v, none⟩)

/-- The point becomes FAULTED and keeps its value; the users take the change, and the POINT notice is queued (R93). -/
def faultDirect (p : DirectPoint) (s : State) : State :=
  queueNotice .operator (.pointFaulted p)
    (handPoint (directPoint p) (s.setDirect p ⟨.faulted, (s.directAt p).value, none⟩))

/-- An in-range sample at a FAULTED point (R94): the run starts, goes on, or after 1000 ms returns the point. -/
def recoverDirect (p : DirectPoint) (v : Int) (s : State) : State :=
  let d := s.directAt p
  match d.recovery with
  | none => s.setDirect p { d with recovery := some 0 }
  | some n =>
    if 1000 ≤ n + samplePeriod then takeDirect p v s
    else s.setDirect p { d with recovery := some (n + samplePeriod) }

/-- One sample event (R92 to R94). -/
def execDirectSample (p : DirectPoint) (currentUA : Nat) (speedMilli : Int) (s : State) :
    Host.Outcome State Fault Refusal :=
  match sampleValue p currentUA speedMilli, (s.directAt p).status with
  | some v, .valid => .next (takeDirect p v s)
  | some v, .stale => .next (takeDirect p v s)
  | some v, .faulted => .next (recoverDirect p v s)
  | none, .valid => .next (faultDirect p s)
  | none, .stale => .next (faultDirect p s)
  | none, .faulted => .next (s.setDirect p { s.directAt p with recovery := none })

/-! ### Modules (R95 to R99) -/

/-- The points of a module, by the place of their values (R95). -/
def moduleValues : Module → List (Fin 5)
  | .tilt => [0, 1]
  | .flow => [2]
  | .dens => [3]
  | .pres => [4]

def valuePoint (k : Fin 5) : Point := ⟨11 + k.val, by omega⟩

/-- A change of a module's status or values reaches the users, INX before INY (R76). -/
def handModule (m : Module) (s : State) : State :=
  (moduleValues m).foldl (fun s k => handPoint (valuePoint k) s) s

/-- The module an address names (R192). -/
def moduleOf (address : Byte) : Option Module :=
  if address = 1 then some .tilt else if address = 2 then some .flow
  else if address = 3 then some .dens else if address = 4 then some .pres else none

/-- The readings of a good frame (R95, R192): the length is 3 plus twice their number, the integrity code matches,
and each reading lies in its point's range. -/
def goodReadings (m : Module) (bytes : List Byte) : Option (List Int) :=
  let n := (moduleValues m).length
  if bytes.length = 3 + 2 * n ∧ bytes.drop (1 + 2 * n) = putCrc (bytes.take (1 + 2 * n)) then
    let vs := match bytes with
      | [_, a1, a0, b1, b0, _, _] => [s16 a1 a0, s16 b1 b0]
      | [_, a1, a0, _, _] => [s16 a1 a0]
      | _ => []
    if (List.zip (moduleValues m) vs).all fun kv => inRange (pointRange (valuePoint kv.1)) kv.2 then some vs
    else none
  else none

/-- The readings are taken into the module's points. -/
def setReadings (m : Module) (vs : List Int) (s : State) : State :=
  (List.zip (moduleValues m) vs).foldl (fun s kv => s.setModValue kv.1 kv.2) s

/-- The module's readings are taken, it is VALID, and its stale timer starts from zero (R97). -/
def takeReadings (m : Module) (vs : List Int) (s : State) : State :=
  handModule m (setReadings m vs
    (s.setModule m { s.module m with status := .valid, badCount := 0, goodRun := 0, stale := some 0 }))

/-- A good frame (R97). -/
def goodFrame (m : Module) (vs : List Int) (s : State) : State :=
  let x := s.module m
  match x.status with
  | .valid | .stale => takeReadings m vs s
  | .faulted =>
    if 3 ≤ x.goodRun + 1 then takeReadings m vs s
    else s.setModule m { x with badCount := 0, goodRun := x.goodRun + 1 }

/-- A module becomes FAULTED: its stale timer stops (R98), the users take the change, the POINT notice is queued. -/
def faultModule (m : Module) (s : State) : State :=
  queueNotice .operator (.moduleFaulted m)
    (handModule m (s.setModule m { s.module m with status := .faulted, stale := none }))

/-- The supervision of R96: a module not yet FAULTED whose count has reached the threshold. -/
def superviseModule (m : Module) (s : State) : State :=
  let x := s.module m
  if x.status ≠ .faulted ∧ x.threshold ≤ x.badCount then faultModule m s else s

/-- A bad frame charged to the module (R96). -/
def badModuleFrame (m : Module) (s : State) : State :=
  let x := s.module m
  superviseModule m
    (s.setModule m { x with badCount := if x.badCount < 255 then x.badCount + 1 else 255, goodRun := 0 })

/-- One frame on the sensor loop; an address that names no module is charged to none (R95). -/
def execModuleReadingFrame (bytes : List Byte) (s : State) : Host.Outcome State Fault Refusal :=
  match bytes with
  | [] => .next s
  | address :: _ =>
    match moduleOf address with
    | none => .next s
    | some m =>
      match goodReadings m bytes with
      | some vs => .next (goodFrame m vs s)
      | none => .next (badModuleFrame m s)

/-- The stale timer has reached the stale limit (R98). -/
def ModuleState.staleDue (x : ModuleState) : Bool :=
  match x.stale with
  | some n => x.staleLimit ≤ n
  | none => false

/-- The module and its points become STALE and keep their values (R98). -/
def staleModule (m : Module) (s : State) : State :=
  handModule m (s.setModule m { s.module m with status := .stale, stale := none })

def execModuleStaleExpiry (m : Module) (s : State) : Host.Outcome State Fault Refusal :=
  if (s.module m).staleDue then .next (staleModule m s) else .next s

/-! ### SET MODULE (R100) -/

def checkModule (f : ModuleForm) : Except Code Unit := do
  require (match f.threshold with
    | some t => 1 ≤ t && t ≤ 255
    | none => true) .outOfRange
  require (match f.stale with
    | some t => 100 ≤ t && t ≤ 5000
    | none => true) .outOfRange

/-- The settings given replace the old ones and act at once: the threshold on the count, then the limit on a running
stale timer (R100). That a timer already at its limit is taken here also where no limit is given is the model's choice
(log 26). -/
def applyModule (f : ModuleForm) (s : State) : State :=
  let x := s.module f.module
  let s := superviseModule f.module
    (s.setModule f.module { x with
      threshold := f.threshold.getD x.threshold
      staleLimit := f.stale.getD x.staleLimit })
  if (s.module f.module).staleDue then staleModule f.module s else s

def execSetModule (r : Req) (s : State) : Host.Outcome State Fault Refusal :=
  request 0x33 r s fun s =>
    inSetup s <| admitting (isOperator r) s <| formed (formModule r.body) s fun f =>
      checked (checkModule f) s fun _ =>
        let t := applyModule f s
        let x := t.module f.module
        done t (putByte x.threshold ++ putU16 x.staleLimit ++ putByte x.status.code)

/-! ### Depth (R101 to R104) -/

/-- The depth is taken into DEP, which becomes VALID; its stale timer starts from zero (R101). -/
def takeDepth (d : Int) (s : State) : State :=
  handPoint depPoint { s with depth := { s.depth with value := some d, status := .valid, stale := some 0 } }

/-- The depth stale timer has reached the limit (R101). -/
def DepthState.staleDue (x : DepthState) : Bool :=
  match x.stale with
  | some n => 1000 * x.staleLimit ≤ n
  | none => false

/-- DEP becomes STALE and keeps its value (R101). -/
def staleDepth (s : State) : State :=
  handPoint depPoint { s with depth := { s.depth with status := .stale, stale := none } }

def execDepthStaleExpiry (s : State) : Host.Outcome State Fault Refusal :=
  if s.depth.staleDue then .next (staleDepth s) else .next s

/-- SET DEPTH STALE (R104). -/
def applyDepthStale (n : Nat) (s : State) : State :=
  let s := { s with depth := { s.depth with staleLimit := n } }
  if s.depth.staleDue then staleDepth s else s

def execSetDepthStale (r : Req) (s : State) : Host.Outcome State Fault Refusal :=
  request 0x34 r s fun s =>
    inSetup s <| admitting (isOperator r) s <| formed (formU16 r.body) s fun n =>
      checked (require (1 ≤ n && n ≤ 60) .outOfRange) s fun _ =>
        let t := applyDepthStale n s
        done t (putU16 t.depth.staleLimit ++ putByte t.depth.status.code)

/-! ### Drift (R105 to R108) -/

/-- One axis of a step (R106): the quotient truncated toward zero is added, the remainder carried; a value that
would pass a limit is held there with remainder 0. -/
def driftAxis (v rem inclination change : Int) : Int × Int :=
  let sum := change * inclination + rem
  let v' := v + sum.tdiv 1000
  if 32767 < v' then (32767, 0) else if v' < -32767 then (-32767, 0) else (v', sum.tmod 1000)

def driftStep (change : Int) (d : DriftState) (inx iny : Int) : DriftState :=
  let x := driftAxis d.x d.remX inx change
  let y := driftAxis d.y d.remY iny change
  { d with x := x.1, remX := x.2, y := y.1, remY := y.2 }

/-- DRX, then DRY, reach the guard unit (R76). -/
def handDrift (s : State) : State := handPoint dryPoint (handPoint drxPoint s)

/-- The drift estimate takes a depth note (R106, R107). -/
def driftNote (d : Int) (s : State) : State :=
  match s.depth.value with
  | none => s
  | some previous =>
    if 200 < (d - previous).natAbs ∨ (s.module .tilt).status ≠ .valid then
      let t := { s with drift := { s.drift with status := .stale, remX := 0, remY := 0 } }
      if s.drift.status = .valid then handDrift t else t
    else if s.drift.status = .valid then
      handDrift { s with
        drift := driftStep (d - previous) s.drift ((s.modValue 0).getD 0) ((s.modValue 1).getD 0) }
    else s

/-- The measurement unit takes a depth note whole: the drift estimate, then DEP (R102). -/
def measureDepth (d : Int) (s : State) : State := takeDepth d (driftNote d s)

/-- SET DRIFT (R108). -/
def seedDrift (x y : Int) (s : State) : State := handDrift { s with drift := ⟨x, y, .valid, 0, 0⟩ }

def driftRange : Int × Int := (-32767, 32767)

def execSetDrift (r : Req) (s : State) : Host.Outcome State Fault Refusal :=
  request 0x31 r s fun s =>
    admitting (isPlanner r) s <| formed (formDrift r.body) s fun f =>
      checked (require (inRange driftRange f.1 && inRange driftRange f.2) .outOfRange) s fun _ =>
        done (seedDrift f.1 f.2 s) (putS16 f.1 ++ putS16 f.2)

/-! ### READ POINTS (R109) -/

def pointFields : List Nat → Except Code (List Point)
  | [] => .ok []
  | n :: ns => do
    let p ← pointField n
    let ps ← pointFields ns
    .ok (p :: ps)

/-- One item: the identifier, the value behind its presence byte, the status. -/
def State.pointBytes (s : State) (p : Point) : List Byte :=
  putByte p.val ++ putOptS16 (s.pointValue p) ++ putByte (s.pointStatus p).code

def execReadPoints (r : Req) (s : State) : Host.Outcome State Fault Refusal :=
  request 0x32 r s fun s =>
    formed (formPoints r.body) s fun ns =>
      checked (pointFields ns) s fun ps => done s (putByte ps.length ++ ps.flatMap s.pointBytes)

end Sys2Proof.Machine
end

