-- ==== Sys2Proof/Machine/Plan.lean ====
section
/-! DEFINITION. The plan store (chapter 6): spawns, the evaluation of the active bank, depth notes with DEPTH, and PUT ENTRY, DROP ENTRY, CLEAR SHADOW, READ ENTRY, SWAP. -/

namespace Sys2Proof.Machine

/-! ### Spawning (R116, R117) -/

/-- Why a spawn of the entry fails, tested in the order of R116. -/
def State.spawnFailure (s : State) (x : PlanEntry) : Option SpawnFailure :=
  if (s.lane x.actuator).state = .down then some .down
  else if !targetOk s x.actuator x.target then some .limits
  else if s.freeSlot?.isNone then some .full
  else none

/-- The PLAN order of an entry (R116). -/
def planOrder (b : BankIx) (e : EntryIx) (x : PlanEntry) : Order :=
  newOrder .plan x.actuator x.target x.ramp .standing none [] none false (some (b, e)) none

/-- One spawn from the active bank: the entry becomes LIVE with the handle, or SKIPPED with its ENTRY notice. -/
def spawn (e : EntryIx) (s : State) : State :=
  match s.entry s.active e with
  | none => s
  | some x =>
    match s.spawnFailure x with
    | some w => queueNotice .operator (.entrySkipped s.active e x.actuator w) (s.setEntryState s.active e .skipped)
    | none =>
      match placeOrder (planOrder s.active e x) s with
      | (t, some (h, _)) => t.setEntryState s.active e (.live h)
      | (t, none) => t

/-- A function of each entry of the active bank in ascending slot order. -/
def overEntries (f : EntryIx → PlanEntry → State → State) (s : State) : State :=
  allEntries.foldl (fun s e => match s.entry s.active e with
    | some x => f e x s
    | none => s) s

/-! ### The evaluation of the active bank (R115) -/

/-- Step 1: every entry is AHEAD or PASSED by its position. -/
def placeEntries (d : Option Int) (s : State) : State :=
  overEntries (fun e x s => s.setEntryState s.active e (match d with
    | some v => x.position v
    | none => .ahead)) s

/-- Step 2: the entries whose bands hold the depth are spawned. -/
def spawnEntries (d : Option Int) (s : State) : State :=
  match d with
  | none => s
  | some v => overEntries (fun e x s => if x.holds v then spawn e s else s) s

def evaluateBank (s : State) : State := spawnEntries s.depth.value (placeEntries s.depth.value s)

/-- How many entries of the active bank are LIVE, and how many SKIPPED. -/
def PlanEntry.isLive (x : PlanEntry) : Bool :=
  match x.state with
  | .live _ => true
  | _ => false

def State.liveEntries (s : State) : Nat :=
  (allEntries.filter fun e => (s.entry s.active e).any PlanEntry.isLive).length

def State.skippedEntries (s : State) : Nat :=
  (allEntries.filter fun e => (s.entry s.active e).any fun x => x.state = .skipped).length

/-! ### Depth notes (R118) -/

/-- Step 1: the PLAN orders of LIVE entries out of band retire, and their entries take their position. -/
def noteRetire (d : Int) (e : EntryIx) (x : PlanEntry) (s : State) : State :=
  match x.state with
  | .live h =>
    if x.holds d then s
    else
      let t := if (s.order? h).isSome then retire h.slot .outOfBand s else s
      t.setEntryState t.active e (x.position d)
  | _ => s

/-- Step 2: CLEARED and SKIPPED entries out of band take their position. -/
def noteRearm (d : Int) (e : EntryIx) (x : PlanEntry) (s : State) : State :=
  match x.state with
  | .cleared | .skipped => if x.holds d then s else s.setEntryState s.active e (x.position d)
  | _ => s

/-- Step 3: AHEAD and PASSED entries in band are spawned; the others take their position. -/
def noteSpawn (d : Int) (e : EntryIx) (x : PlanEntry) (s : State) : State :=
  match x.state with
  | .ahead | .passed => if x.holds d then spawn e s else s.setEntryState s.active e (x.position d)
  | _ => s

/-- The plan store takes a depth note: in RUN the three steps, in SETUP nothing (R118). -/
def planNote (d : Int) (s : State) : State :=
  if s.mode = .run then
    overEntries (noteSpawn d) (overEntries (noteRearm d) (overEntries (noteRetire d) s))
  else s

/-- DEPTH (R102): the measurement unit takes the note whole, then the plan store. -/
def execDepth (r : Req) (s : State) : Host.Outcome State Fault Refusal :=
  request 0x30 r s fun s =>
    admitting (isOperator r) s <| formed (formDepth r.body) s fun d =>
      checked (require (inRange (0, 25000) d) .outOfRange) s fun _ =>
        let t := planNote d (measureDepth d s)
        done t (putS16 d ++ putByte t.drift.status.code ++ putS16 t.drift.x ++ putS16 t.drift.y
          ++ putByte t.active.val)

/-! ### Editing the shadow bank (R124 to R126) -/

def checkEntry (s : State) (f : EntryForm) : Except Code (EntryIx × PlanEntry) := do
  let e ← entryField f.slot
  require (inRange (0, 25000) f.depthFrom) .outOfRange
  require (inRange (0, 25000) f.depthTo && f.depthFrom + 10 ≤ f.depthTo) .outOfRange
  let a ← actuatorField f.actuator
  require (applicable .plan a) .notApplicable
  targetField s a f.target
  let ramp ← rampField a f.ramp
  .ok (e, ⟨f.depthFrom, f.depthTo, a, f.target, ramp, .dormant⟩)

/-- The lowest-numbered other entry of the shadow bank that names the actuator with an overlapping band (R113). -/
def State.overlapping (s : State) (e : EntryIx) (x : PlanEntry) : Option EntryIx :=
  allEntries.find? fun e' =>
    e' ≠ e && match s.entry s.shadow e' with
    | some y => y.actuator = x.actuator && bandsOverlap x.depthFrom x.depthTo y.depthFrom y.depthTo
    | none => false

def execPutEntry (r : Req) (s : State) : Host.Outcome State Fault Refusal :=
  request 0x40 r s fun s =>
    admitting (isPlanner r) s <| formed (formEntry r.body) s fun f =>
      checked (checkEntry s f) s fun (e, x) =>
        match s.overlapping e x with
        | some e' => ⟨s, .overlap, putByte e'.val⟩
        | none => done (s.setEntry s.shadow e (some x)) (putByte s.shadow.val ++ putByte e.val)

def execDropEntry (r : Req) (s : State) : Host.Outcome State Fault Refusal :=
  request 0x41 r s fun s =>
    admitting (isPlanner r) s <| formed (formByte r.body) s fun n =>
      checked (entryField n) s fun e =>
        done (s.setEntry s.shadow e none)
          (putByte s.shadow.val ++ putByte e.val ++ putFlag (s.entry s.shadow e).isSome)

/-- Every slot of a bank empty. -/
def emptyBank (b : BankIx) (s : State) : State := allEntries.foldl (fun s e => s.setEntry b e none) s

def execClearShadow (r : Req) (s : State) : Host.Outcome State Fault Refusal :=
  request 0x42 r s fun s =>
    admitting (isPlanner r) s <| formed (formEmpty r.body) s fun _ =>
      done (emptyBank s.shadow s)
        (putByte s.shadow.val ++ putByte (allEntries.filter fun e => (s.entry s.shadow e).isSome).length)

/-! ### READ ENTRY (R127, R190) -/

def State.entryBytes (s : State) (b : BankIx) (e : EntryIx) : List Byte :=
  putFlag (b ≠ s.active) ++
  (match s.entry b e with
   | some x => putFlag true ++ putEntry x ++ putByte x.state.code ++ putHandle (match x.state with
     | .live h => some h
     | _ => none)
   | none => List.replicate 11 0 ++ putHandle none)

def execReadEntry (r : Req) (s : State) : Host.Outcome State Fault Refusal :=
  request 0x43 r s fun s =>
    admitting (isPlanner r) s <| formed (formReadEntry r.body) s fun f =>
      checked (entryField f.2) s fun e => done s (s.entryBytes (if f.1 then 1 else 0) e)

/-! ### SWAP (R128) -/

/-- Step 1: the PLAN orders of the LIVE entries retire PLAN_SWAP in ascending entry slot order. -/
def swapRetire (_e : EntryIx) (x : PlanEntry) (s : State) : State :=
  match x.state with
  | .live h => if (s.order? h).isSome then retire h.slot .planSwap s else s
  | _ => s

/-- Every entry of a bank DORMANT. -/
def sleepBank (b : BankIx) (s : State) : State := allEntries.foldl (fun s e => s.setEntryState b e .dormant) s

/-- The banks exchange roles; in RUN the four steps of R128. -/
def swapBanks (s : State) : State :=
  if s.mode = .run then
    let t := sleepBank s.active (overEntries swapRetire s)
    evaluateBank { t with active := t.shadow }
  else { s with active := s.shadow }

/-- The counts of the answer: the PLAN orders retired in step 1, not counting their cascades, and the entries of the
new active bank made LIVE and SKIPPED; zeros in SETUP. -/
def State.swapCounts (s t : State) : List Byte :=
  if s.mode = .run then putByte s.liveEntries ++ putByte t.liveEntries ++ putByte t.skippedEntries
  else [0, 0, 0]

def execSwap (r : Req) (s : State) : Host.Outcome State Fault Refusal :=
  request 0x44 r s fun s =>
    admitting (isPlanner r) s <| formed (formEmpty r.body) s fun _ =>
      let t := swapBanks s
      done t (putByte t.active.val ++ s.swapCounts t)

end Sys2Proof.Machine
end

