-- ==== Sys2Proof/Machine/Run.lean ====
section
/-! DEFINITION. Run control (chapter 10): POWER_ON, START, RESTART, STATUS; and the guard dwell expiry of chapter 4. -/

namespace Sys2Proof.Machine

/-- Power is applied: every block takes its power-on values (R180). The commands still waiting, and the model's own
counter of free values, stay (log 23). -/
def execPowerOn (s : State) : Host.Outcome State Fault Refusal :=
  .next { State.reset with pending := s.pending, draws := s.draws }

/-! ### START (R140, R182) -/

/-- The counts of the answer ride along: actuators moved to spares, actuators left DOWN. -/
structure StartRun where
  st : State
  moved : Nat
  down : Nat

/-- The assigned channel of an actuator is usable as it is (R140). -/
def State.channelOk (s : State) (a : Actuator) : Bool :=
  match (s.mapAt a).assigned with
  | some c => (s.chan c).fault = none
  | none => false

/-- The assigned channel, if any, released and the assignment removed (R140). -/
def leaveDown (a : Actuator) (s : State) : State :=
  match (s.mapAt a).assigned with
  | some c => assign a none (releaseChan c s)
  | none => s

/-- The map's test of one actuator (R140). -/
def testActuator (r : StartRun) (a : Actuator) : StartRun :=
  let s := r.st
  if s.channelOk a then r
  else
    let old := (s.mapAt a).assigned
    match s.usableSpare a with
    | some sp =>
      { r with st := queueNotice .operator (.remapped a old sp) (moveActuator a sp s), moved := r.moved + 1 }
    | none => { r with st := queueNotice .operator (.down a old) (leaveDown a s), down := r.down + 1 }

/-- Step 3 of R182: the assigned channels enter ORDER, unless in LOCAL. -/
def enterOrder (s : State) (a : Actuator) : State :=
  match (s.mapAt a).assigned with
  | some c => if (s.chan c).mode = .localDuty then s else s.setChan c { s.chan c with mode := .order }
  | none => s

/-- Step 4 of R182: DOWN for an actuator left without a channel, REST for the rest; the interlock flags are taken
from the points as they stand (R72). -/
def leaveOff (s : State) (a : Actuator) : State :=
  match (s.mapAt a).assigned with
  | some _ => laneRest a s
  | none => laneDown a s

/-- The interlock flags as the points stand, with no command to cut (R72). -/
def refreshFlag (s : State) (w : Fin 2) : State :=
  s.setInterlock w { s.interlock w with engaged := s.interlockFlag (s.interlock w) }

def refreshFlags (s : State) : State := refreshFlag (refreshFlag s 0) 1

/-- The five steps of START (R182). -/
def startRun (s : State) : StartRun :=
  let r := allActuators.foldl testActuator ⟨{ s with mode := .run }, 0, 0⟩
  let s := allActuators.foldl enterOrder r.st
  let s := allActuators.foldl leaveOff (refreshFlags s)
  { r with st := evaluateBank s }

def execStart (r : Req) (s : State) : Host.Outcome State Fault Refusal :=
  request 0x71 r s fun s =>
    inSetup s <| admitting (isOperator r) s <| formed (formEmpty r.body) s fun _ =>
      let u := startRun s
      done u.st (putByte u.st.mode.code ++ putByte u.moved ++ putByte u.down
        ++ putByte u.st.liveEntries ++ putByte u.st.skippedEntries)

/-! ### RESTART (R28, R33, R131, R141, R184) -/

/-- A lane back in OFF: precedence, mask and yield at their power-on values, its settings kept (R33, R72). -/
def laneOff (s : State) (a : Actuator) : State :=
  s.updLane a fun l =>
    { Lane.reset (defaultPrecedence a) l.lo l.hi l.band l.dwell with state := .off }

/-- ORDER becomes RELEASED; LOCAL and RELEASED stay (R141). -/
def restartChan (s : State) (c : Chan) : State := if (s.chan c).mode = .order then releaseChan c s else s

def restartRun (s : State) : State :=
  let s := allSlots.foldl (fun s i => retireOne false i .restart s) s
  let s := allActuators.foldl laneOff s
  let s := allChans.foldl restartChan { s with travel := .cleared }
  let s := sleepBank 1 (sleepBank 0 s)
  refreshFlags { s with mode := .setup }

def execRestart (r : Req) (s : State) : Host.Outcome State Fault Refusal :=
  request 0x72 r s fun s =>
    inRun s <| admitting (isOperator r) s <| formed (formEmpty r.body) s fun _ =>
      let t := restartRun s
      done t (putByte t.mode.code ++ putByte s.liveCount)

/-! ### STATUS (R186, R191) -/

/-- A channel's byte: fault kind in bits 0 and 1, mode in bits 2 and 3. -/
def ChanState.statusByte (x : ChanState) : List Byte := putByte (faultCode x.fault + 4 * x.mode.code)

/-- The body of R191; `before` is the link port as the frame found it. -/
def State.statusBody (s : State) (before : LinkPort) : List Byte :=
  putByte s.mode.code ++ putByte s.link.state.code ++ putByte before.state.code ++ putByte before.badCount
  ++ putFlag s.noticesLost ++ putByte s.liveCount ++ putByte s.active.val
  ++ allActuators.flatMap (fun a => putByte (s.lane a).code)
  ++ allChans.flatMap (fun c => (s.chan c).statusByte)
  ++ allPoints.flatMap (fun p => putByte (s.pointStatus p).code)
  ++ allChans.flatMap (fun c => if (s.chan c).mode = .localDuty then putU16 (s.chan c).localDuty else [])

/-- The answer reports the notices-lost flag, and the flag is then clear (R175, R186). -/
def execStatus (r : Req) (s : State) : Host.Outcome State Fault Refusal :=
  request 0x73 r s fun t =>
    formed (formEmpty r.body) t fun _ => done { t with noticesLost := false } (t.statusBody s.link)

/-! ### The guard dwell (R79 to R81) -/

/-- The guard is TIMING and its dwell timer has reached its dwell. -/
def GuardEntry.dwellDue (e : GuardEntry) : Bool :=
  match e.cond with
  | .timing n => e.guard.dwell ≤ n
  | _ => false

/-- The expiry carries out the guard's action (R79; log 2). -/
def execGuardDwellExpiry (h : Handle) (g : Fin 2) (s : State) : Host.Outcome State Fault Refusal :=
  match s.order? h with
  | none => .next s
  | some o =>
    match o.guards[g.val]? with
    | none => .next s
    | some e => if e.dwellDue then .next (guardAct h g.val e.guard.action s) else .next s

end Sys2Proof.Machine
end

