-- ==== Sys2Proof/Machine/Templates.lean ====
section
/-! DEFINITION. The template table (chapter 8): PUT TEMPLATE, READ TEMPLATE, ISSUE, SET FALLBACK, SET HALT, HALT. -/

namespace Sys2Proof.Machine

/-- The actuator for which a template is bound in a set (R155). -/
def State.boundFor (s : State) (w : IssueSet) (t : TemplateIx) : Option Actuator :=
  allActuators.find? fun a => s.binding w a = some t

/-- Bound in either set (R155). -/
def State.inUse (s : State) (t : TemplateIx) : Bool :=
  (s.boundFor .fallback t).isSome || (s.boundFor .halt t).isSome

/-! ### PUT TEMPLATE (R155) -/

/-- The values of a template in the order of the body. -/
def checkFields (s : State) (f : TemplateForm) : Except Code Template := do
  let a ← actuatorField f.actuator
  targetField s a f.target
  let ramp ← rampField a f.ramp
  let lease ← leaseField f.lease
  let guards ← guardFields f.guards
  .ok ⟨a, f.target, ramp, f.completion, guards, lease, f.tethered⟩

/-- The index, the fields, and the in-use restriction. -/
def checkTemplate (s : State) (f : Nat × Option TemplateForm) : Except Code (TemplateIx × Option Template) := do
  let t ← templateField f.1
  match f.2 with
  | none =>
    require (!s.inUse t) .templateInUse
    .ok (t, none)
  | some g =>
    let x ← checkFields s g
    require (!(s.inUse t && (s.template t).all fun y => y.actuator ≠ x.actuator)) .templateInUse
    .ok (t, some x)

def execPutTemplate (r : Req) (s : State) : Host.Outcome State Fault Refusal :=
  request 0x60 r s fun s =>
    admitting (isOperator r) s <| formed (formTemplate r.body) s fun f =>
      checked (checkTemplate s f) s fun (t, x) =>
        done (s.setTemplate t x)
          (putByte t.val ++ putFlag x.isNone ++ putOptU8 ((s.boundFor .fallback t).map (·.val))
            ++ putOptU8 ((s.boundFor .halt t).map (·.val)))

/-! ### READ TEMPLATE (R156, R190) -/

def State.templateBytes (s : State) (t : TemplateIx) : List Byte :=
  (match s.template t with
   | some x => [1] ++ putTemplate x
   | none => [0])
  ++ putOrFF ((s.boundFor .fallback t).map (·.val)) ++ putOrFF ((s.boundFor .halt t).map (·.val))

def execReadTemplate (r : Req) (s : State) : Host.Outcome State Fault Refusal :=
  request 0x61 r s fun s =>
    formed (formByte r.body) s fun n =>
      checked (templateField n) s fun t => done s (s.templateBytes t)

/-! ### ISSUE (R157, R158) -/

/-- The order an ISSUE makes: a copy of the template with the target and prerequisite given (R154). -/
def checkIssue (s : State) (c : Cls) (f : IssueForm) : Except Code Order := do
  let t ← templateField f.index
  match s.template t with
  | none => .error .badTemplate
  | some x =>
    require (applicable c x.actuator) .notApplicable
    targetField s x.actuator (f.target.getD x.target)
    let prereq ← prereqField f.prereq
    checkPosition s x.actuator c prereq
    .ok (newOrder c x.actuator (f.target.getD x.target) x.ramp x.completion prereq x.guards x.lease x.tethered
      none (some t))

def execIssue (r : Req) (s : State) : Host.Outcome State Fault Refusal :=
  request 0x11 r s fun s =>
    inRun s <| formed (formIssue r.body) s fun f =>
      checked (checkIssue s (classOf r.origin) f) s fun o => placed o s

/-! ### SET FALLBACK and SET HALT (R160) -/

/-- The actuator and a filled template that names it, or 0xFF to remove the binding. -/
def checkBinding (s : State) (f : Nat × Nat) : Except Code (Actuator × Option TemplateIx) := do
  let a ← actuatorField f.1
  if f.2 = 255 then .ok (a, none)
  else
    let t ← templateField f.2
    require ((s.template t).any fun x => x.actuator = a) .badTemplate
    .ok (a, some t)

def bind (w : IssueSet) (r : Req) (s : State) : Reply :=
  admitting (isOperator r) s <| formed (formTwoBytes r.body) s fun f =>
    checked (checkBinding s f) s fun (a, t) =>
      let u := s.setBinding w a t
      done u (putOrFF ((u.binding .fallback a).map (·.val)) ++ putOrFF ((u.binding .halt a).map (·.val)))

def execSetFallback (r : Req) (s : State) : Host.Outcome State Fault Refusal :=
  request 0x62 r s (bind .fallback r)

def execSetHalt (r : Req) (s : State) : Host.Outcome State Fault Refusal :=
  request 0x63 r s (bind .halt r)

/-! ### HALT (R164) -/

def execHalt (r : Req) (s : State) : Host.Outcome State Fault Refusal :=
  request 0x64 r s fun s =>
    inRun s <| admitting (isOperator r) s <| formed (formEmpty r.body) s fun _ =>
      let u := internalIssue .halt s
      done u.st (putByte u.issued ++ putByte u.forced)

end Sys2Proof.Machine
end

