-- ==== Sys2Proof/Machine/Bytes.lean ====
section
/-! DEFINITION. The bytes on the pair at the receiver (R166, R167): BAD_FRAME and INTER_BYTE_TIMEOUT. -/

namespace Sys2Proof.Machine

/-- A valid frame goes to the request its kind names (R168, R187). -/
def takeRequest (r : Req) (kind : Byte) (s : State) : Host.Outcome State Fault Refusal :=
  match kind.toNat with
  | 0x10 => execPlace r s
  | 0x11 => execIssue r s
  | 0x12 => execAmend r s
  | 0x13 => execRenew r s
  | 0x14 => execWithdraw r s
  | 0x15 => execQuery r s
  | 0x16 => execList r s
  | 0x20 => execLowest r s
  | 0x21 => execMask r s
  | 0x22 => execUnmask r s
  | 0x23 => execYield r s
  | 0x24 => execView r s
  | 0x25 => execSetLimits r s
  | 0x26 => execSetSettle r s
  | 0x27 => execSetInterlock r s
  | 0x30 => execDepth r s
  | 0x31 => execSetDrift r s
  | 0x32 => execReadPoints r s
  | 0x33 => execSetModule r s
  | 0x34 => execSetDepthStale r s
  | 0x40 => execPutEntry r s
  | 0x41 => execDropEntry r s
  | 0x42 => execClearShadow r s
  | 0x43 => execReadEntry r s
  | 0x44 => execSwap r s
  | 0x50 => execMapActuator r s
  | 0x51 => execSpare r s
  | 0x52 => execFreezeMap r s
  | 0x53 => execThaw r s
  | 0x54 => execClearFault r s
  | 0x55 => execSetLocal r s
  | 0x56 => execForceLocal r s
  | 0x57 => execRestore r s
  | 0x58 => execReadChannel r s
  | 0x59 => execSetCalibration r s
  | 0x60 => execPutTemplate r s
  | 0x61 => execReadTemplate r s
  | 0x62 => execSetFallback r s
  | 0x63 => execSetHalt r s
  | 0x64 => execHalt r s
  | 0x70 => execSetLink r s
  | 0x71 => execStart r s
  | 0x72 => execRestart r s
  | 0x73 => execStatus r s
  | _ => execUnknownRequest r kind s

/-- The receiver goes on. A frame that begins while the part is sending collides with the part's frame, which is sent
whole (R176). -/
def listen (rx : Receiver) (s : State) : State :=
  if s.rx = .hunting ∧ rx ≠ .hunting then
    { s with rx := rx, finishing := s.finishing || s.sending, collided := s.sending }
  else { s with rx := rx }

/-- The bytes one after another (R167): after a frame, valid or bad, the receiver hunts on from its next byte. A
colliding frame is a bad frame whatever its bytes (R176). -/
def takeBytes : List Byte → State → Host.Outcome State Fault Refusal
  | [], s => .next s
  | b :: bs, s =>
    match rxByte s.rx b with
    | .more rx => takeBytes bs (listen rx s)
    | .bad => takeBytes bs (takeBadFrame s)
    | .valid r kind =>
      if s.collided then takeBytes bs (takeBadFrame s)
      else
        match takeRequest r kind s with
        | .next t => takeBytes bs t
        | o => o

/-- BAD_FRAME: its bytes at the receiver, of which the first frame to end is bad (log 6). -/
def execBadFrame (bytes : List Byte) (s : State) : Host.Outcome State Fault Refusal := takeBytes bytes s

/-- The bytes, then 2 ms without another: a frame being collected becomes a bad frame, and where none is being
collected there is no timeout (R167; log 6). -/
def execInterByteTimeout (bytes : List Byte) (s : State) : Host.Outcome State Fault Refusal :=
  match takeBytes bytes s with
  | .next t => if t.rx = .hunting then .next t else .next (takeBadFrame t)
  | o => o

end Sys2Proof.Machine
end

