-- ==== Sys2Proof/Machine/Dispatch.lean ====
section
/-! DEFINITION. Dispatch: one arm per command, each one call of its meaning. -/

namespace Sys2Proof.Machine

def exec (i : Instr) (s : State) : Host.Outcome State Fault Refusal :=
  match i with
  | .powerOn => Sys2Proof.Machine.execPowerOn s
  | .place r => Sys2Proof.Machine.execPlace r s
  | .issue r => Sys2Proof.Machine.execIssue r s
  | .amend r => Sys2Proof.Machine.execAmend r s
  | .renew r => Sys2Proof.Machine.execRenew r s
  | .withdraw r => Sys2Proof.Machine.execWithdraw r s
  | .query r => Sys2Proof.Machine.execQuery r s
  | .list r => Sys2Proof.Machine.execList r s
  | .lowest r => Sys2Proof.Machine.execLowest r s
  | .mask r => Sys2Proof.Machine.execMask r s
  | .unmask r => Sys2Proof.Machine.execUnmask r s
  | .yield r => Sys2Proof.Machine.execYield r s
  | .view r => Sys2Proof.Machine.execView r s
  | .setLimits r => Sys2Proof.Machine.execSetLimits r s
  | .setSettle r => Sys2Proof.Machine.execSetSettle r s
  | .setInterlock r => Sys2Proof.Machine.execSetInterlock r s
  | .depth r => Sys2Proof.Machine.execDepth r s
  | .setDrift r => Sys2Proof.Machine.execSetDrift r s
  | .readPoints r => Sys2Proof.Machine.execReadPoints r s
  | .setModule r => Sys2Proof.Machine.execSetModule r s
  | .setDepthStale r => Sys2Proof.Machine.execSetDepthStale r s
  | .putEntry r => Sys2Proof.Machine.execPutEntry r s
  | .dropEntry r => Sys2Proof.Machine.execDropEntry r s
  | .clearShadow r => Sys2Proof.Machine.execClearShadow r s
  | .readEntry r => Sys2Proof.Machine.execReadEntry r s
  | .swap r => Sys2Proof.Machine.execSwap r s
  | .mapActuator r => Sys2Proof.Machine.execMapActuator r s
  | .spare r => Sys2Proof.Machine.execSpare r s
  | .freezeMap r => Sys2Proof.Machine.execFreezeMap r s
  | .thaw r => Sys2Proof.Machine.execThaw r s
  | .clearFault r => Sys2Proof.Machine.execClearFault r s
  | .setLocal r => Sys2Proof.Machine.execSetLocal r s
  | .forceLocal r => Sys2Proof.Machine.execForceLocal r s
  | .restore r => Sys2Proof.Machine.execRestore r s
  | .readChannel r => Sys2Proof.Machine.execReadChannel r s
  | .setCalibration r => Sys2Proof.Machine.execSetCalibration r s
  | .putTemplate r => Sys2Proof.Machine.execPutTemplate r s
  | .readTemplate r => Sys2Proof.Machine.execReadTemplate r s
  | .setFallback r => Sys2Proof.Machine.execSetFallback r s
  | .setHalt r => Sys2Proof.Machine.execSetHalt r s
  | .halt r => Sys2Proof.Machine.execHalt r s
  | .setLink r => Sys2Proof.Machine.execSetLink r s
  | .start r => Sys2Proof.Machine.execStart r s
  | .restart r => Sys2Proof.Machine.execRestart r s
  | .status r => Sys2Proof.Machine.execStatus r s
  | .unknownRequest r kind => Sys2Proof.Machine.execUnknownRequest r kind s
  | .badFrame bytes => Sys2Proof.Machine.execBadFrame bytes s
  | .interByteTimeout bytes => Sys2Proof.Machine.execInterByteTimeout bytes s
  | .silenceExpiry => Sys2Proof.Machine.execSilenceExpiry s
  | .frameSent => Sys2Proof.Machine.execFrameSent s
  | .leaseExpiry h => Sys2Proof.Machine.execLeaseExpiry h s
  | .controlInterval a => Sys2Proof.Machine.execControlInterval a s
  | .settleDwellExpiry a => Sys2Proof.Machine.execSettleDwellExpiry a s
  | .gateTravelComplete => Sys2Proof.Machine.execGateTravelComplete s
  | .guardDwellExpiry h g => Sys2Proof.Machine.execGuardDwellExpiry h g s
  | .moduleStaleExpiry m => Sys2Proof.Machine.execModuleStaleExpiry m s
  | .depthStaleExpiry => Sys2Proof.Machine.execDepthStaleExpiry s
  | .directSample p currentUA speedMilli => Sys2Proof.Machine.execDirectSample p currentUA speedMilli s
  | .moduleReadingFrame bytes => Sys2Proof.Machine.execModuleReadingFrame bytes s
  | .channelFaultReport c k => Sys2Proof.Machine.execChannelFaultReport c k s

end Sys2Proof.Machine
end

