-- ==== Sys2Proof/Machine/Step.lean ====
section
/-! DEFINITION. One step of the part: the command at the front of the queue; on an empty queue a timer's expiry that is
due, or else one millisecond (log 1, 3, 20). Also `withFetchWord`. -/

namespace Sys2Proof.Machine

/-! ### One millisecond passes -/

def Lease.tick (l : Lease) : Lease := { l with remaining := l.remaining - 1 }

def Cond.tick : Cond → Cond
  | .timing n => .timing (n + 1)
  | c => c

/-- A lease runs in every state (R18); a guard's dwell in TIMING (R79). -/
def Order.tick (o : Order) : Order :=
  { o with
    lease := o.lease.map Lease.tick
    guards := o.guards.map fun e => { e with cond := e.cond.tick } }

def SlotState.tick (x : SlotState) : SlotState := { x with order := x.order.map Order.tick }

def Detector.tick : Detector → Detector
  | .timing n => .timing (n + 1)
  | d => d

def Lane.tick (l : Lane) : Lane := { l with interval := l.interval.map (· + 1), detector := l.detector.tick }

def Travel.tick : Travel → Travel
  | .running n => .running (n + 1)
  | t => t

def ModuleState.tick (x : ModuleState) : ModuleState := { x with stale := x.stale.map (· + 1) }

def tickReceiver : Receiver → Receiver
  | .collecting got gap => .collecting got (gap + 1)
  | .hunting => .hunting

/-- Every running timer advances by 1 ms. The fault-recovery timers of the direct points advance with the samples
(log 8). -/
def State.tick (s : State) : State :=
  { s with
    slots := s.slots.map SlotState.tick
    lanes := s.lanes.map Lane.tick
    travel := s.travel.tick
    modules := s.modules.map ModuleState.tick
    depth := { s.depth with stale := s.depth.stale.map (· + 1) }
    link := { s.link with silence := s.link.silence.map (· + 1) }
    rx := tickReceiver s.rx }

/-! ### What is due -/

/-- The receiver has waited 2 ms in the middle of a frame (R167). -/
def gapDue : Receiver → Bool
  | .collecting _ gap => 2 ≤ gap
  | .hunting => false

def Order.dueGuards (h : Handle) (o : Order) : List Instr :=
  [(0 : Fin 2), 1].filterMap fun g =>
    match o.guards[g.val]? with
    | some e => if e.dwellDue then some (.guardDwellExpiry h g) else none
    | none => none

def State.dueOfSlot (s : State) (i : Slot) : List Instr :=
  match s.orderAt i with
  | some o =>
    let h := s.handleAt i
    (if o.leaseOut then [.leaseExpiry h] else []) ++ o.dueGuards h
  | none => []

def State.settleDue (s : State) (a : Actuator) : Bool :=
  (s.lane a).state = .driven && (s.governing a).isSome && (s.lane a).dwellDue

def dueIf (b : Bool) (c : Instr) : List Instr := if b then [c] else []

/-- The events that are due and can act, the control intervals apart. -/
def State.dueEvents (s : State) : List Instr :=
  dueIf s.silenceDue .silenceExpiry
  ++ dueIf (gapDue s.rx) (.interByteTimeout [])
  ++ dueIf s.sending .frameSent
  ++ dueIf s.travelDue .gateTravelComplete
  ++ dueIf s.depth.staleDue .depthStaleExpiry
  ++ (allModules.filter fun m => (s.module m).staleDue).map .moduleStaleExpiry
  ++ (allActuators.filter fun a => s.settleDue a).map .settleDwellExpiry
  ++ allSlots.flatMap s.dueOfSlot

/-- The control intervals that are due, in ascending actuator order. -/
def State.dueIntervals (s : State) : List Instr :=
  (allActuators.filter fun a => (s.lane a).intervalDue).map .controlInterval

/-- The step on an empty queue (log 1). Where several events fall together the spec leaves the order open and a free
value picks; control intervals alone give the same whatever their order (log 3). -/
def idle (s : State) : Host.Outcome State Fault Refusal :=
  match s.dueEvents, s.dueIntervals with
  | [], [] => .next s.tick
  | [], c :: _ => exec c s
  | [c], [] => exec c s
  | c :: cs, ds =>
    let due := c :: cs ++ ds
    exec (due.getD (Config.freePick s.draws % due.length) c) { s with draws := s.draws + 1 }

/-- The command at the front of the queue, on the state with the queue's rest. -/
def step (s : State) : Host.Outcome State Fault Refusal :=
  match s.pending with
  | c :: rest => exec c { s with pending := rest }
  | [] => idle s

/-- The command a word spells, put at the front of the queue; no word spells one (`decodeTableWord`). -/
def State.withFetchWord (s : State) (nbits w : Nat) : State :=
  match decodeTableWord nbits w with
  | some c => { s with pending := c :: s.pending }
  | none => s

end Sys2Proof.Machine
end

