-- ==== Sys2Proof/Safety.lean ====
section
/-! DEFINITION. The laws of the part as properties of a state, the frames of its operations, and the words the
statements use for them. -/

namespace Sys2Proof.Machine

/-! ### The laws -/

/-- R180, with R31, R57, R60, R61 and R114 for what an OFF lane and a DORMANT plan hold. -/
structure SetupLaw (s : State) : Prop where
  noOrders : s.mode = .setup → ∀ i, s.orderAt i = none
  lanesOff : s.mode = .setup → ∀ a, (s.lane a).state = .off ∧ (s.lane a).gov = none ∧
    (s.lane a).command = none ∧ (s.lane a).interval = none ∧ (s.lane a).detector = .idle
  travelCleared : s.mode = .setup → s.travel = .cleared
  noOrderMode : s.mode = .setup → ∀ c, (s.chan c).mode ≠ .order
  dormant : s.mode = .setup → ∀ b e x, s.entry b e = some x → x.state = .dormant

/-- R36: at most one live order names a given actuator and class. -/
def PositionLaw (s : State) : Prop :=
  ∀ i j o p, s.orderAt i = some o → s.orderAt j = some p → o.cls = p.cls → o.actuator = p.actuator → i = j

/-- R30, R31, R36: what a lane names is live, of its actuator and in its position; its governing order alone is
GOVERNING; it is DRIVEN or HELD exactly when it has one; and in RUN no lane is OFF. -/
structure LaneLaw (s : State) : Prop where
  positions : ∀ a c h, (s.lane a).orderSet.get c = some h → ∃ o, s.order? h = some o ∧ o.actuator = a ∧ o.cls = c
  governs : ∀ a h, (s.lane a).gov = some h → ∃ o, s.order? h = some o ∧ o.actuator = a ∧ o.state = .governing
  alone : ∀ i o, s.orderAt i = some o → o.state = .governing → (s.lane o.actuator).gov = some (s.handleAt i)
  states : ∀ a, (s.lane a).gov.isSome = true ↔ ((s.lane a).state = .driven ∨ (s.lane a).state = .held)
  running : s.mode = .run → ∀ a, (s.lane a).state ≠ .off

/-- R38, what a resolution leaves: a PENDING order of an unmasked class finds a governing order on its lane, and does
not rank above it. -/
def Resolved (s : State) (a : Actuator) : Prop :=
  ∀ c h o, c ∈ (s.lane a).precedence → (c = .guard ∨ (s.lane a).mask.get c = false) →
    (s.lane a).orderSet.get c = some h → s.order? h = some o → o.state = .pending →
    ∃ k q, (s.lane a).gov = some k ∧ s.order? k = some q ∧
      ¬ (s.lane a).precedence.idxOf c < (s.lane a).precedence.idxOf q.cls

/-- R36 and R38: every live order stands in the position of its class on its lane, and every lane that takes part in
resolution is resolved. -/
structure RankLaw (s : State) : Prop where
  placed : ∀ i o, s.orderAt i = some o → (s.lane o.actuator).orderSet.get o.cls = some (s.handleAt i)
  resolved : ∀ a, (s.lane a).state ≠ .off → (s.lane a).state ≠ .down → Resolved s a

/-- R135: the kinds of the map's channels, and no channel assigned to two actuators. -/
structure MapLaw (s : State) : Prop where
  assignedKind : ∀ a c, (s.mapAt a).assigned = some c → kindsMatch a c = true
  spareKind : ∀ a c, (s.mapAt a).spare = some c → kindsMatch a c = true
  assignedOnce : ∀ a b c, (s.mapAt a).assigned = some c → (s.mapAt b).assigned = some c → a = b

/-- R34, R57 and R135: a DOWN actuator has no live orders and no command, and in RUN every other actuator has an OK
channel. -/
structure DriveLaw (s : State) : Prop where
  downStill : ∀ a, (s.lane a).state = .down → (s.lane a).command = none
  downEmpty : ∀ a, (s.lane a).state = .down → ∀ i o, s.orderAt i = some o → o.actuator ≠ a
  usable : s.mode = .run → ∀ a, (s.lane a).state ≠ .down →
    ∃ c, (s.mapAt a).assigned = some c ∧ (s.chan c).fault = none

/-- R133: every channel's output duty is the one its mode gives. -/
def OutputLaw (s : State) : Prop := ∀ c, (s.chan c).output = s.outputOf c

/-- R175: at most 16 notices wait. -/
def NoticeLaw (s : State) : Prop := s.noticeCount ≤ 16

/-- R113: entries of one bank that name one actuator have bands that do not overlap. -/
def BandLaw (s : State) : Prop :=
  ∀ b e e' x y, e ≠ e' → s.entry b e = some x → s.entry b e' = some y → x.actuator = y.actuator →
    bandsOverlap x.depthFrom x.depthTo y.depthFrom y.depthTo = false

/-- R69: the limits an actuator can have; the GATE's are 0 and 1. -/
def limitsAllowed (a : Actuator) (lo hi : Int) : Bool :=
  inRange (fullRange a) lo && inRange (fullRange a) hi && lo < hi &&
    !(kindOf a = .wheel && (0 < lo || hi < 0))

/-- R14, R155: an order and a template have at most two guards. -/
def GuardLaw (s : State) : Prop :=
  (∀ i o, s.orderAt i = some o → o.guards.length ≤ 2) ∧ ∀ x m, s.template x = some m → m.guards.length ≤ 2

/-- R1, R55, R66 and R69: limits stay allowed, every live order's target lies within them, every command lies within
them, and a wheel command within its creep limit while the interlock is engaged. -/
structure CommandLaw (s : State) : Prop where
  limits : ∀ a, limitsAllowed a (s.lane a).lo (s.lane a).hi = true
  creep : ∀ w, 0 ≤ (s.interlock w).creep
  targets : ∀ i o, s.orderAt i = some o → targetOk s o.actuator o.target = true
  commands : ∀ a v, (s.lane a).command = some v →
    toCommand a (s.lane a).lo ≤ v ∧ v ≤ toCommand a (s.lane a).hi
  clamped : ∀ a v, (s.lane a).command = some v → s.creepClamp a v = v

/-- R60: the GATE's command is its aim, the governing order's target in DRIVEN and 0 in REST. -/
structure GateLaw (s : State) : Prop where
  rest : (s.lane gate).state = .rest → (s.lane gate).command = some 0
  driven : ∀ h o, (s.lane gate).state = .driven → (s.lane gate).gov = some h → s.order? h = some o →
    (s.lane gate).command = some o.target

/-- R120, with R114 for the shadow bank: each LIVE entry of the active bank has its PLAN order and holds the depth, every
PLAN order names a LIVE entry of the active bank, and the entries of the shadow bank are DORMANT. -/
structure PlanLaw (s : State) : Prop where
  live : ∀ e x h, s.entry s.active e = some x → x.state = .live h → ∃ o, s.order? h = some o ∧ o.cls = .plan ∧
    o.actuator = x.actuator ∧ o.planEntry = some (s.active, e)
  named : ∀ i o, s.orderAt i = some o → o.cls = .plan ∨ o.planEntry ≠ none →
    ∃ e x, o.planEntry = some (s.active, e) ∧ s.entry s.active e = some x ∧ x.state = .live (s.handleAt i)
  inBand : ∀ e x h, s.entry s.active e = some x → x.state = .live h →
    ∃ d, s.depth.value = some d ∧ x.depthFrom ≤ d ∧ d < x.depthTo
  asleep : ∀ e x, s.entry s.shadow e = some x → x.state = .dormant

/-- R159: a binding names a filled template of its actuator. -/
def BindLaw (s : State) : Prop :=
  ∀ w a x, s.binding w a = some x → ∃ m, s.template x = some m ∧ m.actuator = a

/-! ### Frames: what an operation leaves as it was -/

/-- A live order of `t` was live in `s` under the same handle, with its fixed fields, target, ramp and lease. -/
def Order.kept (o p : Order) : Prop :=
  p.cls = o.cls ∧ p.actuator = o.actuator ∧ p.target = o.target ∧ p.ramp = o.ramp ∧
    p.completion = o.completion ∧ p.prereq = o.prereq ∧ p.lease = o.lease ∧ p.tethered = o.tethered ∧
    p.planEntry = o.planEntry ∧ p.template = o.template ∧
    p.guards.map (·.guard) = o.guards.map (·.guard)

/-- What of a lane only its own requests and its timer change (R30, R57, R69, R70). -/
def Lane.settingsKept (l m : Lane) : Prop :=
  m.precedence = l.precedence ∧ m.mask = l.mask ∧ m.yield = l.yield ∧ m.interval = l.interval ∧
    m.lo = l.lo ∧ m.hi = l.hi ∧ m.band = l.band ∧ m.dwell = l.dwell

/-- What of a channel the lanes never change: all but the output (R133). -/
def ChanState.settingsKept (x y : ChanState) : Prop :=
  y.fault = x.fault ∧ y.mode = x.mode ∧ y.localDuty = x.localDuty

/-- The fields of an entry slot (R111), its state apart. -/
def PlanEntry.fields (x : PlanEntry) : Int × Int × Actuator × Int × Option Nat :=
  (x.depthFrom, x.depthTo, x.actuator, x.target, x.ramp)

/-- The blocks that orders, lanes and guards never write. -/
structure BlocksKept (s t : State) : Prop where
  mode : t.mode = s.mode
  travelLimit : t.travelLimit = s.travelLimit
  direct : t.direct = s.direct
  modules : t.modules = s.modules
  modValues : t.modValues = s.modValues
  depth : t.depth = s.depth
  drift : t.drift = s.drift
  active : t.active = s.active
  map : t.map = s.map
  cals : t.cals = s.cals
  templates : t.templates = s.templates
  fallback : t.fallback = s.fallback
  halt : t.halt = s.halt
  link : t.link = s.link
  rx : t.rx = s.rx
  pair : t.pair = s.pair
  finishing : t.finishing = s.finishing
  collided : t.collided = s.collided
  line : t.line = s.line
  pending : t.pending = s.pending

/-- The tables orders share with the rest: lane settings, channels but for outputs, entries but for states, and a
transmit queue that only grows, by notices. -/
structure TablesKept (s t : State) : Prop where
  lanes : ∀ a, (s.lane a).settingsKept (t.lane a)
  chans : ∀ c, (s.chan c).settingsKept (t.chan c)
  entries : ∀ b e, (t.entry b e).map PlanEntry.fields = (s.entry b e).map PlanEntry.fields
  queue : ∃ ns, t.txQueue = s.txQueue ++ ns ∧ ∀ f ∈ ns, f.isNotice = true
  lost : s.noticesLost = true → t.noticesLost = true

/-- No order is created, and those that stay keep their fields. -/
def OrdersKept (s t : State) : Prop :=
  ∀ i p, t.orderAt i = some p → ∃ o, s.orderAt i = some o ∧ o.kept p ∧ (t.slot i).gen = (s.slot i).gen

/-- The frame of a retirement, a settle, a resolution or a guard's action (R7, R38, R64, R78). A free slot keeps its
generation (R3). -/
structure EngineFrame (s t : State) : Prop where
  blocks : BlocksKept s t
  interlocks : t.interlocks = s.interlocks
  tables : TablesKept s t
  orders : OrdersKept s t
  free : ∀ i, s.orderAt i = none → t.slot i = s.slot i

/-- The frame of a reading handed to its users: as the engine's, but the interlock flags may be evaluated anew
(R66, R91). -/
structure ReadingFrame (s t : State) : Prop where
  blocks : BlocksKept s t
  interlocks : ∀ w, (t.interlock w).pumpMin = (s.interlock w).pumpMin ∧
    (t.interlock w).flowMin = (s.interlock w).flowMin ∧ (t.interlock w).creep = (s.interlock w).creep
  tables : TablesKept s t
  orders : OrdersKept s t
  free : ∀ i, s.orderAt i = none → t.slot i = s.slot i

/-- The orders after a placement: those kept, and the new one in slot `i`. -/
def OrdersPlaced (s t : State) (i : Slot) (o : Order) : Prop :=
  ∀ j p, t.orderAt j = some p →
    (∃ q, s.orderAt j = some q ∧ q.kept p ∧ (t.slot j).gen = (s.slot j).gen) ∨ (j = i ∧ o.kept p)

/-- The frame of a placement of the order `o` in slot `i` (R10). A slot free before and not taken keeps its
generation (R3). -/
structure PlaceFrame (s t : State) (i : Slot) (o : Order) : Prop where
  blocks : BlocksKept s t
  interlocks : t.interlocks = s.interlocks
  tables : TablesKept s t
  orders : OrdersPlaced s t i o
  free : ∀ j, j ≠ i → s.orderAt j = none → t.slot j = s.slot j

/-- The live orders of the slots that `gone` leaves out are live still, under their handles, with their fields. -/
def OrdersStay (s t : State) (gone : Slot → Bool) : Prop :=
  ∀ j o, gone j = false → s.orderAt j = some o →
    ∃ p, t.orderAt j = some p ∧ o.kept p ∧ (t.slot j).gen = (s.slot j).gen

/-- Whatever settles on the GATE, no order ends by it and none is released: its travel timer is not complete, or its
orders are STANDING with nothing waiting on them (R63, R64). -/
def gateQuiet (s : State) : Prop :=
  s.travel ≠ .complete ∨ ∀ j p, s.orderAt j = some p → p.actuator = gate →
    p.completion = .standing ∧ ∀ k, s.waitsOn k (s.handleAt j) = false

/-- The order in slot `i` goes with the order `h`: it is that order, or it is WAITING on it directly or through a chain
of WAITING orders (R8, R12). -/
def State.goesWith (s : State) (h : Handle) (i : Slot) : Bool := i = h.slot || s.waitsThrough 40 (s.handleAt i) h

/-! ### Requests -/

/-- The requests taken in RUN only, and in SETUP only (R181). -/
def runOnly : Instr → Bool
  | .place _ | .issue _ | .amend _ | .renew _ | .withdraw _ | .lowest _ | .mask _ | .unmask _ | .yield _
  | .halt _ | .restart _ => true
  | _ => false

def setupOnly : Instr → Bool
  | .setLimits _ | .setSettle _ | .setInterlock _ | .setModule _ | .setDepthStale _ | .setCalibration _
  | .setLink _ | .start _ => true
  | _ => false

/-- The requests admitted from OPERATOR alone, and those admitted from OPERATOR and VERTICALITY. -/
def operatorOnly : Instr → Bool
  | .lowest _ | .mask _ | .unmask _ | .yield _ | .setLimits _ | .setSettle _ | .setInterlock _ | .depth _
  | .setModule _ | .setDepthStale _ | .mapActuator _ | .spare _ | .freezeMap _ | .thaw _ | .clearFault _
  | .setLocal _ | .forceLocal _ | .restore _ | .setCalibration _ | .putTemplate _ | .setFallback _
  | .setHalt _ | .halt _ | .setLink _ | .start _ | .restart _ => true
  | _ => false

def plannersOnly : Instr → Bool
  | .setDrift _ | .putEntry _ | .dropEntry _ | .clearShadow _ | .readEntry _ | .swap _ => true
  | _ => false

/-- The request frame a command carries, with the code of its kind (R187). -/
def frameOf : Instr → Option (Req × Byte)
  | .place r => some (r, 0x10) | .issue r => some (r, 0x11) | .amend r => some (r, 0x12)
  | .renew r => some (r, 0x13) | .withdraw r => some (r, 0x14) | .query r => some (r, 0x15)
  | .list r => some (r, 0x16)
  | .lowest r => some (r, 0x20) | .mask r => some (r, 0x21) | .unmask r => some (r, 0x22)
  | .yield r => some (r, 0x23) | .view r => some (r, 0x24) | .setLimits r => some (r, 0x25)
  | .setSettle r => some (r, 0x26) | .setInterlock r => some (r, 0x27)
  | .depth r => some (r, 0x30) | .setDrift r => some (r, 0x31) | .readPoints r => some (r, 0x32)
  | .setModule r => some (r, 0x33) | .setDepthStale r => some (r, 0x34)
  | .putEntry r => some (r, 0x40) | .dropEntry r => some (r, 0x41) | .clearShadow r => some (r, 0x42)
  | .readEntry r => some (r, 0x43) | .swap r => some (r, 0x44)
  | .mapActuator r => some (r, 0x50) | .spare r => some (r, 0x51) | .freezeMap r => some (r, 0x52)
  | .thaw r => some (r, 0x53) | .clearFault r => some (r, 0x54) | .setLocal r => some (r, 0x55)
  | .forceLocal r => some (r, 0x56) | .restore r => some (r, 0x57) | .readChannel r => some (r, 0x58)
  | .setCalibration r => some (r, 0x59)
  | .putTemplate r => some (r, 0x60) | .readTemplate r => some (r, 0x61) | .setFallback r => some (r, 0x62)
  | .setHalt r => some (r, 0x63) | .halt r => some (r, 0x64)
  | .setLink r => some (r, 0x70) | .start r => some (r, 0x71) | .restart r => some (r, 0x72)
  | .status r => some (r, 0x73)
  | .unknownRequest r k => if namesRequest k then none else some (r, k)
  | .powerOn | .badFrame _ | .interByteTimeout _ | .silenceExpiry | .frameSent | .leaseExpiry _
  | .controlInterval _ | .settleDwellExpiry _ | .gateTravelComplete | .guardDwellExpiry _ _
  | .moduleStaleExpiry _ | .depthStaleExpiry | .directSample _ _ _ | .moduleReadingFrame _
  | .channelFaultReport _ _ => none

/-- What a valid frame does before its request is looked at (R168): the receiver has it whole, the link is UP with its
silence timer at zero and no bad frames counted. -/
def received (s : State) : State :=
  { s with
    link := { s.link with state := .up, silence := some 0, badCount := 0 }
    rx := .hunting
    finishing := false
    collided := false }

/-- The answer joins the queue, and the part holds the pair for it (R169, R176). -/
def answered (kind : Byte) (r : Req) (code : Code) (body : List Byte) (t : State) : State :=
  { t with
    txQueue := t.txQueue ++ [.answer r.origin r.tag kind code body]
    pair := .heldForAnswer }

/-! ### Bodies of requests as a requester lays them out (R189, R190) -/

def guardBytes (g : GuardForm) : List Byte :=
  putByte g.point ++ putByte g.relation.code ++ putS16 g.threshold ++ putByte g.action.code ++ putU16 g.dwell

def handleBytes (h : HandleForm) : List Byte := putByte h.slot ++ [h.gen]

def placeBody (f : PlaceForm) : List Byte :=
  putByte f.actuator ++ putS16 f.target ++ putU16 f.ramp ++ putByte f.completion.code ++ handleBytes f.prereq
  ++ putU16 f.lease ++ putFlag f.tethered ++ putByte f.guards.length ++ f.guards.flatMap guardBytes

/-- A signed two-byte field can hold it. -/
def fits16 (i : Int) : Prop := -32768 ≤ i ∧ i < 32768

/-- The values the fields of a guard record and of a PLACE body can hold. -/
def guardFits (g : GuardForm) : Prop := g.point < 256 ∧ fits16 g.threshold ∧ g.dwell < 65536

def placeFits (f : PlaceForm) : Prop :=
  f.actuator < 256 ∧ fits16 f.target ∧ f.ramp < 65536 ∧ f.prereq.slot < 256 ∧ f.lease < 65536 ∧
    f.guards.length ≤ 2 ∧ ∀ g ∈ f.guards, guardFits g

/-- An optional two-byte item behind its presence byte (R187). -/
def optU16 : Option Nat → List Byte
  | some n => 1 :: putU16 n
  | none => [0, 0, 0]

def issueBody (f : IssueForm) : List Byte :=
  putByte f.index ++ putFlag f.target.isSome ++ putS16 (f.target.getD 0) ++ handleBytes f.prereq

def amendBody (f : AmendForm) : List Byte :=
  handleBytes f.handle
  ++ putByte ((if f.target.isSome then 1 else 0) + (if f.ramp.isSome then 2 else 0) + (if f.lease.isSome then 4 else 0))
  ++ putS16 (f.target.getD 0) ++ putU16 (f.ramp.getD 0) ++ putU16 (f.lease.getD 0)

def amendFits (f : AmendForm) : Prop :=
  f.handle.slot < 256 ∧ fits16 (f.target.getD 0) ∧ f.ramp.getD 0 < 65536 ∧ f.lease.getD 0 < 65536 ∧
    (f.target.isSome ∨ f.ramp.isSome ∨ f.lease.isSome)

/-- The fields of a guard as a request carries them, and the values R14 admits. -/
def guardForm (g : Guard) : GuardForm := ⟨g.point.val, g.relation, g.threshold, g.action, g.dwell⟩

def guardAllowed (g : Guard) : Prop :=
  inRange (pointRange g.point) g.threshold = true ∧ g.dwell % 100 = 0 ∧ g.dwell ≤ 10000

/-- An optional prerequisite as a request carries it (R189). -/
def prereqForm : Option Handle → HandleForm
  | some q => ⟨q.slot.val, q.gen⟩
  | none => ⟨255, 0xFF⟩

/-- No handle, in a body (R189). -/
def noHandle : List Byte := [0xFF, 0xFF]

/-! ### Readings of the rules the statements are written in -/

/-- The list R44 gives for the class named. -/
def lowestList (a : Actuator) (c : Cls) : List Cls :=
  if a.val < 10 then
    match c with
    | .operator => [.guard, .verticality, .plan, .operator]
    | .verticality => [.guard, .plan, .operator, .verticality]
    | .plan | .plant | .guard => [.guard, .operator, .verticality, .plan]
  else
    match c with
    | .operator => [.guard, .plant, .operator]
    | .plant | .verticality | .plan | .guard => [.guard, .operator, .plant]

/-- A point is not VALID, or is below the minimum (R66). -/
def shortOf (s : State) (p : Point) (minimum : Int) : Prop :=
  ¬ (s.pointStatus p = .valid ∧ ∃ v, s.pointValue p = some v ∧ minimum ≤ v)

/-- The flag of R66. -/
def interlockDue (s : State) (x : Interlock) : Prop :=
  shortOf s 10 x.pumpMin ∨ (x.flowMin ≠ 0 ∧ shortOf s 13 x.flowMin)

/-- An aim clamped to the creep limit of an engaged wheel lane (R68), in fiftieths. -/
def clampedAim (s : State) (a : Actuator) (raw g : Int) : Prop :=
  if h : a.val < 2 then
    let x := s.interlock ⟨a.val, h⟩
    if x.engaged = true then
      (50 * x.creep < raw ∧ g = 50 * x.creep) ∨ (raw < -(50 * x.creep) ∧ g = -(50 * x.creep)) ∨
        (-(50 * x.creep) ≤ raw ∧ raw ≤ 50 * x.creep ∧ g = raw)
    else g = raw
  else g = raw

/-- The aim and the rate of a proportional lane (R56, R68): in REST the rest value, or the raised lower limit, at the
default ramp; in DRIVEN the governing order's target at its ramp or the default. -/
def aimIs (s : State) (a : Actuator) (g : Int) (rate : Nat) : Prop :=
  ((s.lane a).state = .rest ∧ clampedAim s a (50 * max 0 (s.lane a).lo) g ∧ rate = defaultRamp a) ∨
  ((s.lane a).state = .driven ∧ ∃ h o, (s.lane a).gov = some h ∧ s.order? h = some o ∧
    clampedAim s a (50 * o.target) g ∧ rate = o.ramp.getD (defaultRamp a))

/-- The command a lane enters REST with (R59); the rest aim where the feedback point gives no VALID value. -/
def startValue (s : State) (a : Actuator) (v : Int) : Prop :=
  if a = gate then v = 0
  else ∃ p, feedback a = some p ∧
    ((∃ f, s.pointStatus p = .valid ∧ s.pointValue p = some f ∧
        clampedAim s a (50 * max (s.lane a).lo (min (s.lane a).hi f)) v) ∨
      ((s.pointStatus p ≠ .valid ∨ s.pointValue p = none) ∧ clampedAim s a (50 * max 0 (s.lane a).lo) v))

/-- A guard's relation is met by its point, which is VALID (R73, R75). -/
def guardMet (s : State) (g : Guard) : Prop :=
  s.pointStatus g.point = .valid ∧ ∃ v, s.pointValue g.point = some v ∧
    match g.relation with
    | .requireAbove => g.threshold < v
    | .requireBelow => v < g.threshold

/-- The condition a guard takes when its order becomes PENDING (R77). -/
def armedAs (s : State) (g : Guard) (c : Cond) : Prop :=
  (guardMet s g ∧ c = .satisfied) ∨ (¬ guardMet s g ∧ 0 < g.dwell ∧ c = .timing 0) ∨
    (¬ guardMet s g ∧ g.dwell = 0 ∧ g.action = .freeze ∧ c = .active)

/-- A guard that retires its order as soon as it is armed (R77, R80). -/
def tripsAtOnce (s : State) (g : Guard) : Prop := ¬ guardMet s g ∧ g.dwell = 0 ∧ g.action = .retire

/-- A prerequisite, if any, is GOVERNING and settled, so the order starts PENDING (R13). -/
def prereqReady (s : State) (pre : Option Handle) : Prop :=
  ∀ q d, pre = some q → s.order? q = some d → d.state = .governing ∧ d.settled = true

/-- A notice is the first frame that an operation on `s` queued, when `s` had room for it (R9, R175). -/
def firstNotice (s t : State) (o : Origin) (n : Notice) : Prop :=
  s.noticeCount < 16 → ∃ ns, t.txQueue = s.txQueue ++ .notice o n :: ns

/-- The order an internal issue makes from a template (R154, R161). -/
def issuedFrom (p : Order) (a : Actuator) (x : TemplateIx) (m : Template) : Prop :=
  (p.state = .pending ∨ p.state = .governing) ∧ p.cls = .guard ∧ p.actuator = a ∧ p.target = m.target ∧
    p.ramp = m.ramp ∧ p.completion = m.completion ∧ p.prereq = none ∧ p.guards = [] ∧
    p.lease = m.lease.map (fun n => ⟨n, 1000 * n⟩) ∧ p.tethered = false ∧ p.planEntry = none ∧ p.template = some x

/-- What the loss of the link in RUN leaves (R173), from the state `lost`, whose link has entered LOST: the tethered
orders gone, and the fallback set issued, said of one actuator bound. -/
def LinkLossRuns (lost t : State) : Prop :=
  BlocksKept lost t ∧ t.interlocks = lost.interlocks ∧
    (∀ i o, t.orderAt i = some o → o.tethered = false) ∧
    (∀ i o, lost.orderAt i = some o → o.tethered = true →
      (∀ j p, j < i → lost.orderAt j = some p → p.tethered = false) →
      firstNotice lost t (addressee o.cls) (.retired (lost.handleAt i) o.actuator .linkLost)) ∧
    ((∀ a, lost.binding .fallback a = none) →
      (∀ i o, lost.orderAt i = some o → o.tethered = true → t.slot i = ⟨(lost.slot i).gen + 1, none⟩) ∧
      ((∀ i o, lost.orderAt i = some o → o.tethered = false) → t = lost)) ∧
    (∀ a x m, (∀ i o, lost.orderAt i = some o → o.tethered = false) → lost.binding .fallback a = some x →
      (∀ b, b ≠ a → lost.binding .fallback b = none) → lost.template x = some m → m.actuator = a →
      let fits := inRange ((lost.lane a).lo, (lost.lane a).hi) m.target
      ((lost.lane a).state = .down → t = lost) ∧
      (∀ c, (lost.lane a).state ≠ .down → (fits = false ∨ (lost.freeSlot? = none ∧ lost.findOrder a .guard = none)) →
        (lost.mapAt a).assigned = some c →
        t = queueNotice .operator (.forcedLocal a (some c))
          (lost.setChan c { lost.chan c with mode := .localDuty, output := (lost.chan c).localDuty })) ∧
      (∀ i, (lost.lane a).state ≠ .down → fits = true → lost.findOrder a .guard = none → lost.freeSlot? = some i →
        m.guards = [] → (a = gate → m.completion = .standing) → LaneLaw lost →
        ∃ p, t.order? (lost.handleAt i) = some p ∧ issuedFrom p a x m ∧ PlaceFrame lost t i p))

/-- The order under `q` is WAITING on `h`, directly or through a chain of WAITING orders (R12). -/
inductive WaitsBehind (s : State) (h : Handle) : Handle → Prop
  | direct {q o} : s.order? q = some o → o.state = .waiting → o.prereq = some h → WaitsBehind s h q
  | through {q o r} : s.order? q = some o → o.state = .waiting → o.prereq = some r → WaitsBehind s h r →
      WaitsBehind s h q

/-- The four tests of R12 for a prerequisite of an order of class `c` on `a`: it is live, of another actuator, not the
order to be superseded, and not one of that order's cascade. -/
def PrereqAccepted (s : State) (a : Actuator) (c : Cls) (q : Handle) : Prop :=
  (∃ o, s.order? q = some o ∧ o.actuator ≠ a) ∧
    ∀ i, s.findOrder a c = some i → s.handleAt i ≠ q ∧ ¬ WaitsBehind s (s.handleAt i) q

/-- What the accepted request `c` does to place the order it records as `fresh`, WAITING with its guards INERT (R10,
R157). Without an order to supersede it takes the lowest free slot: it starts PENDING with its guards armed (R13, R77);
or a guard trips as it is armed, and it has retired (R77, R80); or it starts WAITING, and is recorded and no more. With
one, without prerequisite and guards, that order and all that wait on it retire first (R11), and the lowest slot free
then is taken. -/
def PlacementRuns (c : Instr) (kind : Byte) (r : Req) (fresh : Order) (s : State) : Prop :=
  let a := fresh.actuator
  let answer := fun (h : Handle) (state : Nat) (old : Option Handle) (t : State) =>
    answered kind r .done (putHandle (some h) ++ putByte state ++ putHandle old) t
  (∀ i, s.findOrder a fresh.cls = none → s.freeSlot? = some i →
    let h := s.handleAt i
    (prereqReady s fresh.prereq → (∀ e ∈ fresh.guards, ¬ tripsAtOnce s e.guard) →
      ∃ t p, exec c s = .next (answer h p.state.code none t) ∧
        t.order? h = some p ∧ (p.state = .pending ∨ p.state = .governing) ∧ fresh.kept p ∧
        (∀ e ∈ p.guards, armedAs s e.guard e.cond) ∧ (t.lane a).orderSet.get fresh.cls = some h ∧
        PlaceFrame (received s) t i p ∧
        (s.gateSettles = none → (a = gate → gateQuiet s ∧ ∀ k, s.waitsOn k h = false) → OrdersStay s t fun _ => false)) ∧
    (prereqReady s fresh.prereq → (∃ e ∈ fresh.guards, tripsAtOnce s e.guard) →
      ∃ t, exec c s = .next (answer h 0 none t) ∧ t.slot i = ⟨h.gen + 1, none⟩ ∧
        firstNotice s t (addressee fresh.cls) (.retired h a .guardTrip) ∧ PlaceFrame (received s) t i fresh) ∧
    (¬ prereqReady s fresh.prereq → s.gateSettles = none →
      exec c s = .next (answer h 1 none (((received s).setSlot i ⟨h.gen, some fresh⟩).updLane a fun l =>
        { l with orderSet := l.orderSet.set fresh.cls (some h) })))) ∧
  (∀ i j old, s.findOrder a fresh.cls = some j → s.orderAt j = some old → fresh.prereq = none → fresh.guards = [] →
    (s.orderAt i = none ∨ s.goesWith (s.handleAt j) i = true) →
    (∀ k, k < i → s.orderAt k ≠ none ∧ s.goesWith (s.handleAt j) k = false) →
    let h : Handle := ⟨i, if s.orderAt i = none then (s.slot i).gen else (s.slot i).gen + 1⟩
    ∃ t p, exec c s = .next (answer h p.state.code (some (s.handleAt j)) t) ∧
      t.order? h = some p ∧ (p.state = .pending ∨ p.state = .governing) ∧ fresh.kept p ∧
      (t.lane a).orderSet.get fresh.cls = some h ∧
      (∀ k, k ≠ i → s.goesWith (s.handleAt j) k = true → t.slot k = ⟨(s.slot k).gen + 1, none⟩) ∧
      firstNotice s t (addressee old.cls) (.retired (s.handleAt j) a .superseded) ∧
      PlaceFrame (received s) t i p ∧
      (s.gateSettles = none → (a = gate → gateQuiet s ∧ ∀ k, s.waitsOn k h = false) →
        OrdersStay s t (s.goesWith (s.handleAt j))) ∧
      ((∀ d, d ≠ fresh.cls → (s.lane a).orderSet.get d = none) →
        (∀ k, (s.lane a).gov = some k → k = s.handleAt j) → fresh.cls ∈ (s.lane a).precedence →
        (s.lane a).mask.get fresh.cls = false → s.gateSettles = none →
        (a ≠ gate → p.state = .governing ∧ (t.lane a).state = .driven ∧ (t.lane a).gov = some h ∧
          (t.lane a).command = (s.lane a).command ∧ (t.lane a).detector = .idle) ∧
        (a = gate → (∀ k, s.waitsOn k h = false) → p.state = .governing ∧ (t.lane a).state = .driven ∧
          (t.lane a).gov = some h ∧ (t.lane a).command = some p.target ∧
          t.travel = if (s.lane a).command = some p.target then s.travel else .running 0)))

/-- One evaluation of guard `g` of the order `o` under `h`, its entry `e` found violated or not, and its action where
one is due at once: the table of R78 with R80, R81 and R82. -/
def GuardEvaluated (u : State) (h : Handle) (g : Fin 2) (o : Order) (e : GuardEntry) (bad : Prop) (t : State) : Prop :=
  let put := fun c => ({ o with guards := o.guards.set g.val { e with cond := c } } : Order)
  let write := fun q : Order => u.setSlot h.slot ⟨h.gen, some q⟩
  let l := u.lane o.actuator
  ((bad → e.cond ≠ .satisfied) → (¬ bad → e.cond = .inert ∨ e.cond = .satisfied) → t = u) ∧
  (bad → e.cond = .satisfied → 0 < e.guard.dwell → t = write (put (.timing 0))) ∧
  (bad → e.cond = .satisfied → e.guard.dwell = 0 → e.guard.action = .retire →
    t.slot h.slot = ⟨h.gen + 1, none⟩ ∧
      firstNotice u t (addressee o.cls) (.retired h o.actuator .guardTrip) ∧ EngineFrame u t) ∧
  (bad → e.cond = .satisfied → e.guard.dwell = 0 → e.guard.action = .freeze →
    (o.state ≠ .governing → t = write (put .active)) ∧
    (o.state = .governing → l.gov = some h →
      t = (write { put .active with settled := false }).updLane o.actuator fun l =>
        { l with state := .held, guardHold := true, maskHold := l.masked o.cls, detector := .idle })) ∧
  (¬ bad → (∃ n, e.cond = .timing n) → t = write (put .satisfied)) ∧
  (¬ bad → e.cond = .active → o.state ≠ .governing → t = write (put .satisfied)) ∧
  (¬ bad → e.cond = .active → o.state = .governing → l.gov = some h → u.gateSettles = none →
    (l.masked o.cls = true ∨ (put .satisfied).frozen = true →
      t = (write { put .satisfied with settled := false }).updLane o.actuator fun l =>
        { l with
          state := .held, guardHold := (put .satisfied).frozen, maskHold := l.masked o.cls, detector := .idle }) ∧
    (l.masked o.cls = false → (put .satisfied).frozen = false →
      (o.actuator ≠ gate →
        t = (write (put .satisfied)).updLane o.actuator fun l =>
          { l with state := .driven, guardHold := false, maskHold := false }) ∧
      (o.actuator = gate → u.travel ≠ .complete →
        (t.lane gate).state = .driven ∧ (t.lane gate).command = some o.target)))

/-- A value that violates a guard (R73, R75). -/
def violates (g : Guard) (v : Int) : Prop :=
  match g.relation with
  | .requireAbove => v ≤ g.threshold
  | .requireBelow => g.threshold ≤ v

/-- The guard `g` of the order `o` under `h` watches one of the points, and no other guard of a live order does; orders
and lanes agree. -/
structure SoleGuard (s : State) (ps : List Point) (h : Handle) (g : Fin 2) (o : Order) (e : GuardEntry) : Prop where
  live : s.order? h = some o
  entry : o.guards[g.val]? = some e
  watches : e.guard.point ∈ ps
  sole : ∀ i q j e', s.orderAt i = some q → q.guards[j]? = some e' → e'.guard.point ∈ ps → i = h.slot ∧ j = g.val
  few : GuardLaw s
  lanes : LaneLaw s

/-- The interlock flags are what the points as they stand make them (R66). -/
def interlocksStand (s : State) : Prop := ∀ w, (s.interlock w).engaged = true ↔ interlockDue s (s.interlock w)

/-- The interlock is engaged, and a command beyond the creep limit has been cut to it (R67). -/
def engagedAndCut (s t : State) (w : Fin 2) : Prop :=
  let limit := 50 * (s.interlock w).creep
  (t.interlock w).engaged = true ∧
    ((s.lane (wheelActuator w)).command = none → (t.lane (wheelActuator w)).command = none) ∧
    ∀ c, (s.lane (wheelActuator w)).command = some c →
      (t.lane (wheelActuator w)).command = some (max (-limit) (min limit c))

/-- The interlock is released and the command stands (R68). -/
def releasedInPlace (s t : State) (w : Fin 2) : Prop :=
  (t.interlock w).engaged = false ∧ (t.lane (wheelActuator w)).command = (s.lane (wheelActuator w)).command

/-- START takes the lane of `a` to REST with its initial command, and its channel `c`, in the mode and with the local
duty of `x`, to ORDER unless it is in LOCAL (R140, R182). -/
def startedOn (s t : State) (a : Actuator) (c : Chan) (x : ChanState) : Prop :=
  ∃ v, startValue t a v ∧
    t.lane a = { s.lane a with
      state := .rest, gov := none, maskHold := false, guardHold := false
      command := some v, interval := some 0, detector := .idle } ∧
    t.chan c = if x.mode = .localDuty then x else { x with mode := .order, output := s.dutyOf a v }

/-- START leaves orders and banks as they were, the transmit queue but for the notices `ns`, and the
other blocks (R182). -/
def startFrame (s t : State) (ns : List Notice) : Prop :=
  t.slots = s.slots ∧ t.banks = s.banks ∧
    (s.noticeCount + ns.length ≤ 16 →
      t.txQueue = s.txQueue ++ ns.map (TxFrame.notice .operator) ∧ t.noticesLost = s.noticesLost) ∧
    (∀ w, ∃ flag, t.interlock w = { s.interlock w with engaged := flag } ∧
      (flag = true ↔ interlockDue s (s.interlock w))) ∧
    BlocksKept { received s with mode := .run, map := t.map } t

/-- The bytes end with the last byte of a bad frame: one that fails R166, or one that began while the part was sending
(R176). -/
def endsBad (s : State) (bytes : List Byte) : Prop :=
  ∃ before b got gap, bytes = before ++ [b] ∧ receive s.rx before = .more (.collecting got gap) ∧
    (rxByte (.collecting got gap) b = .bad ∨
      ((∃ r k, rxByte (.collecting got gap) b = .valid r k) ∧
        ((s.rx = .hunting ∧ s.sending = true) ∨ (s.rx ≠ .hunting ∧ s.collided = true))))

/-- A command that brings one bad frame, complete or cut short (R167). -/
def bringsBadFrame (s : State) (c : Instr) : Prop :=
  ∃ bytes, (c = .badFrame bytes ∧ endsBad s bytes) ∨
    (c = .interByteTimeout bytes ∧ ∃ got gap, receive s.rx bytes = .more (.collecting got gap))

/-- The bytes hold no valid frame (R166, R167). -/
def noRequestIn : Receiver → List Byte → Prop
  | _, [] => True
  | r, b :: bs =>
    match rxByte r b with
    | .more r' => noRequestIn r' bs
    | .bad => noRequestIn .hunting bs
    | .valid _ _ => False

/-- A command in whole units: the nearest, halves away from zero; the GATE's as it is (R55). -/
def wholeUnits (a : Actuator) (c n : Int) : Prop :=
  if a = gate then n = c
  else (0 ≤ c → 50 * n - 25 ≤ c ∧ c < 50 * n + 25) ∧ (c < 0 → 50 * n - 25 < c ∧ c ≤ 50 * n + 25)

/-- `d` ‰ is the duty of the command `c` on the straight line through the calibration points at the ends of the full
range, to the nearest ‰, halves up (R134). -/
def calibratedDuty (a : Actuator) (low high : Nat) (c : Int) (d : Nat) : Prop :=
  let lo := (fullRange a).1
  let span := 50 * ((fullRange a).2 - lo)
  let line := low * span + ((high : Int) - low) * (c - 50 * lo)
  span * (2 * d - 1) ≤ 2 * line ∧ 2 * line < span * (2 * d + 1)

/-- A sample inside the live range of its input whose value is `v`, no tie in the rounding (R92, R93). -/
def liveSample (p : DirectPoint) (current : Nat) (speed v : Int) : Prop :=
  if p.val < 2 then
    2000 ≤ current ∧ current ≤ 20000 ∧ -400000 ≤ speed ∧ speed ≤ 400000 ∧ (2 * (speed - 1000 * v)).natAbs < 1000
  else if p.val = 10 then
    2000 ≤ current ∧ current ≤ 20000 ∧ 0 ≤ speed ∧ speed ≤ 2000000 ∧ (2 * (speed - 1000 * v)).natAbs < 1000
  else
    (3800 ≤ current ∧ current < 4000 ∧ v = 0) ∨ (20000 < current ∧ current ≤ 20500 ∧ v = 220) ∨
      (4000 ≤ current ∧ current ≤ 20000 ∧ (2 * (220 * ((current : Int) - 4000) - 16000 * v)).natAbs < 16000)

/-- A sample outside the live range of its input (R93). -/
def deadSample (p : DirectPoint) (current : Nat) (speed : Int) : Prop :=
  if p.val < 2 then current < 2000 ∨ 20000 < current ∨ 400000 < speed.natAbs
  else if p.val = 10 then current < 2000 ∨ 20000 < current ∨ 2000000 < speed
  else current < 3800 ∨ 20500 < current

/-- The newest frame of the queue is the notice, or the share of notices is full and the flag set (R175). -/
def newestNotice (t : State) (o : Origin) (n : Notice) : Prop :=
  (∃ q, t.txQueue = q ++ [.notice o n]) ∨ (16 ≤ t.noticeCount ∧ t.noticesLost = true)

/-- A reading frame of a module with its readings (R192). -/
def moduleFrame (m : Module) (vs : List Int) : List Byte :=
  let b := putByte (m.code + 1) ++ vs.flatMap putS16
  b ++ putCrc b

/-- As many readings as the module sends, each in its point's range (R89, R95). -/
def readingsOf (m : Module) (vs : List Int) : Prop :=
  vs.length = (moduleValues m).length ∧
    ∀ k (h : k < vs.length) (h' : k < (moduleValues m).length),
      inRange (pointRange (valuePoint (moduleValues m)[k])) vs[k] = true

/-- One axis of a drift step (R106). -/
def axisStep (change inclination v rem v' rem' : Int) : Prop :=
  let sum := change * inclination + rem
  let q := v + sum.tdiv 1000
  (32767 < q ∧ v' = 32767 ∧ rem' = 0) ∨ (q < -32767 ∧ v' = -32767 ∧ rem' = 0) ∨
    (-32767 ≤ q ∧ q ≤ 32767 ∧ v' = q ∧ rem' = sum.tmod 1000)

/-- A template PUT TEMPLATE accepts (R155), its use apart. -/
def templateFits (s : State) (x : Template) : Prop :=
  inRange ((s.lane x.actuator).lo, (s.lane x.actuator).hi) x.target = true ∧ fits16 x.target ∧
    (∀ n, x.ramp = some n → 1 ≤ n ∧ n ≤ maxRamp x.actuator) ∧ (∀ n, x.lease = some n → 1 ≤ n ∧ n ≤ 3600) ∧
    x.guards.length ≤ 2 ∧ ∀ g ∈ x.guards, inRange (pointRange g.point) g.threshold = true ∧
      g.dwell % 100 = 0 ∧ g.dwell ≤ 10000

/-- The first check that fails gives the answer (R15, R170). -/
def firstFailing : List (Bool × Code) → Option Code
  | [] => none
  | (ok, c) :: rest => if ok then firstFailing rest else some c

/-- The checks of PLACE after the form, each with the code of its failure, in the order of the body and then of the
state (R14, R15; log 14). `accepted` says whether the prerequisite, if any, passes R12. -/
def placeChecks (s : State) (c : Cls) (f : PlaceForm) (accepted : Bool) : List (Bool × Code) :=
  [(decide (f.actuator < 12), .badActuator),
    (decide (∀ a : Actuator, a.val = f.actuator → applicable c a = true), .notApplicable),
    (decide (∀ a : Actuator, a.val = f.actuator → (s.lane a).lo ≤ f.target ∧ f.target ≤ (s.lane a).hi), .outOfRange),
    (decide (f.actuator = 11 → f.ramp = 0), .notApplicable),
    (decide (∀ a : Actuator, a.val = f.actuator → a ≠ gate → f.ramp ≤ maxRamp a), .outOfRange),
    (decide (f.prereq = ⟨255, 0xFF⟩ ∨ f.prereq.slot < 40), .outOfRange),
    (decide (f.lease ≤ 3600), .outOfRange)]
    ++ f.guards.flatMap (fun g => [
      (decide (g.point < 19), .outOfRange),
      (decide (∀ p : Point, p.val = g.point → inRange (pointRange p) g.threshold = true), .outOfRange),
      (decide (g.dwell % 100 = 0), .badField),
      (decide (g.dwell ≤ 10000), .outOfRange)])
    ++ [(decide (∀ a : Actuator, a.val = f.actuator → (s.lane a).state ≠ .down), .actuatorDown),
      (accepted, .badPrereq),
      (decide (∀ a : Actuator, a.val = f.actuator →
        (∃ i, s.orderAt i = none) ∨ (s.findOrder a c).isSome = true), .tableFull)]

end Sys2Proof.Machine
end

