-- ==== Sys2Proof/Certificates/Slice0/Obligations.lean ====
section
/-! DEFINITION. The statements for the provers. -/

section
open Sys2Proof Sys2Proof.Machine

/-! ### The machine -/

/-- O1. -/
def Obligations.StepRunsTheFrontCommand : Prop :=
  ∀ (c : Instr) (rest : List Instr) (s : State),
    step { s with pending := c :: rest } = exec c { s with pending := rest }

/-- O2. No command stops the part, and none touches the queue. That POWER_ON keeps the queue is the model's choice
(log 23). (Log 2, 6, 7, 23 of the model.) -/
def Obligations.EveryCommandAnswersANextState : Prop :=
  ∀ (c : Instr) (s : State), ∃ t, exec c s = .next t ∧ t.pending = s.pending

/-- O3. The step on an empty queue (the model's choice, log 1): the one expiry that is due, the first control interval
that is due (log 3), or 1 ms of every running timer, the recovery timers of the direct points apart (log 8). (Log 1, 3,
8 of the model.) -/
def Obligations.IdleStepTakesTheDueExpiryOrAMillisecond : Prop :=
  ∀ s : State, s.pending = [] →
    (∀ c, s.dueEvents = [c] → s.dueIntervals = [] → step s = exec c s) ∧
    (∀ a cs, s.dueEvents = [] → s.dueIntervals = .controlInterval a :: cs → step s = exec (.controlInterval a) s) ∧
    (s.dueEvents = [] → s.dueIntervals = [] → ∃ t, step s = .next t ∧
      (∀ i, t.slot i = { s.slot i with order := (s.orderAt i).map fun o => { o with
        lease := o.lease.map fun l => ⟨l.reload, l.remaining - 1⟩
        guards := o.guards.map fun e => { e with cond := match e.cond with
          | .timing n => .timing (n + 1)
          | .inert => .inert
          | .satisfied => .satisfied
          | .active => .active } } }) ∧
      (∀ a, t.lane a = { s.lane a with
        interval := (s.lane a).interval.map (· + 1)
        detector := match (s.lane a).detector with
          | .timing n => .timing (n + 1)
          | .idle => .idle
          | .settled => .settled }) ∧
      (∀ m, t.module m = { s.module m with stale := (s.module m).stale.map (· + 1) }) ∧
      t = { s with
        slots := t.slots, lanes := t.lanes, modules := t.modules
        travel := match s.travel with
          | .running n => .running (n + 1)
          | .cleared => .cleared
          | .complete => .complete
        depth := { s.depth with stale := s.depth.stale.map (· + 1) }
        link := { s.link with silence := s.link.silence.map (· + 1) }
        rx := match s.rx with
          | .collecting got gap => .collecting got (gap + 1)
          | .hunting => .hunting })

/-- O4. -/
def Obligations.PowerOnGivesEveryBlockItsPowerOnValues : Prop :=
  ∀ s : State, ∃ t, exec .powerOn s = .next t ∧
    t.mode = .setup ∧
    (∀ i, t.slot i = ⟨0, none⟩) ∧
    (∀ a, (t.lane a).state = .off ∧ (t.lane a).gov = none ∧ (∀ c, (t.lane a).orderSet.get c = none) ∧
      (t.lane a).precedence = defaultPrecedence a ∧ (∀ c, (t.lane a).mask.get c = false) ∧
      (t.lane a).yield = false ∧ (t.lane a).maskHold = false ∧ (t.lane a).guardHold = false ∧
      (t.lane a).command = none ∧ (t.lane a).interval = none ∧ (t.lane a).detector = .idle ∧
      ((t.lane a).lo, (t.lane a).hi) = fullRange a ∧
      (a.val < 2 → (t.lane a).band = 5 ∧ (t.lane a).dwell = 500) ∧
      (2 ≤ a.val → a.val < 10 → (t.lane a).band = 2 ∧ (t.lane a).dwell = 300) ∧
      (a.val = 10 → (t.lane a).band = 20 ∧ (t.lane a).dwell = 1000)) ∧
    t.travel = .cleared ∧ t.travelLimit = 4 ∧ (∀ w, t.interlock w = ⟨300, 120, 30, true⟩) ∧
    (∀ p, t.directAt p = ⟨.stale, none, none⟩) ∧
    (∀ m, t.module m = ⟨.stale, 0, 0, none, 5, 1000⟩) ∧ (∀ k, t.modValue k = none) ∧
    t.depth = ⟨none, .stale, none, 5⟩ ∧ t.drift = ⟨0, 0, .stale, 0, 0⟩ ∧
    (∀ b e, t.entry b e = none) ∧ t.active = 0 ∧
    (∀ c, t.chan c = ⟨none, .released, 0, 0⟩) ∧
    (∀ a, t.mapAt a = ⟨if a = gate then some 14 else some ⟨a.val, by omega⟩,
      some (if a.val < 2 then 11 else if a.val < 10 then 12 else if a.val = 10 then 13 else 15), false⟩) ∧
    (∀ a, a ≠ gate → t.cal a = if a.val < 2 then ⟨100, 900⟩ else if a.val < 10 then ⟨200, 800⟩ else ⟨0, 1000⟩) ∧
    (∀ x, t.template x = none) ∧ (∀ w a, t.binding w a = none) ∧
    t.link = ⟨.await, none, 0, 2000, 8⟩ ∧ t.txQueue = [] ∧ t.noticesLost = false ∧ t.rx = .hunting

/-! ### Frames and bodies -/

/-- O5. A frame laid out by R188 comes in as it was sent, after any bytes the hunting receiver discards; and among the
bytes on the pair, unless it collides with a frame the part is sending, it is the request it carries. That the bytes of
BAD_FRAME are taken so is the model's reading. (Log 6, 15, 16 of the model.) -/
def Obligations.RequestFramesAreReceivedWhole : Prop :=
  (∀ (noise : List Byte) (r : Req) (kind : Byte), (∀ b ∈ noise, b ≠ 0x7E) → r.body.length ≤ 120 →
    receive .hunting (noise ++ requestFrame r kind) = .valid r kind) ∧
  (∀ (noise : List Byte) (c : Instr) (r : Req) (kind : Byte) (s : State), (∀ b ∈ noise, b ≠ 0x7E) →
    frameOf c = some (r, kind) → r.body.length ≤ 120 → s.rx = .hunting → s.sending = false →
    exec (.badFrame (noise ++ requestFrame r kind)) s = exec c s)

/-- O6. The three conditions of R166, each failing alone. -/
def Obligations.BadLengthOriginOrCrcMakesABadFrame : Prop :=
  (∀ (b : Byte) (rest : List Byte), (b.toNat < 4 ∨ 124 < b.toNat) → receive .hunting (0x7E :: b :: rest) = .bad) ∧
  (∀ (origin : Nat) (tag : Word) (kind : Byte) (body : List Byte), body.length ≤ 120 → origin < 256 →
    origin ≠ 1 → origin ≠ 2 → origin ≠ 3 → receive .hunting (frameBytes origin tag kind body) = .bad) ∧
  (∀ (o : Origin) (tag : Word) (kind : Byte) (body : List Byte) (crc : Word), body.length ≤ 120 →
    let covered := putByte (4 + body.length) ++ putByte o.code ++ putU16 tag.toNat ++ [kind] ++ body
    crc ≠ crc16 covered → receive .hunting (0x7E :: covered ++ putU16 crc.toNat) = .bad)

/-- O7. Every field of a PLACE body, at every value it can hold, is read as it was written. (Log 13 of the model.) -/
def Obligations.PlaceBodyReadsBack : Prop :=
  ∀ f : PlaceForm, placeFits f → formPlace (placeBody f) = some f

/-! ### Requests -/

/-- O8. (Log 15 of the model.) -/
def Obligations.EveryRequestGetsOneAnswerAndARefusalChangesNothing : Prop :=
  ∀ (c : Instr) (r : Req) (kind : Byte) (s : State), frameOf c = some (r, kind) → r.body.length ≤ 120 →
    ∃ t code body, exec c s = .next (answered kind r code body t) ∧
      (∃ ns, t.txQueue = s.txQueue ++ ns ∧ ∀ f ∈ ns, f.isNotice = true) ∧
      (code ≠ .done → t = received s) ∧
      t.link.state = .up ∧ t.link.silence = some 0 ∧ t.link.badCount = 0

/-- O9. Steps 1 and 2 of R170. -/
def Obligations.RequestsOutOfTheirModeOrOriginAreRefused : Prop :=
  ∀ (c : Instr) (r : Req) (kind : Byte) (s : State), frameOf c = some (r, kind) → r.body.length ≤ 120 →
    (runOnly c = true → s.mode = .setup → exec c s = .next (answered kind r .notRunning [] (received s))) ∧
    (setupOnly c = true → s.mode = .run → exec c s = .next (answered kind r .notSetup [] (received s))) ∧
    ((runOnly c = true → s.mode = .run) → (setupOnly c = true → s.mode = .setup) →
      (operatorOnly c = true ∧ r.origin ≠ .operator) ∨ (plannersOnly c = true ∧ r.origin = .plant) →
      exec c s = .next (answered kind r .notPermitted [] (received s)))

/-- O10. -/
def Obligations.UnknownKindsAreAnsweredUnknownRequest : Prop :=
  ∀ (r : Req) (kind : Byte) (s : State), namesRequest kind = false → r.body.length ≤ 120 →
    exec (.unknownRequest r kind) s = .next (answered kind r .unknownRequest [] (received s))

/-! ### The link -/

/-- O11. The bytes on the pair are taken one after another, and bytes that begin no frame are discarded. One bad frame,
complete or cut short, a colliding one among them: below the threshold and outside UP; and at the threshold in UP,
where a frame being sent is sent whole and, in RUN, the loss of the link is handled as at the silence expiry (R173,
O12). (Log 2, 6, 11, 15, 16 of the model.) -/
def Obligations.BadFramesCountAndLoseTheLink : Prop :=
  (∀ (xs ys : List Byte) (s t : State), exec (.badFrame xs) s = .next t →
    exec (.badFrame (xs ++ ys)) s = exec (.badFrame ys) t ∧
      exec (.interByteTimeout (xs ++ ys)) s = exec (.interByteTimeout ys) t) ∧
  (∀ (bytes : List Byte) (s : State), s.rx = .hunting → (∀ b ∈ bytes, b ≠ 0x7E) →
    exec (.badFrame bytes) s = .next s ∧ exec (.interByteTimeout bytes) s = .next s) ∧
  (∀ (c : Instr) (s : State), bringsBadFrame s c →
    let n := min 255 (s.link.badCount + 1)
    s.link.badCount ≤ 255 →
    (s.link.state ≠ .up →
      exec c s = .next { s with
        link := { s.link with badCount := n }, rx := .hunting, collided := false, pair := .free }) ∧
    (s.link.state = .up → n < s.link.badThreshold →
      exec c s = .next { s with
        link := { s.link with badCount := n }, rx := .hunting, collided := false, finishing := false
        pair := if s.txQueue.isEmpty then .free else .heldToEmpty }) ∧
    (s.link.state = .up → s.link.badThreshold ≤ n →
      let lost : State := { s with
        link := { s.link with state := .lost, silence := none, badCount := n }
        rx := .hunting, collided := false, pair := .free, finishing := s.sending }
      (s.mode = .setup → exec c s = .next lost) ∧
      (s.mode = .run → ∃ t, exec c s = .next t ∧ LinkLossRuns lost t)))

/-- O12. The silence expiry, with the two steps of R173: the tethered orders, and the fallback set with one actuator
bound. (Log 2, 11, 16 of the model: when an expiry happens, when the GATE settles, `pair` and `finishing`.) -/
def Obligations.SilenceLosesTheLinkAndRetiresTetheredOrders : Prop :=
  ∀ s : State,
    ((s.link.state ≠ .up ∨ ∀ n, s.link.silence = some n → n < s.link.silenceLimit) →
      exec .silenceExpiry s = .next s) ∧
    (∀ n, s.link.state = .up → s.link.silence = some n → s.link.silenceLimit ≤ n →
      let lost : State := { s with
        link := { s.link with state := .lost, silence := none }, pair := .free, finishing := s.sending }
      (s.mode = .setup → exec .silenceExpiry s = .next lost) ∧
      (s.mode = .run → ∃ t, exec .silenceExpiry s = .next t ∧ LinkLossRuns lost t))

/-- O13. The oldest frame is sent by the part that has the pair, or that had begun it; a frame that collides with it does
not stop it. The part frees the pair when the answer has been sent, or when its queue is empty where none was needed.
(Log 15, 16, 17, 27 of the model.) -/
def Obligations.TheOldestFrameIsSent : Prop :=
  ∀ (s : State) (f : TxFrame) (rest : List TxFrame), s.txQueue = f :: rest →
    (s.link.state = .up → (s.pair ≠ .free ∨ s.rx = .hunting) →
      exec .frameSent s = .next
        { s with txQueue := rest, line := f.bytes, finishing := false, pair := pairAfter s f rest }) ∧
    (s.finishing = true →
      exec .frameSent s = .next
        { s with txQueue := rest, line := f.bytes, finishing := false, pair := pairAfter s f rest }) ∧
    ((s.link.state ≠ .up ∨ s.pair = .free) → pairAfter s f rest = .free) ∧
    (s.link.state = .up → s.pair = .heldForAnswer →
      ((f.isNotice = false ∧ ∀ g ∈ rest, g.isNotice = true) → pairAfter s f rest = .free) ∧
      ((f.isNotice = true ∨ ∃ g ∈ rest, g.isNotice = false) → pairAfter s f rest = .heldForAnswer)) ∧
    (s.link.state = .up → s.pair = .heldToEmpty →
      (rest = [] → pairAfter s f rest = .free) ∧ (rest ≠ [] → pairAfter s f rest = .heldToEmpty)) ∧
    (s.link.state ≠ .up → s.finishing = false → exec .frameSent s = .next s) ∧
    (s.pair = .free → s.rx ≠ .hunting → s.finishing = false → exec .frameSent s = .next s) ∧
    (∀ c t, s.sending = true → bringsBadFrame s c → exec c s = .next t →
      ∃ u later, t.txQueue = f :: later ∧ exec .frameSent t = .next u ∧ u.line = f.bytes ∧ u.txQueue = later)

/-! ### Orders -/

/-- O14. -/
def Obligations.AHandleReachesOnlyItsOwnOrder : Prop :=
  ∀ (s : State) (h : Handle) (o : Order),
    s.order? h = some o ↔ ((s.slot h.slot).order = some o ∧ (s.slot h.slot).gen = h.gen)

/-- O15. An accepted PLACE: the order that starts PENDING or WAITING, the one whose guard trips as it is armed, and the
one that supersedes. (Log 11, 12, 25 of the model.) -/
def Obligations.PlaceCreatesTheOrder : Prop :=
  ∀ (f : PlaceForm) (a : Actuator) (pre : Option Handle) (gs : List Guard) (o : Origin) (tag : Word) (s : State),
    placeFits f → f.actuator = a.val → f.prereq = prereqForm pre → f.guards = gs.map guardForm →
    (∀ g ∈ gs, guardAllowed g) → (∀ q, pre = some q → ∃ d, s.order? q = some d ∧ d.actuator ≠ a) →
    s.mode = .run → applicable (classOf o) a = true → inRange ((s.lane a).lo, (s.lane a).hi) f.target = true →
    f.ramp ≤ maxRamp a → f.lease ≤ 3600 → (s.lane a).state ≠ .down → (a = gate → f.completion = .standing) →
    LaneLaw s →
    let r : Req := ⟨o, tag, placeBody f⟩
    PlacementRuns (.place r) 0x10 r
      { cls := classOf o, actuator := a, target := f.target, ramp := if f.ramp = 0 then none else some f.ramp
        completion := f.completion, prereq := pre, guards := gs.map fun g => ⟨g, .inert⟩
        lease := if f.lease = 0 then none else some ⟨f.lease, 1000 * f.lease⟩, tethered := f.tethered
        state := .waiting, settled := false, planEntry := none, template := none } s

/-- O16. On a lane in REST with no orders, an unmasked order placed without prerequisite and guards governs at once. A
proportional command goes on from where it stands (R40, R58); the GATE steps (R60), and settles at once where it already
stands at the target with its travel timer complete (R63). What the step of the GATE does. (Log 11, 12 of the model.) -/
def Obligations.AnOrderPlacedOnARestingLaneGoverns : Prop :=
  (∀ (f : PlaceForm) (a : Actuator) (o : Origin) (tag : Word) (i : Slot) (s : State),
    placeFits f → f.actuator = a.val → f.prereq = ⟨255, 0xFF⟩ → f.guards = [] →
    s.mode = .run → applicable (classOf o) a = true → inRange ((s.lane a).lo, (s.lane a).hi) f.target = true →
    f.ramp ≤ maxRamp a → f.lease ≤ 3600 → s.findOrder a (classOf o) = none → s.freeSlot? = some i →
    (s.lane a).state = .rest → (s.lane a).gov = none → (∀ c, (s.lane a).orderSet.get c = none) →
    classOf o ∈ (s.lane a).precedence → (s.lane a).mask.get (classOf o) = false → s.gateSettles = none → LaneLaw s →
    let r : Req := ⟨o, tag, placeBody f⟩
    let h := s.handleAt i
    let fresh : Order :=
      { cls := classOf o, actuator := a, target := f.target, ramp := if f.ramp = 0 then none else some f.ramp
        completion := f.completion, prereq := none, guards := []
        lease := if f.lease = 0 then none else some ⟨f.lease, 1000 * f.lease⟩, tethered := f.tethered
        state := .governing, settled := false, planEntry := none, template := none }
    let governing := fun o : Order => ((received s).setSlot i ⟨h.gen, some o⟩).updLane a fun l =>
      { l with
        orderSet := l.orderSet.set o.cls (some h), state := .driven, gov := some h, maskHold := false
        guardHold := false, detector := .idle }
    let answer := fun (state : Byte) (t : State) => answered 0x10 r .done (putHandle (some h) ++ [state] ++ noHandle) t
    (a ≠ gate → exec (.place r) s = .next (answer 3 (governing fresh))) ∧
    (a = gate → ((s.lane gate).command ≠ some f.target ∨ s.travel ≠ .complete) →
      exec (.place r) s = .next (answer 3 (gateStep f.target (governing fresh)))) ∧
    (a = gate → (s.lane gate).command = some f.target → s.travel = .complete → (∀ k, s.waitsOn k h = false) →
      (f.completion = .standing →
        exec (.place r) s = .next (answer 3 (governing { fresh with settled := true }))) ∧
      (f.completion = .settle → ∃ t, exec (.place r) s = .next (answer 0 t) ∧ t.slot i = ⟨h.gen + 1, none⟩ ∧
        firstNotice s t (addressee (classOf o)) (.retired h gate .completed) ∧
        (t.lane gate).state = .rest ∧ (t.lane gate).command = some 0))) ∧
  (∀ (v : Int) (s : State),
    ((s.lane gate).command = some v → gateStep v s = s) ∧
    ((s.lane gate).command ≠ some v →
      let t := gateStep v s
      t.travel = .running 0 ∧ t.lane gate = { s.lane gate with command := some v } ∧
        (∀ b, b ≠ gate → t.lane b = s.lane b) ∧ (∀ c, (s.mapAt gate).assigned ≠ some c → t.chan c = s.chan c) ∧
        (∀ c, (s.mapAt gate).assigned = some c →
          ((s.chan c).mode ≠ .order → t.chan c = s.chan c) ∧
          ((s.chan c).mode = .order → s.assignee c = some gate →
            t.chan c = { s.chan c with output := s.dutyOf gate v })) ∧
        t.slots = s.slots ∧ t.banks = s.banks ∧ t.txQueue = s.txQueue ∧ t.noticesLost = s.noticesLost ∧
        t.interlocks = s.interlocks ∧ BlocksKept s t))

/-- O17. The checks of PLACE, in the order of R15, with the guard checks of R14 and the four tests of R12 for its
prerequisite. (Log 14 of the model.) -/
def Obligations.PlaceChecksAreMadeInOrder : Prop :=
  ∀ (f : PlaceForm) (r : Req) (s : State) (code : Code), r.body.length ≤ 120 →
    (s.mode = .setup → exec (.place r) s = .next (answered 0x10 r .notRunning [] (received s))) ∧
    (s.mode = .run → formPlace r.body = none → exec (.place r) s = .next (answered 0x10 r .badField [] (received s))) ∧
    (∀ accepted : Bool, s.mode = .run → formPlace r.body = some f →
      (accepted = true ↔ ∀ a : Actuator, a.val = f.actuator → ∀ q : Slot, q.val = f.prereq.slot →
        PrereqAccepted s a (classOf r.origin) ⟨q, f.prereq.gen⟩) →
      firstFailing (placeChecks s (classOf r.origin) f accepted) = some code →
      exec (.place r) s = .next (answered 0x10 r code [] (received s)))


/-- O18. An accepted ISSUE places the template's order, with the target given or the template's own. (Log 11, 12, 25 of
the model.) -/
def Obligations.IssueCopiesTheTemplate : Prop :=
  ∀ (f : IssueForm) (x : TemplateIx) (m : Template) (pre : Option Handle) (o : Origin) (tag : Word) (s : State),
    fits16 (f.target.getD 0) → f.index = x.val → f.prereq = prereqForm pre → s.template x = some m →
    m.guards.length ≤ 2 → (∀ q, pre = some q → ∃ d, s.order? q = some d ∧ d.actuator ≠ m.actuator) →
    s.mode = .run → applicable (classOf o) m.actuator = true →
    inRange ((s.lane m.actuator).lo, (s.lane m.actuator).hi) (f.target.getD m.target) = true →
    (s.lane m.actuator).state ≠ .down → (m.actuator = gate → m.completion = .standing) → LaneLaw s →
    let r : Req := ⟨o, tag, issueBody f⟩
    PlacementRuns (.issue r) 0x11 r
      { cls := classOf o, actuator := m.actuator, target := f.target.getD m.target, ramp := m.ramp
        completion := m.completion, prereq := pre, guards := m.guards.map fun g => ⟨g, .inert⟩
        lease := m.lease.map fun n => ⟨n, 1000 * n⟩, tethered := m.tethered
        state := .waiting, settled := false, planEntry := none, template := some x } s

/-- O19. AMEND: on an order that does not govern, or with target and ramp as they were, the record alone; on the
GOVERNING order the settled field and the detector as well, never a proportional command, and the GATE steps when it is
DRIVEN (R22, R60; O16 says what the step does). (Log 12 of the model.) -/
def Obligations.AmendChangesTheRecordAndRestartsSettle : Prop :=
  ∀ (f : AmendForm) (h : Handle) (o : Order) (g : Origin) (tag : Word) (s : State),
    amendFits f → f.handle = ⟨h.slot.val, h.gen⟩ → s.mode = .run → s.order? h = some o → o.cls = classOf g →
    f.lease.getD 0 ≤ 3600 → f.ramp.getD 0 ≤ maxRamp o.actuator →
    (∀ v, f.target = some v → inRange ((s.lane o.actuator).lo, (s.lane o.actuator).hi) v = true) →
    let r : Req := ⟨g, tag, amendBody f⟩
    let o' : Order := { o with
      target := f.target.getD o.target
      ramp := match f.ramp with
        | none => o.ramp
        | some n => if n = 0 then none else some n
      lease := match f.lease with
        | none => o.lease
        | some n => if n = 0 then none else some ⟨n, 1000 * n⟩ }
    ((o.state ≠ .governing ∨ (o'.target = o.target ∧ o'.ramp = o.ramp)) →
      exec (.amend r) s = .next (answered 0x12 r .done (putByte o.state.code ++ putFlag o.settled)
        ((received s).setSlot h.slot ⟨h.gen, some o'⟩))) ∧
    (o.state = .governing → (o'.target ≠ o.target ∨ o'.ramp ≠ o.ramp) → o.actuator ≠ gate → LaneLaw s →
      exec (.amend r) s = .next (answered 0x12 r .done [3, 0]
        (((received s).setSlot h.slot ⟨h.gen, some { o' with settled := false }⟩).updLane o.actuator
          fun l => { l with detector := .idle }))) ∧
    (o.state = .governing → (o'.target ≠ o.target ∨ o'.ramp ≠ o.ramp) → o.actuator = gate → LaneLaw s →
      let restarted := ((received s).setSlot h.slot ⟨h.gen, some { o' with settled := false }⟩).updLane gate
        fun l => { l with detector := .idle }
      ((s.lane gate).state = .driven →
        exec (.amend r) s = .next (answered 0x12 r .done [3, 0] (gateStep o'.target restarted))) ∧
      ((s.lane gate).state = .held → exec (.amend r) s = .next (answered 0x12 r .done [3, 0] restarted)))

/-- O20. -/
def Obligations.RenewReloadsTheLease : Prop :=
  ∀ (n : Nat) (h : Handle) (o : Order) (g : Origin) (tag : Word) (s : State),
    n ≤ 3600 → s.mode = .run → s.order? h = some o → o.cls = classOf g →
    let r : Req := ⟨g, tag, putHandle (some h) ++ putU16 n⟩
    (1 ≤ n → exec (.renew r) s = .next (answered 0x13 r .done (putU16 n ++ putU16 n)
      ((received s).setSlot h.slot ⟨h.gen, some { o with lease := some ⟨n, 1000 * n⟩ }⟩))) ∧
    (∀ l, n = 0 → o.lease = some l →
      exec (.renew r) s = .next (answered 0x13 r .done (putU16 l.reload ++ putU16 l.reload)
      ((received s).setSlot h.slot ⟨h.gen, some { o with lease := some ⟨l.reload, 1000 * l.reload⟩ }⟩))) ∧
    (n = 0 → o.lease = none → exec (.renew r) s = .next (answered 0x13 r .done [0, 0, 0, 0] (received s)))

/-- O21. WITHDRAW of a live order the origin may withdraw: the order and all that wait on it go, each slot free under
its next generation and each with its notice, the order's own first, and the answer counts them; a PLAN order's entry is
CLEARED; what waits is said where orders and lanes agree. (Log 11 of the model: what settles on the GATE by it comes after.) -/
def Obligations.WithdrawRetiresTheOrder : Prop :=
  ∀ (h : Handle) (o : Order) (g : Origin) (tag : Word) (s : State),
    s.mode = .run → s.order? h = some o → (g = .operator ∨ o.cls = classOf g) →
    let r : Req := ⟨g, tag, putHandle (some h)⟩
    let n := (allSlots.filter (s.goesWith h)).length
    ∃ t count, exec (.withdraw r) s = .next (answered 0x14 r .done count t) ∧
      t.slot h.slot = ⟨h.gen + 1, none⟩ ∧
      firstNotice s t (addressee o.cls) (.retired h o.actuator .withdrawn) ∧
      (∀ b e x, o.planEntry = some (b, e) → s.entry b e = some x → t.entry b e = some { x with state := .cleared }) ∧
      EngineFrame (received s) t ∧
      (LaneLaw s → count = putByte n ∧
        (∀ i, s.goesWith h i = true → t.slot i = ⟨(s.slot i).gen + 1, none⟩) ∧
        (s.noticeCount + n ≤ 16 → ∀ i p, i ≠ h.slot → s.goesWith h i = true → s.orderAt i = some p →
          .notice (addressee p.cls) (.retired (s.handleAt i) p.actuator .prereqLost) ∈ t.txQueue) ∧
        (gateQuiet s → OrdersStay s t (s.goesWith h)))

/-- O22. (Log 2, 11 of the model.) -/
def Obligations.LeaseExpiryRetiresTheOrder : Prop :=
  ∀ (h : Handle) (s : State),
    ((∀ o l, s.order? h = some o → o.lease = some l → l.remaining ≠ 0) → exec (.leaseExpiry h) s = .next s) ∧
    (∀ o n, s.order? h = some o → o.lease = some ⟨n, 0⟩ →
      ∃ t, exec (.leaseExpiry h) s = .next t ∧ t.slot h.slot = ⟨h.gen + 1, none⟩ ∧
        (s.noticeCount < 16 →
          ∃ ns, t.txQueue = s.txQueue ++ .notice (addressee o.cls) (.retired h o.actuator .expired) :: ns) ∧
        EngineFrame s t)

/-- O23. The table of R19: whichever of a request and the expiry is taken first decides. (Log 2 of the model.) -/
def Obligations.ALeaseExpiryAndARequestComeInEitherOrder : Prop :=
  ∀ (h : Handle) (o : Order) (g : Origin) (tag : Word) (s t : State),
    s.mode = .run → s.order? h = some o → o.leaseOut = true → (g = .operator ∨ o.cls = classOf g) →
    (exec (.withdraw ⟨g, tag, putHandle (some h)⟩) s = .next t → exec (.leaseExpiry h) t = .next t) ∧
    (∀ n, 1 ≤ n → n ≤ 3600 → o.cls = classOf g →
      exec (.renew ⟨g, tag, putHandle (some h) ++ putU16 n⟩) s = .next t → exec (.leaseExpiry h) t = .next t) ∧
    (∀ f n, f.handle = ⟨h.slot.val, h.gen⟩ → f.target = none → f.ramp = none → f.lease = some n → n ≤ 3600 →
      o.cls = classOf g → exec (.amend ⟨g, tag, amendBody f⟩) s = .next t → exec (.leaseExpiry h) t = .next t) ∧
    (exec (.leaseExpiry h) s = .next t →
      (∀ k r c, frameOf c = some (r, k) →
        (c = .withdraw ⟨g, tag, putHandle (some h)⟩ ∨ c = .query ⟨g, tag, putHandle (some h)⟩ ∨
          (∃ n, n ≤ 3600 ∧ c = .renew ⟨g, tag, putHandle (some h) ++ putU16 n⟩) ∨
          (∃ f, amendFits f ∧ f.lease.getD 0 ≤ 3600 ∧ f.handle = ⟨h.slot.val, h.gen⟩ ∧
            c = .amend ⟨g, tag, amendBody f⟩)) →
        exec c t = .next (answered k r .staleHandle [] (received t))))

/-! ### Reports -/

/-- O24. The seven reads answer from the state as it stands and leave every block as it was; STATUS reports the link
as its frame found it and the notices-lost flag, which is then clear. (Log 13 of the model.) -/
def Obligations.ReportsChangeNothing : Prop :=
  ∀ (g : Origin) (tag : Word) (s : State),
    (∀ h o, s.order? h = some o →
      let r : Req := ⟨g, tag, putHandle (some h)⟩
      exec (.query r) s = .next (answered 0x15 r .done
        (putHandle (some h) ++ putByte o.cls.code ++ putByte o.actuator.val ++ putS16 o.target
          ++ putU16 (o.ramp.getD 0) ++ putByte o.completion.code ++ putHandle o.prereq ++ putFlag o.tethered
          ++ putByte o.state.code ++ putFlag o.settled
          ++ (match o.planEntry with
            | some (b, e) => putByte b.val ++ putByte e.val
            | none => [0xFF, 0xFF])
          ++ putOrFF (o.template.map (·.val))
          ++ (match o.lease with
            | some l => putU16 l.reload ++ putU16 ((l.remaining + 999) / 1000)
            | none => [0, 0, 0, 0])
          ++ putByte o.guards.length
          ++ o.guards.flatMap fun e =>
            putByte e.guard.point.val ++ putByte e.guard.relation.code ++ putS16 e.guard.threshold
              ++ putByte e.guard.action.code ++ putU16 e.guard.dwell
              ++ (match e.cond with
                | .inert | .satisfied => [0, 0, 0, 0]
                | .timing n => [1] ++ putU16 n ++ [0]
                | .active => [1] ++ putU16 e.guard.dwell ++ [1])) (received s))) ∧
    (∀ (i : Slot) (a : Option Actuator) (c : Option Cls),
      let r : Req := ⟨g, tag, putByte i.val ++ putOptU8 (a.map (·.val)) ++ putOptU8 (c.map (·.code))⟩
      let found := allSlots.filter (fun j => i ≤ j &&
        (s.orderAt j).any (fun o => a.all (· = o.actuator) && c.all (· = o.cls)))
      exec (.list r) s = .next (answered 0x16 r .done
        (putByte (min 20 found.length) ++
          (found.take 20).flatMap (fun j => match s.orderAt j with
            | some o => putHandle (some (s.handleAt j)) ++ putByte o.cls.code ++ putByte o.actuator.val
                ++ putByte o.state.code
            | none => []) ++
          (match found[19]?, found[20]? with
            | some j, some _ => putByte (j.val + 1)
            | _, _ => [0xFF])) (received s))) ∧
    (∀ a : Actuator,
      let r : Req := ⟨g, tag, putByte a.val⟩
      let l := s.lane a
      let holder := fun c : Cls => (l.orderSet.get c).bind s.order?
      let masked := (cycleOf a).filter fun c => l.mask.get c
      let next : Option Cls := match l.gov.bind s.order? with
        | some q => l.precedence.find? fun c =>
            (c = .guard || !l.mask.get c) && c ≠ q.cls && (holder c).any fun p => p.state ≠ .waiting
        | none => none
      ∃ command : List Byte,
        (l.command = none → command = [0, 0, 0]) ∧
        (∀ v n, l.command = some v → wholeUnits a v n → command = [1] ++ putS16 n) ∧
        exec (.view r) s = .next (answered 0x24 r .done
          (putByte l.code ++ putFlag l.guardHold ++ putHandle l.gov
            ++ putByte l.precedence.length
            ++ l.precedence.flatMap (fun c => match l.orderSet.get c with
              | some h => putHandle (some h) ++ putByte (((s.order? h).map (·.state.code)).getD 0)
              | none => [0xFF, 0xFF, 0])
            ++ putByte l.precedence.length ++ l.precedence.flatMap (fun c => putByte c.code)
            ++ putByte masked.length ++ masked.flatMap (fun c => putByte c.code)
            ++ putFlag l.yield ++ command
            ++ (if h : a.val < 11 then
                [1] ++ putOptS16 (s.pointValue ⟨a.val, by omega⟩) ++ putByte (s.pointStatus ⟨a.val, by omega⟩).code
              else [0, 0, 0, 0, 0])
            ++ (if h : a.val < 2 then [1] ++ putFlag (s.interlock ⟨a.val, h⟩).engaged else [0, 0])
            ++ putOptU8 (next.map (·.code))) (received s))) ∧
    (∀ ps : List Point, 1 ≤ ps.length → ps.length ≤ 19 →
      let r : Req := ⟨g, tag, putByte ps.length ++ ps.map fun p => BitVec.ofNat 8 p.val⟩
      exec (.readPoints r) s = .next (answered 0x32 r .done
        (putByte ps.length ++ ps.flatMap fun p =>
          putByte p.val ++ putOptS16 (s.pointValue p) ++ putByte (s.pointStatus p).code) (received s))) ∧
    (∀ (b : BankIx) (e : EntryIx), g ≠ .plant →
      let r : Req := ⟨g, tag, putByte b.val ++ putByte e.val⟩
      let role := if b = s.active then 0 else 1
      (s.entry b e = none → exec (.readEntry r) s = .next (answered 0x43 r .done
        ([role, 0] ++ List.replicate 10 0 ++ noHandle) (received s))) ∧
      (∀ x, s.entry b e = some x → exec (.readEntry r) s = .next (answered 0x43 r .done
        ([role, 1] ++ putS16 x.depthFrom ++ putS16 x.depthTo ++ putByte x.actuator.val ++ putS16 x.target
          ++ putU16 (x.ramp.getD 0) ++ putByte x.state.code
          ++ (match x.state with
            | .live h => putHandle (some h)
            | _ => noHandle)) (received s)))) ∧
    (∀ c : Chan,
      let r : Req := ⟨g, tag, putByte c.val⟩
      let x := s.chan c
      let spareOf := allActuators.filter fun a => (s.mapAt a).spare = some c
      exec (.readChannel r) s = .next (answered 0x58 r .done
        ((if c.val < 14 then [0] else [1]) ++ (if x.fault = none then [0] else [1]) ++ putByte (faultCode x.fault)
          ++ putByte x.mode.code ++ putU16 x.localDuty ++ putU16 x.output
          ++ putOptU8 ((s.assignee c).map (·.val))
          ++ putByte spareOf.length ++ spareOf.flatMap (fun a => putByte a.val)
          ++ (match s.assignee c with
            | some a => if a = gate then [0, 0, 0, 0, 0, 0]
                else [1] ++ putU16 (s.cal a).low ++ putU16 (s.cal a).high ++ putFlag (s.mapAt a).frozen
            | none => [0, 0, 0, 0, 0, 0])) (received s))) ∧
    (∀ x : TemplateIx,
      let r : Req := ⟨g, tag, putByte x.val⟩
      let boundIn := fun w => putOrFF ((allActuators.find? fun a => s.binding w a = some x).map (·.val))
      (s.template x = none → exec (.readTemplate r) s = .next (answered 0x61 r .done
        ([0] ++ boundIn .fallback ++ boundIn .halt) (received s))) ∧
      (∀ m, s.template x = some m → exec (.readTemplate r) s = .next (answered 0x61 r .done
        ([1] ++ putByte m.actuator.val ++ putS16 m.target ++ putU16 (m.ramp.getD 0) ++ putByte m.completion.code
          ++ putU16 (m.lease.getD 0) ++ putFlag m.tethered ++ putByte m.guards.length
          ++ m.guards.flatMap (fun q => guardBytes (guardForm q))
          ++ boundIn .fallback ++ boundIn .halt) (received s)))) ∧
    (∀ r : Req, r = ⟨g, tag, []⟩ →
      exec (.status r) s = .next (answered 0x73 r .done
        (putByte s.mode.code ++ [1] ++ putByte s.link.state.code ++ putByte s.link.badCount ++ putFlag s.noticesLost
          ++ putByte s.liveCount ++ putByte s.active.val
          ++ allActuators.flatMap (fun a => putByte (s.lane a).code)
          ++ allChans.flatMap (fun c => putByte (faultCode (s.chan c).fault + 4 * (s.chan c).mode.code))
          ++ allPoints.flatMap (fun p => putByte (s.pointStatus p).code)
          ++ allChans.flatMap (fun c => if (s.chan c).mode = .localDuty then putU16 (s.chan c).localDuty else []))
        { received s with noticesLost := false }))

/-! ### Lanes -/

/-- O25. -/
def Obligations.TheCandidateIsTheHighestUnmaskedEligibleOrder : Prop :=
  ∀ (s : State) (a : Actuator),
    let l := s.lane a
    let open_ := fun (c : Cls) (h : Handle) => c ∈ l.precedence ∧ (c = .guard ∨ l.mask.get c = false) ∧
      l.orderSet.get c = some h ∧ ∃ o, s.order? h = some o ∧ (o.state = .pending ∨ o.state = .governing)
    (∀ c h, s.candidate a = some (c, h) ↔
      open_ c h ∧ ∀ d k, open_ d k → ¬ l.precedence.idxOf d < l.precedence.idxOf c) ∧
    (s.candidate a = none ↔ ∀ c h, ¬ open_ c h)

/-- O26. LOWEST, MASK, UNMASK and YIELD set the lane and leave it resolved (R38), and touch no other setting. UNMASK of
the class that a lane HELD by the mask waits for returns it to DRIVEN, the GATE stepping (R60; O16 says what the step
does) and settling at once where it already stands at the target (R63), or leaves it HELD by the guard alone (R47, R51).
(Log 13 of the model.) -/
def Obligations.LowestMaskUnmaskAndYieldSetTheLane : Prop :=
  ∀ (a : Actuator) (c : Cls) (on : Bool) (tag : Word) (s : State),
    s.mode = .run → c ≠ .guard → applicable c a = true →
    let resolved := fun t => LaneLaw s → (s.lane a).state ≠ .down → Resolved t a
    let two : Req := ⟨.operator, tag, putByte a.val ++ putByte c.code⟩
    let flag : Req := ⟨.operator, tag, putByte a.val ++ putFlag on⟩
    (∃ t, exec (.lowest two) s =
        .next (answered 0x20 two .done (putClasses (t.lane a).precedence ++ t.laneReport a) t) ∧
      ((s.lane a).precedence.getLast? = some c → t = received s) ∧
      ((s.lane a).precedence.getLast? ≠ some c →
        EngineFrame ((received s).updLane a fun l => { l with precedence := lowestList a c }) t ∧ resolved t)) ∧
    (∃ t, exec (.mask two) s = .next (answered 0x21 two .done (putClasses (t.maskList a) ++ t.laneReport a) t) ∧
      ((s.lane a).mask.get c = true → t = received s) ∧
      ((s.lane a).mask.get c = false →
        EngineFrame ((received s).updLane a fun l => { l with mask := l.mask.set c true }) t ∧ resolved t)) ∧
    (∃ t, exec (.unmask two) s = .next (answered 0x22 two .done (putClasses (t.maskList a) ++ t.laneReport a) t) ∧
      ((s.lane a).mask.get c = false → t = received s) ∧
      ((s.lane a).mask.get c = true →
        EngineFrame ((received s).updLane a fun l => { l with mask := l.mask.set c false }) t ∧ resolved t)) ∧
    (∃ t, exec (.yield flag) s = .next (answered 0x23 flag .done (putFlag on ++ t.laneReport a) t) ∧
      ((s.lane a).yield = on → t = received s) ∧
      ((s.lane a).yield ≠ on →
        EngineFrame ((received s).updLane a fun l => { l with yield := on }) t ∧ resolved t)) ∧
    (∀ h o, (s.lane a).state = .held → (s.lane a).maskHold = true → (s.lane a).mask.get c = true →
      (s.lane a).gov = some h → s.order? h = some o → o.cls = c → (s.lane a).orderSet.get c = some h →
      (∀ d, d ≠ c → (s.lane a).orderSet.get d = none) → s.gateSettles = none → LaneLaw s →
      let open_ := (received s).updLane a fun l => { l with mask := l.mask.set c false }
      let masked := (cycleOf a).filter fun d => d ≠ c && (s.lane a).mask.get d
      let answer := fun (state : Byte) (t : State) =>
        exec (.unmask two) s = .next (answered 0x22 two .done (putClasses masked ++ [state] ++ putHandle (some h)) t)
      let driven := open_.updLane a fun l => { l with state := .driven, maskHold := false, guardHold := false }
      (o.frozen = true →
        answer 4 ((open_.setSlot h.slot ⟨h.gen, some { o with settled := false }⟩).updLane a fun l =>
          { l with maskHold := false, guardHold := true, detector := .idle })) ∧
      (o.frozen = false → a ≠ gate → answer 2 driven) ∧
      (o.frozen = false → a = gate →
        (((s.lane gate).command ≠ some o.target ∨ s.travel ≠ .complete ∨ o.settled = true) →
          answer 2 (gateStep o.target driven)) ∧
        ((s.lane gate).command = some o.target → s.travel = .complete → o.settled = false →
          o.completion = .standing → (∀ i, s.waitsOn i h = false) →
          answer 2 (driven.setSlot h.slot ⟨h.gen, some { o with settled := true }⟩))))

/-- O27. MASK of the governing class, with no other order on the lane: held where it stands with yield off, demoted and
at rest with yield on (R46), where the GATE steps to 0 (R60; O16 says what the step does). (Log 13 of the model.) -/
def Obligations.MaskHoldsOrDemotesTheGoverningOrder : Prop :=
  ∀ (a : Actuator) (h : Handle) (o : Order) (tag : Word) (s : State),
    s.mode = .run → s.order? h = some o → (s.lane a).gov = some h → (s.lane a).state = .driven → o.cls ≠ .guard →
    applicable o.cls a = true → (s.lane a).mask.get o.cls = false → o.state = .governing →
    (s.lane a).orderSet.get o.cls = some h → (∀ d, d ≠ o.cls → (s.lane a).orderSet.get d = none) →
    s.gateSettles = none → LaneLaw s →
    let r : Req := ⟨.operator, tag, putByte a.val ++ putByte o.cls.code⟩
    let masked := (cycleOf a).filter fun c => c = o.cls || (s.lane a).mask.get c
    ((s.lane a).yield = false →
      exec (.mask r) s = .next (answered 0x21 r .done (putClasses masked ++ [3] ++ putHandle (some h))
        (((received s).setSlot h.slot ⟨h.gen, some { o with settled := false }⟩).updLane a fun l =>
          { l with
            mask := l.mask.set o.cls true, state := .held, maskHold := true, guardHold := o.frozen
            detector := .idle }))) ∧
    ((s.lane a).yield = true →
      let resting := ((received s).setSlot h.slot ⟨h.gen, some { o with state := .pending, settled := false }⟩).updLane a
        fun l => { l with
          mask := l.mask.set o.cls true, state := .rest, gov := none, maskHold := false, guardHold := false
          detector := .idle }
      exec (.mask r) s = .next (answered 0x21 r .done (putClasses masked ++ [1] ++ noHandle)
        (if a = gate then gateStep 0 resting else resting)))

/-- O28. SET LIMITS, SET SETTLE, SET INTERLOCK, SET CALIBRATION and SET LINK store what they carry; the duties a
calibration gives (R134). (Log 13 of the model.) -/
def Obligations.SetupRequestsStoreTheirSettings : Prop :=
  ∀ (tag : Word) (s : State), s.mode = .setup →
    (∀ (a : Actuator) (lo hi : Int), a ≠ gate → limitsAllowed a lo hi = true →
      let r : Req := ⟨.operator, tag, putByte a.val ++ putS16 lo ++ putS16 hi⟩
      exec (.setLimits r) s = .next (answered 0x25 r .done (putS16 lo ++ putS16 hi)
        ((received s).updLane a fun l => { l with lo := lo, hi := hi }))) ∧
    (∀ (a : Actuator) (band : Option Int) (dwell : Option Nat), a ≠ gate → (band.isSome ∨ dwell.isSome) →
      (∀ b, band = some b → 1 ≤ b ∧ b ≤ bandMax a) → (∀ d, dwell = some d → d ≤ 5000) →
      let r : Req := ⟨.operator, tag, putByte a.val ++ putOptS16 band ++ optU16 dwell ++ optU16 none⟩
      let b := band.getD (s.lane a).band
      let d := dwell.getD (s.lane a).dwell
      exec (.setSettle r) s = .next (answered 0x26 r .done (putS16 b ++ putU16 d)
        ((received s).updLane a fun l => { l with band := b, dwell := d }))) ∧
    (∀ n : Nat, 1 ≤ n → n ≤ 30 →
      let r : Req := ⟨.operator, tag, putByte 11 ++ putOptS16 none ++ optU16 none ++ optU16 (some n)⟩
      exec (.setSettle r) s = .next (answered 0x26 r .done (putU16 n) { received s with travelLimit := n })) ∧
    (∀ (w : Fin 2) (pumpMin flowMin creep : Option Int), (pumpMin.isSome ∨ flowMin.isSome ∨ creep.isSome) →
      (∀ v, pumpMin = some v → 0 ≤ v ∧ v ≤ 1800) → (∀ v, flowMin = some v → 0 ≤ v ∧ v ≤ 1500) →
      (∀ v, creep = some v → 0 ≤ v ∧ v ≤ 350) →
      let r : Req := ⟨.operator, tag, putByte w.val ++ putOptS16 pumpMin ++ putOptS16 flowMin ++ putOptS16 creep⟩
      let x := s.interlock w
      let y : Interlock := { x with
        pumpMin := pumpMin.getD x.pumpMin, flowMin := flowMin.getD x.flowMin, creep := creep.getD x.creep }
      ∃ flag, (flag = true ↔ interlockDue s y) ∧
        exec (.setInterlock r) s =
          .next (answered 0x27 r .done (putS16 y.pumpMin ++ putS16 y.flowMin ++ putS16 y.creep)
            ((received s).setInterlock w { y with engaged := flag }))) ∧
    (∀ (a : Actuator) (low high : Nat), a ≠ gate → low ≤ 1000 → high ≤ 1000 → low ≠ high →
      let r : Req := ⟨.operator, tag, putByte a.val ++ putU16 low ++ putU16 high⟩
      let t := { received s with cals := s.cals.set a.val ⟨low, high⟩ }
      exec (.setCalibration r) s = .next (answered 0x59 r .done (putU16 low ++ putU16 high) t) ∧
        t.dutyOf a (50 * (fullRange a).1) = low ∧ t.dutyOf a (50 * (fullRange a).2) = high ∧
        (∀ v, 50 * (fullRange a).1 ≤ v → v ≤ 50 * (fullRange a).2 → calibratedDuty a low high v (t.dutyOf a v))) ∧
    (s.dutyOf gate 0 = 0 ∧ s.dutyOf gate 1 = 1000) ∧
    (∀ (silence threshold : Option Nat), (silence.isSome ∨ threshold.isSome) →
      (∀ n, silence = some n → 500 ≤ n ∧ n ≤ 10000) → (∀ n, threshold = some n → 1 ≤ n ∧ n ≤ 64) →
      let r : Req := ⟨.operator, tag, optU16 silence ++ putOptU8 threshold⟩
      let l := silence.getD s.link.silenceLimit
      let b := threshold.getD s.link.badThreshold
      exec (.setLink r) s = .next (answered 0x70 r .done (putU16 l ++ putByte b ++ [1, 0])
        { received s with link := ⟨.up, some 0, 0, l, b⟩ }))

/-- O29. The control interval: due every 20 ms; the command moves by the rate, or lands, in REST and DRIVEN; it stays in
HELD and on the GATE. (Log 2 of the model.) -/
def Obligations.ControlIntervalMovesTheCommand : Prop :=
  ∀ (a : Actuator) (n : Nat) (s : State), (s.lane a).interval = some n →
    (n < 20 → exec (.controlInterval a) s = .next s) ∧
    (20 ≤ n → ((s.lane a).state = .held ∨ a = gate) →
      exec (.controlInterval a) s = .next (s.updLane a fun l => { l with interval := some 0 })) ∧
    (∀ (c g : Int) (rate : Nat), 20 ≤ n → a ≠ gate → (s.lane a).command = some c → aimIs s a g rate →
      (∀ w, 0 ≤ (s.interlock w).creep) →
      let v := if (g - c).natAbs ≤ rate then g else if c < g then c + rate else c - rate
      ∃ t, exec (.controlInterval a) s = .next t ∧
        t.lane a = { s.lane a with interval := some 0, command := some v } ∧ (∀ b, b ≠ a → t.lane b = s.lane b) ∧
        (∀ d, (s.mapAt a).assigned ≠ some d → t.chan d = s.chan d) ∧
        (∀ d, (s.mapAt a).assigned = some d → (s.chan d).settingsKept (t.chan d) ∧
          (v ≠ c → (s.chan d).mode = .order → s.assignee d = some a → (t.chan d).output = s.dutyOf a v)) ∧
        BlocksKept s t ∧ t.slots = s.slots ∧ t.banks = s.banks ∧ t.travel = s.travel ∧
        t.interlocks = s.interlocks ∧ t.txQueue = s.txQueue ∧ t.noticesLost = s.noticesLost)

/-- O30. The settle dwell runs out on a STANDING order that nothing waits on: the order is settled, and nothing else
changes. (Log 2 of the model.) -/
def Obligations.SettleDwellExpirySettlesTheOrder : Prop :=
  ∀ (a : Actuator) (h : Handle) (o : Order) (n : Nat) (s : State),
    (s.lane a).state = .driven → (s.lane a).gov = some h → s.order? h = some o → (s.lane a).detector = .timing n →
    (n < (s.lane a).dwell → exec (.settleDwellExpiry a) s = .next s) ∧
    ((s.lane a).dwell ≤ n → o.completion = .standing → (∀ i, s.waitsOn i h = false) → s.gateSettles = none →
      exec (.settleDwellExpiry a) s =
        .next ((s.updLane a fun l => { l with detector := .settled }).setSlot h.slot
          ⟨h.gen, some { o with settled := true }⟩))

/-- O31. Where orders and lanes agree, a SETTLE order releases its dependents before it retires COMPLETED, so a dependent
is never lost to it.
(Log 11 of the model: what settles on the GATE by its retirement comes after.) -/
def Obligations.CompletionReleasesDependentsFirst : Prop :=
  ∀ (a : Actuator) (h : Handle) (o : Order) (n : Nat) (i : Slot) (d : Order) (s : State),
    (s.lane a).state = .driven → (s.lane a).gov = some h → s.order? h = some o → (s.lane a).detector = .timing n →
    (s.lane a).dwell ≤ n → o.completion = .settle → o.state = .governing →
    s.orderAt i = some d → d.state = .waiting → d.prereq = some h → d.completion = .standing → d.guards = [] →
    LaneLaw s →
    ∃ t d', exec (.settleDwellExpiry a) s = .next t ∧ t.slot h.slot = ⟨h.gen + 1, none⟩ ∧
      t.orderAt i = some d' ∧ d.kept d' ∧ (d'.state = .pending ∨ d'.state = .governing) ∧
      (s.gateSettles = none →
        (∀ j p, s.orderAt j = some p → p.state = .waiting → p.prereq = some h →
          p.guards = [] ∧ (p.actuator = gate → s.travel ≠ .complete)) →
        firstNotice s t (addressee o.cls) (.retired h o.actuator .completed)) ∧ EngineFrame s t

/-- O32. The gate travel timer completes. With no governing order, or one that does not settle by it, the timer alone
changes; a STANDING order settles, and releases what waits on it; a SETTLE order releases what waits on it and then
completes (R63, R64). (Log 2 of the model; log 11: what settles on the GATE by the completion comes after.) -/
def Obligations.GateTravelCompletionSettlesTheGate : Prop :=
  ∀ (n : Nat) (s : State), s.travel = .running n →
    let c : Instr := .gateTravelComplete
    let u : State := { s with travel := .complete }
    (n < 1000 * s.travelLimit → exec c s = .next s) ∧
    (1000 * s.travelLimit ≤ n → (s.lane gate).gov = none → exec c s = .next u) ∧
    (∀ h o, 1000 * s.travelLimit ≤ n → (s.lane gate).gov = some h → s.order? h = some o →
      let settles := (s.lane gate).state = .driven ∧ o.settled = false ∧ (s.lane gate).command = some o.target
      let elsewhere := ∀ i d, s.orderAt i = some d → s.waitsOn i h = true → d.actuator ≠ gate
      let unguarded := ∀ i d, s.orderAt i = some d → s.waitsOn i h = true → d.guards = []
      let released := fun (t : State) => ∀ i d, s.orderAt i = some d → s.waitsOn i h = true → d.guards = [] →
        ∃ d', t.orderAt i = some d' ∧ d.kept d' ∧ (d'.state = .pending ∨ d'.state = .governing) ∧
          (t.slot i).gen = (s.slot i).gen
      (¬ settles → exec c s = .next u) ∧
      (settles → o.completion = .standing → (∀ i, s.waitsOn i h = false) →
        exec c s = .next (u.setSlot h.slot ⟨h.gen, some { o with settled := true }⟩)) ∧
      (settles → o.completion = .standing → elsewhere → LaneLaw s →
        ∃ t, exec c s = .next t ∧ t.order? h = some { o with settled := true } ∧ t.travel = .complete ∧
          (t.lane gate).state = .driven ∧ (t.lane gate).gov = some h ∧ (t.lane gate).command = some o.target ∧
          released t ∧ (unguarded → t.lane gate = s.lane gate ∧ t.txQueue = s.txQueue) ∧ EngineFrame s t) ∧
      (settles → o.completion = .settle → elsewhere → LaneLaw s →
        ∃ t, exec c s = .next t ∧ t.slot h.slot = ⟨h.gen + 1, none⟩ ∧ released t ∧
          (unguarded → firstNotice s t (addressee o.cls) (.retired h gate .completed)) ∧
          ((∀ d k, (s.lane gate).orderSet.get d = some k → k = h) →
            (t.lane gate).state = .rest ∧ (t.lane gate).gov = none ∧ (t.lane gate).command = some 0 ∧
              t.travel = if o.target = 0 then .complete else .running 0) ∧
          EngineFrame s t))

/-- O33. What engages the interlock of a wheel lane, and cuts its command to the creep limit in the same step: a pump
speed below the pump minimum or a faulted pump pickup, and, with a flow minimum, a flow below it or FLOW turning STALE
or FAULTED. And what releases it with the command where it stands: the reading that leaves neither short. (Log 9 of the
model.) -/
def Obligations.InterlockEngagementCutsTheWheelCommand : Prop :=
  ∀ (w : Fin 2) (v : Int) (current : Nat) (s : State),
    let x := s.interlock w
    let m := s.module .flow
    let taken := m.status ≠ .faulted ∨ 2 ≤ m.goodRun
    let cut := fun c => ∃ t, exec c s = .next t ∧ engagedAndCut s t w
    let freed := fun c => ∃ t, exec c s = .next t ∧ releasedInPlace s t w
    (0 ≤ x.creep →
      (∀ c, x.engaged = true → (s.lane (wheelActuator w)).command = some c → -(50 * x.creep) ≤ c ∧ c ≤ 50 * x.creep) →
      (2000 ≤ current → current ≤ 20000 → 0 ≤ v → v ≤ 2000 → (s.directAt 10).status ≠ .faulted → v < x.pumpMin →
        cut (.directSample 10 current (1000 * v))) ∧
      (deadSample 10 current v → (s.directAt 10).status ≠ .faulted → cut (.directSample 10 current v)) ∧
      (x.flowMin ≠ 0 →
        (readingsOf .flow [v] → taken → v < x.flowMin → cut (.moduleReadingFrame (moduleFrame .flow [v]))) ∧
        (∀ n, m.stale = some n → m.staleLimit ≤ n → cut (.moduleStaleExpiry .flow)) ∧
        (∀ rest : List Byte, m.badCount ≤ 255 → m.status ≠ .faulted → m.threshold ≤ min 255 (m.badCount + 1) →
          (¬ ∃ vs, readingsOf .flow vs ∧ BitVec.ofNat 8 (Module.code .flow + 1) :: rest = moduleFrame .flow vs) →
          cut (.moduleReadingFrame (BitVec.ofNat 8 (Module.code .flow + 1) :: rest))))) ∧
    (2000 ≤ current → current ≤ 20000 → 0 ≤ v → v ≤ 2000 → (s.directAt 10).status ≠ .faulted → x.pumpMin ≤ v →
      (x.flowMin = 0 ∨ ¬ shortOf s 13 x.flowMin) → freed (.directSample 10 current (1000 * v))) ∧
    (readingsOf .flow [v] → taken → (x.flowMin = 0 ∨ x.flowMin ≤ v) → ¬ shortOf s 10 x.pumpMin →
      freed (.moduleReadingFrame (moduleFrame .flow [v])))

/-- O34. (Log 2, 11 of the model.) -/
def Obligations.GuardDwellExpiryActs : Prop :=
  ∀ (h : Handle) (g : Fin 2) (o : Order) (e : GuardEntry) (n : Nat) (s : State),
    s.order? h = some o → o.guards[g.val]? = some e → e.cond = .timing n →
    let o' : Order := { o with guards := o.guards.set g.val { e with cond := .active } }
    (n < e.guard.dwell → exec (.guardDwellExpiry h g) s = .next s) ∧
    (e.guard.dwell ≤ n → e.guard.action = .retire →
      ∃ t, exec (.guardDwellExpiry h g) s = .next t ∧ t.slot h.slot = ⟨h.gen + 1, none⟩ ∧
        (s.noticeCount < 16 →
          ∃ ns, t.txQueue = s.txQueue ++ .notice (addressee o.cls) (.retired h o.actuator .guardTrip) :: ns) ∧
        EngineFrame s t) ∧
    (e.guard.dwell ≤ n → e.guard.action = .freeze → o.state ≠ .governing →
      exec (.guardDwellExpiry h g) s = .next (s.setSlot h.slot ⟨h.gen, some o'⟩)) ∧
    (e.guard.dwell ≤ n → e.guard.action = .freeze → o.state = .governing →
      (s.lane o.actuator).gov = some h →
      exec (.guardDwellExpiry h g) s =
        .next ((s.setSlot h.slot ⟨h.gen, some { o' with settled := false }⟩).updLane o.actuator fun l =>
          { l with state := .held, guardHold := true, maskHold := l.masked o.cls, detector := .idle }))

/-! ### Measurement -/

/-- O35. A direct sample at its point; at the settle detector of the lane whose feedback it is (R61, R62), no guard
watching the point; and at a guard that alone watches it (R75 to R78), no detector or interlock moved by it. (Log 8, 9,
10, 11, 24 of the model: the recovery timer, raw signals, a GATE settle after the retirement, the POINT notice after
what the users cause.) -/
def Obligations.DirectSamplesAreTakenFaultAndRecover : Prop :=
  ∀ (p : DirectPoint) (current : Nat) (speed : Int) (s : State),
    let d := s.directAt p
    let taken := fun v => ∃ t, exec (.directSample p current speed) s = .next t ∧
      ReadingFrame (s.setDirect p ⟨.valid, some v, none⟩) t
    (∀ v, liveSample p current speed v → d.status ≠ .faulted → taken v) ∧
    (deadSample p current speed → d.status ≠ .faulted →
      ∃ t, exec (.directSample p current speed) s = .next t ∧
        ReadingFrame (s.setDirect p ⟨.faulted, d.value, none⟩) t ∧ newestNotice t .operator (.pointFaulted p)) ∧
    (deadSample p current speed → d.status = .faulted →
      exec (.directSample p current speed) s = .next (s.setDirect p { d with recovery := none })) ∧
    (∀ v, liveSample p current speed v → d.status = .faulted →
      (d.recovery = none →
        exec (.directSample p current speed) s = .next (s.setDirect p { d with recovery := some 0 })) ∧
      (∀ n, d.recovery = some n → n + 20 < 1000 →
        exec (.directSample p current speed) s = .next (s.setDirect p { d with recovery := some (n + 20) })) ∧
      (∀ n, d.recovery = some n → 1000 ≤ n + 20 → taken v)) ∧
    (∀ a h o, a.val = p.val → (s.lane a).state = .driven → (s.lane a).gov = some h → s.order? h = some o → LaneLaw s →
      (∀ i q e, s.orderAt i = some q → e ∈ q.guards → e.guard.point.val ≠ p.val) → d.status ≠ .faulted →
      0 ≤ (s.lane a).band →
      let restarted := fun t : State =>
        t.lane a = { s.lane a with detector := .idle } ∧ t.order? h = some { o with settled := false }
      (deadSample p current speed → ∃ t, exec (.directSample p current speed) s = .next t ∧ restarted t) ∧
      (∀ v, liveSample p current speed v → ∃ t, exec (.directSample p current speed) s = .next t ∧
        ((s.lane a).band < (v - o.target).natAbs → restarted t) ∧
        ((v - o.target).natAbs ≤ (s.lane a).band →
          ((s.lane a).detector = .idle → (s.lane a).command = some (50 * o.target) →
            (0 < (s.lane a).dwell →
              t.lane a = { s.lane a with detector := .timing 0 } ∧ t.order? h = some o) ∧
            ((s.lane a).dwell = 0 → o.completion = .standing → (∀ i, s.waitsOn i h = false) → s.gateSettles = none →
              t.lane a = { s.lane a with detector := .settled } ∧ t.order? h = some { o with settled := true })) ∧
          ((s.lane a).detector ≠ .idle ∨ (s.lane a).command ≠ some (50 * o.target) →
            t.lane a = s.lane a ∧ t.order? h = some o)))) ∧
    (∀ h g o e, SoleGuard s [⟨p.val, by omega⟩] h g o e →
      (∀ a, a.val = p.val → (s.lane a).state ≠ .driven ∧ o.actuator ≠ a) →
      (∀ v,
        let u := s.setDirect p ⟨.valid, some v, none⟩
        liveSample p current speed v → (d.status ≠ .faulted ∨ ∃ n, d.recovery = some n ∧ 1000 ≤ n + 20) →
        (p = 10 → interlocksStand u) →
        ∃ t, exec (.directSample p current speed) s = .next t ∧ GuardEvaluated u h g o e (violates e.guard v) t) ∧
      (deadSample p current speed → d.status ≠ .faulted →
        let u := s.setDirect p ⟨.faulted, d.value, none⟩
        (p = 10 → interlocksStand u) →
        ∃ t, exec (.directSample p current speed) s = .next (queueNotice .operator (.pointFaulted p) t) ∧
          GuardEvaluated u h g o e True t))

/-- O36. A frame of the sensor loop at its module, and at a guard that alone watches the module's points, no interlock
moved by it: the evaluations of R75 to R78, with the actions of R80 to R82 where they are due at once. (Log 11, 24 of
the model: a GATE settle after the retirement, the POINT notice after what the users cause.) -/
def Obligations.ModuleFramesAreTakenOrCharged : Prop :=
  ∀ (m : Module) (s : State),
    let x := s.module m
    (∀ vs, readingsOf m vs → (x.status ≠ .faulted ∨ 2 ≤ x.goodRun) →
      ∃ t, exec (.moduleReadingFrame (moduleFrame m vs)) s = .next t ∧
        t.module m = { x with status := .valid, badCount := 0, goodRun := 0, stale := some 0 } ∧
        (∀ n, n ≠ m → t.module n = s.module n) ∧
        (∀ k (h : k < vs.length) (h' : k < (moduleValues m).length), t.modValue (moduleValues m)[k] = some vs[k]) ∧
        (∀ k, k ∉ moduleValues m → t.modValue k = s.modValue k) ∧
        ReadingFrame { s with modules := t.modules, modValues := t.modValues } t) ∧
    (∀ vs, readingsOf m vs → x.status = .faulted → x.goodRun < 2 →
      exec (.moduleReadingFrame (moduleFrame m vs)) s =
        .next (s.setModule m { x with badCount := 0, goodRun := x.goodRun + 1 })) ∧
    (∀ rest : List Byte, x.badCount ≤ 255 →
      (¬ ∃ vs, readingsOf m vs ∧ BitVec.ofNat 8 (m.code + 1) :: rest = moduleFrame m vs) →
      let bytes : List Byte := BitVec.ofNat 8 (m.code + 1) :: rest
      let n := min 255 (x.badCount + 1)
      (x.status = .faulted ∨ n < x.threshold →
        exec (.moduleReadingFrame bytes) s = .next (s.setModule m { x with badCount := n, goodRun := 0 })) ∧
      (x.status ≠ .faulted → x.threshold ≤ n →
        ∃ t, exec (.moduleReadingFrame bytes) s = .next t ∧
          ReadingFrame (s.setModule m { x with status := .faulted, badCount := n, goodRun := 0, stale := none }) t ∧
          newestNotice t .operator (.moduleFaulted m))) ∧
    (∀ (b : Byte) (rest : List Byte), (b.toNat = 0 ∨ 4 < b.toNat) →
      exec (.moduleReadingFrame (b :: rest)) s = .next s) ∧
    (∀ h g o e, SoleGuard s ((moduleValues m).map valuePoint) h g o e →
      (∀ vs k v,
        let u := setReadings m vs
          (s.setModule m { x with status := .valid, badCount := 0, goodRun := 0, stale := some 0 })
        readingsOf m vs → (x.status ≠ .faulted ∨ 2 ≤ x.goodRun) → (k, v) ∈ (moduleValues m).zip vs →
        e.guard.point = valuePoint k → (m = .flow → interlocksStand u) →
        ∃ t, exec (.moduleReadingFrame (moduleFrame m vs)) s = .next t ∧
          GuardEvaluated u h g o e (violates e.guard v) t) ∧
      (∀ rest : List Byte,
        let n := min 255 (x.badCount + 1)
        let u := s.setModule m { x with status := .faulted, badCount := n, goodRun := 0, stale := none }
        x.badCount ≤ 255 → x.status ≠ .faulted → x.threshold ≤ n →
        (¬ ∃ vs, readingsOf m vs ∧ BitVec.ofNat 8 (m.code + 1) :: rest = moduleFrame m vs) →
        (m = .flow → interlocksStand u) →
        ∃ t, exec (.moduleReadingFrame (BitVec.ofNat 8 (m.code + 1) :: rest)) s =
            .next (queueNotice .operator (.moduleFaulted m) t) ∧ GuardEvaluated u h g o e True t) ∧
      (∀ n,
        let u := s.setModule m { x with status := .stale, stale := none }
        x.stale = some n → x.staleLimit ≤ n → (m = .flow → interlocksStand u) →
        ∃ t, exec (.moduleStaleExpiry m) s = .next t ∧ GuardEvaluated u h g o e True t))

/-- O37. The stale timers of the modules and of DEP, and the requests that set their limits. (Log 2, 13,
26 of the model.) -/
def Obligations.StaleTimersAndTheirLimits : Prop :=
  ∀ (m : Module) (tag : Word) (s : State),
    let x := s.module m
    ((∀ n, x.stale = some n → n < x.staleLimit) → exec (.moduleStaleExpiry m) s = .next s) ∧
    (∀ n, x.stale = some n → x.staleLimit ≤ n →
      ∃ t, exec (.moduleStaleExpiry m) s = .next t ∧
        ReadingFrame (s.setModule m { x with status := .stale, stale := none }) t) ∧
    ((∀ n, s.depth.stale = some n → n < 1000 * s.depth.staleLimit) → exec .depthStaleExpiry s = .next s) ∧
    (∀ n, s.depth.stale = some n → 1000 * s.depth.staleLimit ≤ n →
      ∃ t, exec .depthStaleExpiry s = .next t ∧
        ReadingFrame { s with depth := { s.depth with status := .stale, stale := none } } t ∧
        ∀ h g o e, SoleGuard s [16] h g o e →
          GuardEvaluated { s with depth := { s.depth with status := .stale, stale := none } } h g o e True t) ∧
    (∀ threshold limit : Option Nat, s.mode = .setup → (threshold.isSome ∨ limit.isSome) →
      (∀ n, threshold = some n → 1 ≤ n ∧ n ≤ 255) → (∀ n, limit = some n → 100 ≤ n ∧ n ≤ 5000) →
      let r : Req := ⟨.operator, tag, putByte m.code ++ putOptU8 threshold ++ optU16 limit⟩
      let k := threshold.getD x.threshold
      let l := limit.getD x.staleLimit
      ∃ t, exec (.setModule r) s =
          .next (answered 0x33 r .done (putByte k ++ putU16 l ++ putByte (t.module m).status.code) t) ∧
        (t.module m).threshold = k ∧ (t.module m).staleLimit = l ∧ (t.module m).badCount = x.badCount ∧
        (x.status ≠ .faulted → k ≤ x.badCount → (t.module m).status = .faulted) ∧
        ((x.status = .faulted ∨ x.badCount < k) → (∀ n, x.stale = some n → n < l) →
          t = (received s).setModule m { x with threshold := k, staleLimit := l }) ∧
        (x.badCount < k → (∃ n, x.stale = some n ∧ l ≤ n) → (t.module m).status = .stale) ∧
        ReadingFrame { received s with modules := t.modules } t) ∧
    (∀ n : Nat, s.mode = .setup → 1 ≤ n → n ≤ 60 →
      let r : Req := ⟨.operator, tag, putU16 n⟩
      ∃ t, exec (.setDepthStale r) s =
          .next (answered 0x34 r .done (putU16 n ++ putByte t.depth.status.code) t) ∧
        ((∀ k, s.depth.stale = some k → k < 1000 * n) →
          t = { received s with depth := { s.depth with staleLimit := n } }) ∧
        (∀ k, s.depth.stale = some k → 1000 * n ≤ k →
          t.depth = { s.depth with status := .stale, stale := none, staleLimit := n }) ∧
        ReadingFrame { received s with depth := t.depth } t)

/-- O38. DEPTH at the measurement unit: DEP takes the depth, and the drift estimate steps, goes STALE or stays; and at a
guard that alone watches DEP, DRX and DRY, with no plan in force. (Log 11 of the model.) -/
def Obligations.DepthNotesStepTheDriftEstimate : Prop :=
  ∀ (d : Int) (tag : Word) (s : State), 0 ≤ d → d ≤ 25000 →
    let r : Req := ⟨.operator, tag, putS16 d⟩
    ∃ t, exec (.depth r) s = .next (answered 0x30 r .done
        (putS16 d ++ putByte t.drift.status.code ++ putS16 t.drift.x ++ putS16 t.drift.y ++ putByte s.active.val) t) ∧
      t.depth = { s.depth with value := some d, status := .valid, stale := some 0 } ∧
      (s.depth.value = none → t.drift = s.drift) ∧
      (∀ p, s.depth.value = some p →
        ((200 < (d - p).natAbs ∨ (s.module .tilt).status ≠ .valid) →
          t.drift = { s.drift with status := .stale, remX := 0, remY := 0 }) ∧
        ((d - p).natAbs ≤ 200 → (s.module .tilt).status = .valid → s.drift.status ≠ .valid → t.drift = s.drift) ∧
        (∀ inx iny, (d - p).natAbs ≤ 200 → (s.module .tilt).status = .valid → s.drift.status = .valid →
          s.modValue 0 = some inx → s.modValue 1 = some iny →
          t.drift.status = .valid ∧ axisStep (d - p) inx s.drift.x s.drift.remX t.drift.x t.drift.remX ∧
            axisStep (d - p) iny s.drift.y s.drift.remY t.drift.y t.drift.remY)) ∧
      BlocksKept { received s with depth := t.depth, drift := t.drift } t ∧
      ∀ h g o e, SoleGuard s [16, 17, 18] h g o e → (∀ e', s.entry s.active e' = none) →
        let u := { received s with depth := t.depth, drift := t.drift }
        (e.guard.point = 16 → GuardEvaluated u h g o e (violates e.guard d) t) ∧
        (e.guard.point ≠ 16 →
          ((s.depth.value = none ∨ s.drift.status ≠ .valid) → t = u) ∧
          (∀ p, s.depth.value = some p → s.drift.status = .valid →
            ((200 < (d - p).natAbs ∨ (s.module .tilt).status ≠ .valid) → GuardEvaluated u h g o e True t) ∧
            ((d - p).natAbs ≤ 200 → (s.module .tilt).status = .valid →
              GuardEvaluated u h g o e
                (violates e.guard (if e.guard.point = 17 then t.drift.x else t.drift.y)) t)))

/-! ### The plan -/

/-- O39. DEPTH at the plan store in RUN, with no guard in force: entries out of band take their position, a CLEARED,
SKIPPED or LIVE entry in band stays as it is and spawns nothing, an entry that comes into band spawns its PLAN order or
is SKIPPED with its notice, and the PLAN order of a LIVE entry that leaves its band retires OUT_OF_BAND. (Log 11 of the
model, for an order on the GATE.) -/
def Obligations.DepthNotesRunThePlan : Prop :=
  ∀ (d : Int) (tag : Word) (s : State), 0 ≤ d → d ≤ 25000 → s.mode = .run →
    (∀ i o, s.orderAt i = some o → o.guards = []) →
    let r : Req := ⟨.operator, tag, putS16 d⟩
    let others := fun e => ∀ e' y, e' ≠ e → s.entry s.active e' = some y →
      (d < y.depthFrom ∨ y.depthTo ≤ d) ∧ ∀ h, y.state ≠ .live h
    ((∀ e x h, s.entry s.active e = some x → (d < x.depthFrom ∨ x.depthTo ≤ d) → x.state ≠ .live h) →
    ((∀ e x, s.entry s.active e = some x → x.depthFrom ≤ d → d < x.depthTo → x.state ≠ .ahead ∧ x.state ≠ .passed) →
      ∃ t body, exec (.depth r) s = .next (answered 0x30 r .done body t) ∧ t.slots = s.slots ∧ t.lanes = s.lanes ∧
        t.txQueue = s.txQueue ∧ (∀ e, t.entry s.shadow e = s.entry s.shadow e) ∧
        (∀ e x, s.entry s.active e = some x → x.depthFrom ≤ d → d < x.depthTo → t.entry s.active e = some x) ∧
        (∀ e x, s.entry s.active e = some x → x.state ≠ .dormant → x.depthFrom ≤ x.depthTo →
          (d < x.depthFrom → t.entry s.active e = some { x with state := .ahead }) ∧
          (x.depthTo ≤ d → t.entry s.active e = some { x with state := .passed }))) ∧
    (∀ e x i, s.entry s.active e = some x → x.depthFrom ≤ d → d < x.depthTo → (x.state = .ahead ∨ x.state = .passed) →
      (∀ e' y, e' ≠ e → s.entry s.active e' = some y → (d < y.depthFrom ∨ y.depthTo ≤ d)) →
      (s.lane x.actuator).state ≠ .down → inRange ((s.lane x.actuator).lo, (s.lane x.actuator).hi) x.target = true →
      s.findOrder x.actuator .plan = none → s.freeSlot? = some i → x.actuator ≠ gate → LaneLaw s →
      ∃ t p body, exec (.depth r) s = .next (answered 0x30 r .done body t) ∧
        t.entry s.active e = some { x with state := .live (s.handleAt i) } ∧
        t.order? (s.handleAt i) = some p ∧ p.cls = .plan ∧ p.actuator = x.actuator ∧ p.target = x.target ∧
        p.ramp = x.ramp ∧ p.completion = .standing ∧ p.prereq = none ∧ p.guards = [] ∧ p.lease = none ∧
        p.tethered = false ∧ p.planEntry = some (s.active, e) ∧ p.template = none)) ∧
    (∀ e x why, s.entry s.active e = some x → x.depthFrom ≤ d → d < x.depthTo → (x.state = .ahead ∨ x.state = .passed) →
      others e →
      ((why = .down ∧ (s.lane x.actuator).state = .down) ∨
        (why = .limits ∧ (s.lane x.actuator).state ≠ .down ∧
          inRange ((s.lane x.actuator).lo, (s.lane x.actuator).hi) x.target = false) ∨
        (why = .full ∧ (s.lane x.actuator).state ≠ .down ∧
          inRange ((s.lane x.actuator).lo, (s.lane x.actuator).hi) x.target = true ∧ s.freeSlot? = none)) →
      ∃ t body, exec (.depth r) s = .next (answered 0x30 r .done body t) ∧ t.slots = s.slots ∧ t.lanes = s.lanes ∧
        t.entry s.active e = some { x with state := .skipped } ∧
        (s.noticeCount < 16 →
          t.txQueue = s.txQueue ++ [.notice .operator (.entrySkipped s.active e x.actuator why)])) ∧
    (∀ e x h o, s.entry s.active e = some x → x.state = .live h → s.order? h = some o →
      (d < x.depthFrom ∨ x.depthTo ≤ d) → x.depthFrom ≤ x.depthTo → others e →
      ∃ t body, exec (.depth r) s = .next (answered 0x30 r .done body t) ∧
        t.slot h.slot = ⟨h.gen + 1, none⟩ ∧ firstNotice s t (addressee o.cls) (.retired h o.actuator .outOfBand) ∧
        (d < x.depthFrom → t.entry s.active e = some { x with state := .ahead }) ∧
        (x.depthTo ≤ d → t.entry s.active e = some { x with state := .passed }))

/-- O40. The drift estimate: seeded by SET DRIFT, changed by nothing but depth notes, seeds and power-on (bytes on the
pair that hold no valid frame are neither), and always within its ranges (R105). SET DRIFT at a guard that alone watches
DRX and DRY. (Log 11 of the model.) -/
def Obligations.TheDriftEstimateChangesAtNotesAndSeedsAlone : Prop :=
  (∀ (x y : Int) (g : Origin) (tag : Word) (s : State), g ≠ .plant → -32767 ≤ x → x ≤ 32767 → -32767 ≤ y → y ≤ 32767 →
    let r : Req := ⟨g, tag, putS16 x ++ putS16 y⟩
    ∃ t, exec (.setDrift r) s = .next (answered 0x31 r .done (putS16 x ++ putS16 y) t) ∧
      ReadingFrame { received s with drift := ⟨x, y, .valid, 0, 0⟩ } t ∧
      ∀ h k o e, SoleGuard s [17, 18] h k o e →
        GuardEvaluated { received s with drift := ⟨x, y, .valid, 0, 0⟩ } h k o e
          (violates e.guard (if e.guard.point = 17 then x else y)) t) ∧
  (∀ (c : Instr) (s t : State), exec c s = .next t →
    c ≠ .powerOn → (∀ r, c ≠ .depth r) → (∀ r, c ≠ .setDrift r) →
    (∀ b, c = .badFrame b ∨ c = .interByteTimeout b → noRequestIn s.rx b) → t.drift = s.drift) ∧
  (∀ (c : Instr) (s t : State), exec c s = .next t →
    (s.drift.x.natAbs ≤ 32767 ∧ s.drift.y.natAbs ≤ 32767 ∧ s.drift.remX.natAbs ≤ 999 ∧ s.drift.remY.natAbs ≤ 999 ∧
      s.drift.status ≠ .faulted) →
    t.drift.x.natAbs ≤ 32767 ∧ t.drift.y.natAbs ≤ 32767 ∧ t.drift.remX.natAbs ≤ 999 ∧ t.drift.remY.natAbs ≤ 999 ∧
      t.drift.status ≠ .faulted) ∧
  State.reset.drift = ⟨0, 0, .stale, 0, 0⟩

/-- O41. -/
def Obligations.PutEntryWritesTheShadowBankUnlessItOverlaps : Prop :=
  ∀ (g : Origin) (tag : Word) (e : EntryIx) (a : Actuator) (from_ to_ target : Int) (ramp : Nat) (s : State),
    g ≠ .plant → 0 ≤ from_ → from_ + 10 ≤ to_ → to_ ≤ 25000 → a.val < 10 →
    inRange ((s.lane a).lo, (s.lane a).hi) target = true → fits16 target → ramp ≤ maxRamp a →
    let r : Req := ⟨g, tag, putByte e.val ++ putS16 from_ ++ putS16 to_ ++ putByte a.val ++ putS16 target ++ putU16 ramp⟩
    let meets := fun e' => ∃ y, s.entry s.shadow e' = some y ∧ e' ≠ e ∧ y.actuator = a ∧
      from_ < y.depthTo ∧ y.depthFrom < to_
    ((∀ e', ¬ meets e') →
      exec (.putEntry r) s = .next (answered 0x40 r .done (putByte s.shadow.val ++ putByte e.val)
        ((received s).setEntry s.shadow e
          (some ⟨from_, to_, a, target, if ramp = 0 then none else some ramp, .dormant⟩)))) ∧
    (∀ e', meets e' → (∀ e'', e'' < e' → ¬ meets e'') →
      exec (.putEntry r) s = .next (answered 0x40 r .overlap (putByte e'.val) (received s)))

/-- O42. DROP ENTRY and CLEAR SHADOW whole: who may send them, what makes the body malformed, and what they empty. -/
def Obligations.DropEntryAndClearShadowEmptyTheShadowBank : Prop :=
  ∀ (r : Req) (s : State), r.body.length ≤ 120 →
    (r.origin = .plant →
      exec (.dropEntry r) s = .next (answered 0x41 r .notPermitted [] (received s)) ∧
      exec (.clearShadow r) s = .next (answered 0x42 r .notPermitted [] (received s))) ∧
    (r.origin ≠ .plant →
      (r.body.length ≠ 1 → exec (.dropEntry r) s = .next (answered 0x41 r .badField [] (received s))) ∧
      (∀ b : Byte, r.body = [b] → 24 ≤ b.toNat →
        exec (.dropEntry r) s = .next (answered 0x41 r .outOfRange [] (received s))) ∧
      (∀ e : EntryIx, r.body = putByte e.val →
        exec (.dropEntry r) s = .next (answered 0x41 r .done
          (putByte s.shadow.val ++ putByte e.val ++ putFlag (s.entry s.shadow e).isSome)
          ((received s).setEntry s.shadow e none))) ∧
      (r.body ≠ [] → exec (.clearShadow r) s = .next (answered 0x42 r .badField [] (received s))) ∧
      (r.body = [] →
        exec (.clearShadow r) s = .next (answered 0x42 r .done
          (putByte s.shadow.val ++ putByte (allEntries.filter fun e => (s.entry s.shadow e).isSome).length)
          { received s with banks := s.banks.set s.shadow.val (Vector.replicate 24 none) })))

/-- O43. SWAP: in SETUP the roles alone; in RUN the PLAN orders of LIVE entries retire PLAN_SWAP, the bank that was
active sleeps, the other is placed against the depth, and no entry's fields change. (Log 11 of the model, for an order
on the GATE.) -/
def Obligations.SwapExchangesTheBanks : Prop :=
  ∀ (g : Origin) (tag : Word) (s : State), g ≠ .plant →
    let r : Req := ⟨g, tag, []⟩
    (s.mode = .setup → exec (.swap r) s =
      .next (answered 0x44 r .done (putByte s.shadow.val ++ [0, 0, 0]) { received s with active := s.shadow })) ∧
    (s.mode = .run → ∃ t, exec (.swap r) s = .next (answered 0x44 r .done
        (putByte s.shadow.val ++ putByte s.liveEntries ++ putByte t.liveEntries ++ putByte t.skippedEntries) t) ∧
      BlocksKept { received s with active := s.shadow } t ∧
      (∀ b e, (t.entry b e).map PlanEntry.fields = (s.entry b e).map PlanEntry.fields) ∧
      (∀ e x h o, s.entry s.active e = some x → x.state = .live h → s.order? h = some o →
        (∀ e' y k, e' < e → s.entry s.active e' = some y → y.state ≠ .live k) →
        firstNotice s t (addressee o.cls) (.retired h o.actuator .planSwap) ∧
        ((∀ e', s.entry s.shadow e' = none) → t.slot h.slot = ⟨h.gen + 1, none⟩)) ∧
      (∀ e x h o, s.entry s.active e = some x → x.state = .live h → s.order? h = some o →
        (∀ i p, s.orderAt i = some p → p.state ≠ .waiting) → s.travel ≠ .complete →
        s.noticeCount + s.liveEntries ≤ 16 →
        .notice (addressee o.cls) (.retired h o.actuator .planSwap) ∈ t.txQueue) ∧
      ((∀ i o, s.orderAt i = some o → o.cls = .plan ∨ o.planEntry ≠ none →
          ∃ e x, o.planEntry = some (s.active, e) ∧ s.entry s.active e = some x ∧ x.state = .live (s.handleAt i)) →
        (∀ e x h o, s.entry s.active e = some x → x.state = .live h → s.order? h = some o → t.order? h = none) ∧
        (∀ e x, t.entry s.active e = some x → x.state = .dormant) ∧
        (∀ e x, t.entry s.shadow e = some x →
          (s.depth.value = none → x.state = .ahead) ∧
          (∀ d, s.depth.value = some d → d < x.depthFrom → x.depthFrom ≤ x.depthTo → x.state = .ahead) ∧
          (∀ d, s.depth.value = some d → x.depthTo ≤ d → x.depthFrom ≤ x.depthTo → x.state = .passed))))

/-! ### Channels and the map -/

/-- O44. A fault report: recorded alone; on an actuator that moves to its spare; and on one that goes DOWN, with the
DRIVE_LOST retirements and their cascades (R34, R138), the entries of PLAN orders CLEARED (R120) and the GATE's travel
timer cleared (R60). -/
def Obligations.AFaultReportMovesTheActuatorOrTakesItDown : Prop :=
  ∀ (c : Chan) (k : FaultKind) (s : State), MapLaw s →
    ((s.mode = .setup ∨ (s.chan c).fault ≠ none ∨ ∀ a, (s.mapAt a).assigned ≠ some c) →
      exec (.channelFaultReport c k) s = .next (s.setChan c { s.chan c with fault := some k })) ∧
    (∀ a, s.mode = .run → (s.chan c).fault = none → (s.mapAt a).assigned = some c →
      (∀ sp, (s.mapAt a).frozen = false → (s.mapAt a).spare = some sp → (s.chan sp).fault = none →
        (∀ b, (s.mapAt b).assigned ≠ some sp) →
        ∃ t, exec (.channelFaultReport c k) s = .next t ∧
          t.mapAt a = { s.mapAt a with assigned := some sp } ∧ (∀ b, b ≠ a → t.mapAt b = s.mapAt b) ∧
          t.chan c = { s.chan c with fault := some k, mode := .released, output := 0 } ∧
          (t.chan sp).fault = none ∧ (t.chan sp).mode = (s.chan c).mode ∧
          (t.chan sp).localDuty = (s.chan c).localDuty ∧
          (∀ v, (s.chan c).mode = .order → (s.lane a).command = some v → (t.chan sp).output = s.dutyOf a v) ∧
          ((s.chan c).mode = .localDuty → (t.chan sp).output = (s.chan c).localDuty) ∧
          (∀ d, d ≠ c → d ≠ sp → t.chan d = s.chan d) ∧ t.lanes = s.lanes ∧ t.slots = s.slots ∧ t.banks = s.banks ∧
          (s.noticeCount < 16 → t.txQueue = s.txQueue ++ [.notice .operator (.remapped a (some c) sp)]) ∧
          BlocksKept { s with map := t.map } t) ∧
      (((s.mapAt a).frozen = true ∨ (s.mapAt a).spare = none ∨
          ∃ sp, (s.mapAt a).spare = some sp ∧ ((s.chan sp).fault ≠ none ∨ ∃ b, (s.mapAt b).assigned = some sp)) →
        ∃ t, exec (.channelFaultReport c k) s = .next t ∧
          (t.lane a).state = .down ∧ (t.lane a).gov = none ∧ (t.lane a).command = none ∧
          (t.lane a).interval = none ∧ (t.lane a).detector = .idle ∧ (t.lane a).maskHold = false ∧
          (t.lane a).guardHold = false ∧
          t.mapAt a = { s.mapAt a with assigned := none } ∧ (∀ b, b ≠ a → t.mapAt b = s.mapAt b) ∧
          t.chan c = { s.chan c with fault := some k, mode := .released, output := 0 } ∧
          t.travel = (if a = gate then .cleared else s.travel) ∧
          (∀ i o, t.orderAt i = some o → o.actuator ≠ a) ∧ OrdersKept s t ∧
          (let gone := fun i => ∃ j o, s.orderAt j = some o ∧ o.actuator = a ∧ s.goesWith (s.handleAt j) i = true;
            (∀ i, gone i → t.slot i = ⟨(s.slot i).gen + 1, none⟩) ∧ (∀ i, ¬ gone i → t.slot i = s.slot i) ∧
              ∀ i o b e x, gone i → s.orderAt i = some o → o.planEntry = some (b, e) → s.entry b e = some x →
                t.entry b e = some { x with state := .cleared }) ∧
          (s.noticeCount < 16 → ∃ ns, t.txQueue = s.txQueue ++ .notice .operator (.down a (some c)) :: ns) ∧
          (∀ i o, s.orderAt i = some o → o.actuator = a →
            (∀ j p, j < i → s.orderAt j = some p → p.actuator ≠ a) → s.noticeCount + 2 ≤ 16 →
            ∃ ns, t.txQueue = s.txQueue ++ .notice .operator (.down a (some c)) ::
              .notice (addressee o.cls) (.retired (s.handleAt i) a .driveLost) :: ns) ∧
          BlocksKept { s with map := t.map } t))

/-- O45. MAP in SETUP, in RUN on a lane that is not DOWN, and in RUN on a DOWN lane. -/
def Obligations.MapAssignsMovesOrBringsBack : Prop :=
  ∀ (a : Actuator) (c : Chan) (tag : Word) (s : State), kindsMatch a c = true → (s.chan c).fault = none →
    (∀ b, (s.mapAt b).assigned = some c → b = a) →
    let r : Req := ⟨.operator, tag, putByte a.val ++ putByte c.val⟩
    ∃ t, exec (.mapActuator r) s = .next (answered 0x50 r .done
        (putByte a.val ++ putByte c.val ++ putByte (t.chan c).mode.code ++ putU16 (t.chan c).output
          ++ putByte (t.lane a).code) t) ∧
      t.mapAt a = { s.mapAt a with assigned := some c } ∧ (∀ b, b ≠ a → t.mapAt b = s.mapAt b) ∧
      BlocksKept { received s with map := t.map } t ∧ t.interlocks = s.interlocks ∧ t.noticesLost = s.noticesLost ∧
      t.slots = s.slots ∧ t.banks = s.banks ∧ t.txQueue = s.txQueue ∧ (∀ b, b ≠ a → t.lane b = s.lane b) ∧
      (∀ d, d ≠ c → (s.mapAt a).assigned ≠ some d → t.chan d = s.chan d) ∧
      ((s.mapAt a).assigned = some c → t = received s) ∧
      (s.mode = .setup → t.chans = s.chans ∧ t.lanes = s.lanes ∧ t.travel = s.travel) ∧
      (∀ old, s.mode = .run → (s.lane a).state ≠ .down → (s.mapAt a).assigned = some old → old ≠ c →
        t.lanes = s.lanes ∧ t.travel = s.travel ∧
        t.chan old = { s.chan old with mode := .released, output := 0 } ∧
        (t.chan c).mode = (s.chan old).mode ∧ (t.chan c).localDuty = (s.chan old).localDuty ∧
        (∀ v, (s.chan old).mode = .order → (s.lane a).command = some v → (t.chan c).output = s.dutyOf a v)) ∧
      (s.mode = .run → (s.lane a).state = .down → (s.mapAt a).assigned = none → CommandLaw s →
        (t.lane a).state = .rest ∧ (t.lane a).gov = none ∧ (t.lane a).interval = some 0 ∧
        (t.lane a).detector = .idle ∧ (∃ v, (t.lane a).command = some v ∧ startValue s a v ∧
          ((s.chan c).mode ≠ .localDuty → (t.chan c).output = s.dutyOf a v)) ∧
        (t.chan c).mode = (if (s.chan c).mode = .localDuty then .localDuty else .order) ∧
        (t.chan c).localDuty = (s.chan c).localDuty)

/-- O46. SPARE, FREEZE MAP, THAW and CLEAR FAULT store what they say and change nothing else. (Log 13 of the model.) -/
def Obligations.MapSettingsAndFaultsAreStored : Prop :=
  ∀ (a : Actuator) (c : Chan) (tag : Word) (s : State),
    let m := s.mapAt a
    (kindsMatch a c = true →
      ∀ r : Req, r = ⟨.operator, tag, putByte a.val ++ putByte c.val⟩ →
      exec (.spare r) s = .next (answered 0x51 r .done (optChan m.assigned ++ putByte c.val)
        ((received s).setMap a { m with spare := some c }))) ∧
    (∀ r : Req, r = ⟨.operator, tag, putByte a.val ++ [0xFF]⟩ →
      exec (.spare r) s = .next (answered 0x51 r .done (optChan m.assigned ++ [0xFF])
        ((received s).setMap a { m with spare := none }))) ∧
    (∀ r : Req, r = ⟨.operator, tag, putByte a.val⟩ →
      exec (.freezeMap r) s = .next (answered 0x52 r .done
        (putByte a.val ++ [1] ++ optChan m.assigned ++ optChan m.spare)
        ((received s).setMap a { m with frozen := true })) ∧
      exec (.thaw r) s = .next (answered 0x53 r .done
        (putByte a.val ++ [0] ++ optChan m.assigned ++ optChan m.spare)
        ((received s).setMap a { m with frozen := false }))) ∧
    (∀ r : Req, r = ⟨.operator, tag, putByte c.val⟩ →
      exec (.clearFault r) s = .next (answered 0x54 r .done ([0] ++ putByte (s.chan c).mode.code)
        ((received s).setChan c { s.chan c with fault := none })))

/-- O47. SET LOCAL, FORCE LOCAL and RESTORE: the output follows at once what the mode gives. (Log 13 of the model.) -/
def Obligations.LocalDutyRequestsMoveTheOutput : Prop :=
  ∀ (c : Chan) (n : Nat) (tag : Word) (s : State),
    let x := s.chan c
    (n ≤ 1000 → (isDiscrete c = true → n = 0 ∨ n = 1000) →
      let r : Req := ⟨.operator, tag, putByte c.val ++ putU16 n⟩
      let out := if x.mode = .localDuty then n else x.output
      exec (.setLocal r) s = .next (answered 0x55 r .done (putU16 n ++ putByte x.mode.code ++ putU16 out)
        ((received s).setChan c { x with localDuty := n, output := out }))) ∧
    (∀ r : Req, r = ⟨.operator, tag, putByte c.val⟩ →
      exec (.forceLocal r) s = .next (answered 0x56 r .done
        ([2] ++ putU16 x.localDuty ++ putU16 x.localDuty ++ putOptU8 ((s.assignee c).map (·.val)))
        ((received s).setChan c { x with mode := .localDuty, output := x.localDuty })) ∧
      (x.mode ≠ .localDuty →
        exec (.restore r) s =
          .next (answered 0x57 r .done (putByte x.mode.code ++ putU16 x.output) (received s))) ∧
      (x.mode = .localDuty → (s.mode = .setup ∨ ∀ a, (s.mapAt a).assigned ≠ some c) →
        exec (.restore r) s = .next (answered 0x57 r .done [0, 0, 0]
          ((received s).setChan c { x with mode := .released, output := 0 }))) ∧
      (∀ a v, x.mode = .localDuty → s.mode = .run → MapLaw s → (s.mapAt a).assigned = some c →
        (s.lane a).command = some v →
        exec (.restore r) s = .next (answered 0x57 r .done ([1] ++ putU16 (s.dutyOf a v))
          ((received s).setChan c { x with mode := .order, output := s.dutyOf a v }))))

/-! ### Templates, the fallback set and the halt set -/

/-- O48. PUT TEMPLATE fills and empties, SET FALLBACK and SET HALT bind and unbind, and a template in use is neither
emptied nor moved to another actuator. (Log 13 of the model.) -/
def Obligations.TemplatesAndBindingsAreStored : Prop :=
  ∀ (x : TemplateIx) (tag : Word) (s : State),
    let bound := putOptU8 ((s.boundFor .fallback x).map (·.val)) ++ putOptU8 ((s.boundFor .halt x).map (·.val))
    (∀ m : Template, templateFits s m →
      let r : Req := ⟨.operator, tag, putByte x.val ++ [1] ++ putTemplate m⟩
      ((∀ w a, s.binding w a = some x → ∃ y, s.template x = some y ∧ y.actuator = m.actuator) →
        exec (.putTemplate r) s = .next (answered 0x60 r .done (putByte x.val ++ [0] ++ bound)
          ((received s).setTemplate x (some m)))) ∧
      (∀ w a y, s.binding w a = some x → s.template x = some y → y.actuator ≠ m.actuator →
        exec (.putTemplate r) s = .next (answered 0x60 r .templateInUse [] (received s)))) ∧
    (∀ r : Req, r = ⟨.operator, tag, putByte x.val ++ [0]⟩ →
      ((∀ w a, s.binding w a ≠ some x) →
        exec (.putTemplate r) s = .next (answered 0x60 r .done (putByte x.val ++ [1, 0, 0, 0, 0])
          ((received s).setTemplate x none))) ∧
      (∀ w a, s.binding w a = some x →
        exec (.putTemplate r) s = .next (answered 0x60 r .templateInUse [] (received s)))) ∧
    (∀ a : Actuator,
      let b := fun w => putOrFF ((s.binding w a).map (·.val))
      (∀ m, s.template x = some m → m.actuator = a →
        let r : Req := ⟨.operator, tag, putByte a.val ++ putByte x.val⟩
        exec (.setFallback r) s = .next (answered 0x62 r .done (putByte x.val ++ b .halt)
          ((received s).setBinding .fallback a (some x))) ∧
        exec (.setHalt r) s = .next (answered 0x63 r .done (b .fallback ++ putByte x.val)
          ((received s).setBinding .halt a (some x)))) ∧
      (∀ r : Req, r = ⟨.operator, tag, putByte a.val ++ [0xFF]⟩ →
        exec (.setFallback r) s = .next (answered 0x62 r .done ([0xFF] ++ b .halt)
          ((received s).setBinding .fallback a none)) ∧
        exec (.setHalt r) s = .next (answered 0x63 r .done (b .fallback ++ [0xFF])
          ((received s).setBinding .halt a none))))

/-- O49. HALT with one actuator bound: its GUARD order, its channel forced LOCAL where the order cannot be placed, or
nothing where it is DOWN. (Log 11 of the model.) -/
def Obligations.HaltIssuesTheBoundTemplate : Prop :=
  ∀ (a : Actuator) (x : TemplateIx) (m : Template) (tag : Word) (s : State),
    s.mode = .run → s.binding .halt a = some x → (∀ b, b ≠ a → s.binding .halt b = none) → s.template x = some m →
    m.actuator = a →
    let r : Req := ⟨.operator, tag, []⟩
    let fits := inRange ((s.lane a).lo, (s.lane a).hi) m.target
    ((s.lane a).state = .down → exec (.halt r) s = .next (answered 0x64 r .done [0, 0] (received s))) ∧
    ((s.lane a).state ≠ .down → (fits = false ∨ (s.freeSlot? = none ∧ s.findOrder a .guard = none)) →
      (∀ c, (s.mapAt a).assigned = some c →
        exec (.halt r) s = .next (answered 0x64 r .done [0, 1]
          (queueNotice .operator (.forcedLocal a (some c))
            ((received s).setChan c { s.chan c with mode := .localDuty, output := (s.chan c).localDuty })))) ∧
      ((s.mapAt a).assigned = none →
        exec (.halt r) s = .next (answered 0x64 r .done [0, 1]
          (queueNotice .operator (.forcedLocal a none) (received s))))) ∧
    (∀ i, (s.lane a).state ≠ .down → fits = true → s.findOrder a .guard = none → s.freeSlot? = some i →
      m.guards = [] → (a = gate → m.completion = .standing) → LaneLaw s →
      ∃ t p, exec (.halt r) s = .next (answered 0x64 r .done [1, 0] t) ∧ t.order? (s.handleAt i) = some p ∧
        (p.state = .pending ∨ p.state = .governing) ∧ p.cls = .guard ∧ p.actuator = a ∧ p.target = m.target ∧
        p.ramp = m.ramp ∧ p.completion = m.completion ∧ p.prereq = none ∧ p.guards = [] ∧
        p.lease = m.lease.map (fun n => ⟨n, 1000 * n⟩) ∧ p.tethered = false ∧ p.planEntry = none ∧
        p.template = some x ∧ PlaceFrame (received s) t i p)

/-! ### Run control -/

/-- O50. START: with every assigned channel OK; with one actuator that is not, which moves to its usable spare or is left
DOWN (R140); and the evaluation of the active bank (R182): at an unknown depth, and with one entry in band, which spawns
or is SKIPPED. (Log 13 of the model.) -/
def Obligations.StartTakesThePartIntoRun : Prop :=
  ∀ (tag : Word) (s : State), s.mode = .setup → SetupLaw s → MapLaw s → CommandLaw s →
    let r : Req := ⟨.operator, tag, []⟩
    let starts := fun (moved down live skipped : Byte) (t : State) =>
      exec (.start r) s = .next (answered 0x71 r .done [1, moved, down, live, skipped] t)
    let usable := fun b => ∃ c, (s.mapAt b).assigned = some c ∧ (s.chan c).fault = none
    let empty := ∀ e, s.entry s.active e = none
    let started := fun (t : State) b => ∀ c, (s.mapAt b).assigned = some c → startedOn s t b c (s.chan c)
    ((∀ a, usable a) → empty →
      ∃ t, starts 0 0 0 0 t ∧ (∀ a, started t a) ∧
        (∀ c, (∀ a, (s.mapAt a).assigned ≠ some c) → t.chan c = s.chan c) ∧
        t.map = s.map ∧ t.travel = .running 0 ∧ startFrame s t []) ∧
    (∀ a, ¬ usable a → (∀ b, b ≠ a → usable b) → empty →
      let old := (s.mapAt a).assigned
      let released := fun (t : State) => ∀ c, old = some c → t.chan c = { s.chan c with mode := .released, output := 0 }
      let others := fun (t : State) =>
        (∀ b, b ≠ a → started t b ∧ t.mapAt b = s.mapAt b) ∧
          ∀ c, (∀ b, (s.mapAt b).assigned ≠ some c) → (t.mapAt a).assigned ≠ some c → t.chan c = s.chan c
      (∀ sp, (s.mapAt a).frozen = false → (s.mapAt a).spare = some sp → (s.chan sp).fault = none →
        (∀ b, (s.mapAt b).assigned ≠ some sp) →
        ∃ t, starts 1 0 0 0 t ∧ t.mapAt a = { s.mapAt a with assigned := some sp } ∧ released t ∧ others t ∧
          (∀ c, old = some c →
            let x : ChanState := { s.chan sp with mode := (s.chan c).mode, localDuty := (s.chan c).localDuty }
            startedOn s t a sp (if x.mode = .localDuty then { x with output := x.localDuty } else x)) ∧
          (old = none → OutputLaw s → startedOn s t a sp (s.chan sp)) ∧
          t.travel = .running 0 ∧ startFrame s t [.remapped a old sp]) ∧
      (((s.mapAt a).frozen = true ∨ (s.mapAt a).spare = none ∨
          ∃ sp, (s.mapAt a).spare = some sp ∧ ((s.chan sp).fault ≠ none ∨ ∃ b, (s.mapAt b).assigned = some sp)) →
        ∃ t, starts 0 1 0 0 t ∧ t.mapAt a = { s.mapAt a with assigned := none } ∧ released t ∧ others t ∧
          t.lane a = { s.lane a with
            state := .down, gov := none, maskHold := false, guardHold := false
            command := none, interval := none, detector := .idle } ∧
          t.travel = (if a = gate then .cleared else .running 0) ∧ startFrame s t [.down a old])) ∧
    ((∀ a, usable a) → s.depth.value = none →
      ∃ t, starts 0 0 0 0 t ∧ t.slots = s.slots ∧
        ∀ e, t.entry s.active e = (s.entry s.active e).map fun x => { x with state := .ahead }) ∧
    (∀ d e x, (∀ a, usable a) → s.depth.value = some d → s.entry s.active e = some x →
      x.depthFrom ≤ d → d < x.depthTo → x.actuator ≠ gate →
      (∀ e' y, e' ≠ e → s.entry s.active e' = some y → (d < y.depthFrom ∨ y.depthTo ≤ d)) →
      let others := fun (t : State) => ∀ e' y, e' ≠ e → s.entry s.active e' = some y → y.depthFrom ≤ y.depthTo →
        (d < y.depthFrom → t.entry s.active e' = some { y with state := .ahead }) ∧
        (y.depthTo ≤ d → t.entry s.active e' = some { y with state := .passed })
      let fits := inRange ((s.lane x.actuator).lo, (s.lane x.actuator).hi) x.target
      (fits = true → (∀ c, (s.lane x.actuator).orderSet.get c = none) →
        ∃ t p, starts 0 0 1 0 t ∧ others t ∧ t.entry s.active e = some { x with state := .live (s.handleAt 0) } ∧
          t.order? (s.handleAt 0) = some p ∧ (p.state = .pending ∨ p.state = .governing) ∧ p.cls = .plan ∧
          p.actuator = x.actuator ∧ p.target = x.target ∧ p.ramp = x.ramp ∧ p.completion = .standing ∧
          p.prereq = none ∧ p.guards = [] ∧ p.lease = none ∧ p.tethered = false ∧
          p.planEntry = some (s.active, e) ∧ p.template = none ∧ t.txQueue = s.txQueue) ∧
      (fits = false →
        ∃ t, starts 0 0 0 1 t ∧ others t ∧ t.entry s.active e = some { x with state := .skipped } ∧
          t.slots = s.slots ∧ (s.noticeCount < 16 →
            t.txQueue = s.txQueue ++ [.notice .operator (.entrySkipped s.active e x.actuator .limits)]))) ∧
    (∀ d a e x, ¬ usable a → (∀ b, b ≠ a → usable b) → (s.mapAt a).spare = none → s.depth.value = some d →
      s.entry s.active e = some x → x.actuator = a → x.depthFrom ≤ d → d < x.depthTo →
      (∀ e' y, e' ≠ e → s.entry s.active e' = some y → (d < y.depthFrom ∨ y.depthTo ≤ d)) →
      ∃ t, starts 0 1 0 1 t ∧ t.entry s.active e = some { x with state := .skipped } ∧ (t.lane a).state = .down ∧
        (s.noticeCount + 2 ≤ 16 → t.txQueue = s.txQueue ++
          [.notice .operator (.down a (s.mapAt a).assigned),
            .notice .operator (.entrySkipped s.active e a .down)]))

/-- O51. RESTART: no orders and no notices of them, lanes in OFF with their settings kept, ORDER channels RELEASED,
entries DORMANT, and everything else as it was. (Log 13 of the model.) -/
def Obligations.RestartReturnsThePartToSetup : Prop :=
  ∀ (tag : Word) (s : State), s.mode = .run →
    let r : Req := ⟨.operator, tag, []⟩
    ∃ t, exec (.restart r) s = .next (answered 0x72 r .done ([0] ++ putByte s.liveCount) t) ∧
      (∀ i, (s.orderAt i = none → t.slot i = s.slot i) ∧
        (∀ o, s.orderAt i = some o → t.slot i = ⟨(s.slot i).gen + 1, none⟩)) ∧
      (∀ a, t.lane a =
        .reset (defaultPrecedence a) (s.lane a).lo (s.lane a).hi (s.lane a).band (s.lane a).dwell) ∧
      (∀ c, t.chan c = if (s.chan c).mode = .order then { s.chan c with mode := .released, output := 0 }
        else s.chan c) ∧
      (∀ b e, t.entry b e = (s.entry b e).map fun x => { x with state := .dormant }) ∧
      (∀ w, ∃ flag, t.interlock w = { s.interlock w with engaged := flag } ∧
        (flag = true ↔ interlockDue s (s.interlock w))) ∧
      t.travel = .cleared ∧ t.txQueue = s.txQueue ∧ t.noticesLost = s.noticesLost ∧
      BlocksKept { received s with mode := .setup } t

/-! ### The laws every step keeps -/

/-- O52. -/
def Obligations.LawsHoldAtReset : Prop :=
  SetupLaw State.reset ∧ PositionLaw State.reset ∧ LaneLaw State.reset ∧ MapLaw State.reset ∧ DriveLaw State.reset ∧
    OutputLaw State.reset ∧ NoticeLaw State.reset ∧ BandLaw State.reset ∧ GuardLaw State.reset ∧
    CommandLaw State.reset ∧ RankLaw State.reset ∧ GateLaw State.reset ∧ PlanLaw State.reset ∧ BindLaw State.reset

/-- O53. -/
def Obligations.EveryStepKeepsSetupLaw : Prop := ∀ s t : State, step s = .next t → SetupLaw s → SetupLaw t

/-- O54. -/
def Obligations.EveryStepKeepsPositionLaw : Prop := ∀ s t : State, step s = .next t → PositionLaw s → PositionLaw t

/-- O55. Orders and lanes agree, and what a resolution leaves (R38) holds after every step. -/
def Obligations.EveryStepKeepsLaneLaw : Prop :=
  ∀ s t : State, step s = .next t → SetupLaw s → LaneLaw s →
    LaneLaw t ∧ (DriveLaw s → RankLaw s → RankLaw t)

/-- O56. -/
def Obligations.EveryStepKeepsMapAndDriveLaw : Prop :=
  ∀ s t : State, step s = .next t → MapLaw s → MapLaw t ∧ (SetupLaw s → DriveLaw s → DriveLaw t)

/-- O57. -/
def Obligations.EveryStepKeepsOutputLaw : Prop :=
  ∀ s t : State, step s = .next t → SetupLaw s → MapLaw s → DriveLaw s → OutputLaw s → OutputLaw t

/-- O58. -/
def Obligations.EveryStepKeepsNoticeLaw : Prop := ∀ s t : State, step s = .next t → NoticeLaw s → NoticeLaw t

/-- O59. The bands of a bank, the guards of an order and a template, the bindings (R159), and LIVE entries with their
PLAN orders (R120). -/
def Obligations.EveryStepKeepsBandLaw : Prop :=
  ∀ s t : State, step s = .next t → (BandLaw s → BandLaw t) ∧ (GuardLaw s → GuardLaw t) ∧
    (BindLaw s → BindLaw t) ∧ (SetupLaw s → PlanLaw s → PlanLaw t)

/-- O60. Commands and targets within their limits, and the GATE's command at its aim (R60). -/
def Obligations.EveryStepKeepsCommandLaw : Prop :=
  ∀ s t : State, step s = .next t → SetupLaw s → LaneLaw s → (CommandLaw s → CommandLaw t) ∧ (GateLaw s → GateLaw t)

end
end

