-- ==== Sys2Proof/Laws/Bytes.lean ====
section
/-! SUPPORT. The bytes at the receiver: a valid frame runs the command of its request, bytes are taken one stretch
after another, and what each event of the receiver keeps, a stretch of bytes keeps. -/

namespace Sys2Proof.Machine

theorem listen_noise (s : State) (h : s.rx = .hunting) : listen .hunting s = s := by
  unfold listen
  rw [if_neg (by simp), ← h]

theorem unknown_of_kind {kind : Byte} (h : namesRequest kind = false) (r : Req) (s : State) :
    takeRequest r kind s = execUnknownRequest r kind s := by
  revert h
  unfold takeRequest
  split <;> first | (intro _; rfl) | (rename_i e; intro h; simp [namesRequest, requestKinds, e] at h)

theorem kind_of_code {kind : Byte} {n : Nat} (h : kind.toNat = n) (hn : n < 256) : kind = BitVec.ofNat 8 n := by
  apply BitVec.eq_of_toNat_eq
  rw [h, BitVec.toNat_ofNat, Nat.mod_eq_of_lt hn]

/-- A command carries the frame of a kind when it carries the frame of that kind's code. -/
theorem frameOf_code {c : Instr} {r : Req} {kind : Byte} {n : Nat} (e : kind.toNat = n) (hn : n < 256)
    (h : frameOf c = some (r, BitVec.ofNat 8 n)) : frameOf c = some (r, kind) := by
  rw [h, kind_of_code e hn]

/-- A valid frame runs the command that carries it. -/
theorem takeRequest_exec (r : Req) (kind : Byte) (s : State) :
    ∃ c, frameOf c = some (r, kind) ∧ takeRequest r kind s = exec c s := by
  cases h : namesRequest kind with
  | false => exact ⟨.unknownRequest r kind, by simp [frameOf, h], unknown_of_kind h r s⟩
  | true =>
    unfold takeRequest
    split
    next e => exact ⟨.place r, frameOf_code e (by decide) rfl, rfl⟩
    next e => exact ⟨.issue r, frameOf_code e (by decide) rfl, rfl⟩
    next e => exact ⟨.amend r, frameOf_code e (by decide) rfl, rfl⟩
    next e => exact ⟨.renew r, frameOf_code e (by decide) rfl, rfl⟩
    next e => exact ⟨.withdraw r, frameOf_code e (by decide) rfl, rfl⟩
    next e => exact ⟨.query r, frameOf_code e (by decide) rfl, rfl⟩
    next e => exact ⟨.list r, frameOf_code e (by decide) rfl, rfl⟩
    next e => exact ⟨.lowest r, frameOf_code e (by decide) rfl, rfl⟩
    next e => exact ⟨.mask r, frameOf_code e (by decide) rfl, rfl⟩
    next e => exact ⟨.unmask r, frameOf_code e (by decide) rfl, rfl⟩
    next e => exact ⟨.yield r, frameOf_code e (by decide) rfl, rfl⟩
    next e => exact ⟨.view r, frameOf_code e (by decide) rfl, rfl⟩
    next e => exact ⟨.setLimits r, frameOf_code e (by decide) rfl, rfl⟩
    next e => exact ⟨.setSettle r, frameOf_code e (by decide) rfl, rfl⟩
    next e => exact ⟨.setInterlock r, frameOf_code e (by decide) rfl, rfl⟩
    next e => exact ⟨.depth r, frameOf_code e (by decide) rfl, rfl⟩
    next e => exact ⟨.setDrift r, frameOf_code e (by decide) rfl, rfl⟩
    next e => exact ⟨.readPoints r, frameOf_code e (by decide) rfl, rfl⟩
    next e => exact ⟨.setModule r, frameOf_code e (by decide) rfl, rfl⟩
    next e => exact ⟨.setDepthStale r, frameOf_code e (by decide) rfl, rfl⟩
    next e => exact ⟨.putEntry r, frameOf_code e (by decide) rfl, rfl⟩
    next e => exact ⟨.dropEntry r, frameOf_code e (by decide) rfl, rfl⟩
    next e => exact ⟨.clearShadow r, frameOf_code e (by decide) rfl, rfl⟩
    next e => exact ⟨.readEntry r, frameOf_code e (by decide) rfl, rfl⟩
    next e => exact ⟨.swap r, frameOf_code e (by decide) rfl, rfl⟩
    next e => exact ⟨.mapActuator r, frameOf_code e (by decide) rfl, rfl⟩
    next e => exact ⟨.spare r, frameOf_code e (by decide) rfl, rfl⟩
    next e => exact ⟨.freezeMap r, frameOf_code e (by decide) rfl, rfl⟩
    next e => exact ⟨.thaw r, frameOf_code e (by decide) rfl, rfl⟩
    next e => exact ⟨.clearFault r, frameOf_code e (by decide) rfl, rfl⟩
    next e => exact ⟨.setLocal r, frameOf_code e (by decide) rfl, rfl⟩
    next e => exact ⟨.forceLocal r, frameOf_code e (by decide) rfl, rfl⟩
    next e => exact ⟨.restore r, frameOf_code e (by decide) rfl, rfl⟩
    next e => exact ⟨.readChannel r, frameOf_code e (by decide) rfl, rfl⟩
    next e => exact ⟨.setCalibration r, frameOf_code e (by decide) rfl, rfl⟩
    next e => exact ⟨.putTemplate r, frameOf_code e (by decide) rfl, rfl⟩
    next e => exact ⟨.readTemplate r, frameOf_code e (by decide) rfl, rfl⟩
    next e => exact ⟨.setFallback r, frameOf_code e (by decide) rfl, rfl⟩
    next e => exact ⟨.setHalt r, frameOf_code e (by decide) rfl, rfl⟩
    next e => exact ⟨.halt r, frameOf_code e (by decide) rfl, rfl⟩
    next e => exact ⟨.setLink r, frameOf_code e (by decide) rfl, rfl⟩
    next e => exact ⟨.start r, frameOf_code e (by decide) rfl, rfl⟩
    next e => exact ⟨.restart r, frameOf_code e (by decide) rfl, rfl⟩
    next e => exact ⟨.status r, frameOf_code e (by decide) rfl, rfl⟩
    next => simp_all [namesRequest, requestKinds]; omega

/-- What the receiver's own events and every request keep, a stretch of bytes keeps. -/
theorem takeBytes_keeps {P : State → Prop} (listening : ∀ s rx, P s → P (listen rx s))
    (bad : ∀ s, P s → P (takeBadFrame s))
    (req : ∀ c r k s t, frameOf c = some (r, k) → exec c s = .next t → P s → P t) :
    ∀ bytes s t, takeBytes bytes s = .next t → P s → P t := by
  intro bytes
  induction bytes with
  | nil =>
    intro s t h hs
    cases h
    exact hs
  | cons b bs ih =>
    intro s t h hs
    unfold takeBytes at h
    split at h
    · exact ih _ _ h (listening _ _ hs)
    · exact ih _ _ h (bad _ hs)
    · rename_i r k _
      split at h
      · exact ih _ _ h (bad _ hs)
      · obtain ⟨c, hc, e⟩ := takeRequest_exec r k s
        split at h
        · rename_i u hu
          exact ih _ _ h (req c r k s u hc (e ▸ hu) hs)
        · rename_i o ho
          exact absurd h (ho t)

/-- Bytes are taken one stretch after another (R167). -/
theorem takeBytes_append (xs ys : List Byte) : ∀ s t, takeBytes xs s = .next t →
    takeBytes (xs ++ ys) s = takeBytes ys t := by
  induction xs with
  | nil =>
    intro s t h
    cases h
    rfl
  | cons b bs ih =>
    intro s t h
    rw [List.cons_append]
    simp only [takeBytes] at h ⊢
    generalize rxByte s.rx b = got at h ⊢
    cases got with
    | more rx => exact ih _ _ h
    | bad => exact ih _ _ h
    | valid r k =>
      simp only at h ⊢
      split at h <;> rename_i hc
      · rw [if_pos hc]
        exact ih _ _ h
      · rw [if_neg hc]
        generalize takeRequest r k s = out at h ⊢
        cases out with
        | next u => exact ih _ _ h
        | fault f => cases h
        | refused f => cases h

end Sys2Proof.Machine
end

