-- ==== Sys2Proof/Laws/Checks.lean ====
section
/-! SUPPORT. The laws as computations: each check, where it answers true, gives its law. -/

namespace Sys2Proof.Machine

/-! ### Quantifiers over the live orders and the filled entries -/

theorem allOrders_of_check {s : State} {p : Slot → Order → Bool}
    (h : (allSlots.all fun i => (s.orderAt i).all (p i)) = true) :
    ∀ i o, s.orderAt i = some o → p i o = true := by
  intro i o e
  have := List.all_eq_true.mp h i (by simp [allSlots])
  simpa [e] using this

theorem allEntries_of_check {s : State} {b : BankIx} {p : EntryIx → PlanEntry → Bool}
    (h : (allEntries.all fun e => (s.entry b e).all (p e)) = true) :
    ∀ e x, s.entry b e = some x → p e x = true := by
  intro i o e
  have := List.all_eq_true.mp h i (by simp [allEntries])
  simpa [e] using this

theorem mem_banks (b : Fin 2) : b ∈ ([0, 1] : List (Fin 2)) := by revert b; decide

/-! ### The laws -/

def setupCheck (s : State) : Bool :=
  s.mode ≠ .setup ||
    ((allSlots.all fun i => s.orderAt i = none) &&
      (allActuators.all fun a => (s.lane a).state = .off && (s.lane a).gov = none && (s.lane a).command = none &&
        (s.lane a).interval = none && (s.lane a).detector = .idle) &&
      s.travel = .cleared && (allChans.all fun c => (s.chan c).mode ≠ .order) &&
      ([0, 1].all fun b => allEntries.all fun e => (s.entry b e).all fun x => x.state = .dormant))

theorem setupLaw_of_check {s : State} (h : setupCheck s = true) : SetupLaw s := by
  simp only [setupCheck, Bool.or_eq_true, Bool.and_eq_true, List.all_eq_true, decide_eq_true_eq] at h
  rcases h with h | ⟨⟨⟨⟨h1, h2⟩, h3⟩, h4⟩, h5⟩
  · constructor <;> exact fun e => absurd e h
  · refine ⟨fun _ i => h1 i (by simp [allSlots]), fun _ a => ?_, fun _ => h3, fun _ c => h4 c (by simp [allChans]), ?_⟩
    · have := h2 a (by simp [allActuators])
      exact ⟨this.1.1.1.1, this.1.1.1.2, this.1.1.2, this.1.2, this.2⟩
    · intro _ b e x hx
      have := h5 b (mem_banks b) e (by simp [allEntries])
      simpa [hx] using this

def positionCheck (s : State) : Bool :=
  allSlots.all fun i => (s.orderAt i).all fun o => allSlots.all fun j => (s.orderAt j).all fun p =>
    i = j || !(o.cls = p.cls && o.actuator = p.actuator)

theorem positionLaw_of_check {s : State} (h : positionCheck s = true) : PositionLaw s := by
  intro i j o p hi hj hc ha
  have h1 := allOrders_of_check h i o hi
  have h2 := allOrders_of_check (p := fun j p => i = j || !(o.cls = p.cls && o.actuator = p.actuator)) h1 j p hj
  simpa [hc, ha] using h2

def laneCheck (s : State) : Bool :=
  (allActuators.all fun a => [Cls.guard, .operator, .verticality, .plan, .plant].all fun c =>
    ((s.lane a).orderSet.get c).all fun h => (s.order? h).any fun o => o.actuator = a && o.cls = c) &&
  (allActuators.all fun a =>
    (s.lane a).gov.all fun h => (s.order? h).any fun o => o.actuator = a && o.state = .governing) &&
  (allSlots.all fun i => (s.orderAt i).all fun o =>
    o.state ≠ .governing || (s.lane o.actuator).gov = some (s.handleAt i)) &&
  (allActuators.all fun a =>
    (s.lane a).gov.isSome == ((s.lane a).state = .driven || (s.lane a).state = .held)) &&
  (s.mode ≠ .run || allActuators.all fun a => (s.lane a).state ≠ .off)

theorem laneLaw_of_check {s : State} (h : laneCheck s = true) : LaneLaw s := by
  simp only [laneCheck, Bool.and_eq_true] at h
  obtain ⟨⟨⟨⟨h1, h2⟩, h3⟩, h4⟩, h5⟩ := h
  simp only [List.all_eq_true] at h1 h2 h4
  refine ⟨fun a c k hk => ?_, fun a k hk => ?_, fun i o hi hg => ?_, fun a => ?_, fun hm a => ?_⟩
  · have := h1 a (by simp [allActuators]) c (by cases c <;> simp)
    rw [hk, Option.all_some, Option.any_eq_true] at this
    obtain ⟨o, ho, e⟩ := this
    exact ⟨o, ho, by simpa using e⟩
  · have := h2 a (by simp [allActuators])
    rw [hk, Option.all_some, Option.any_eq_true] at this
    obtain ⟨o, ho, e⟩ := this
    exact ⟨o, ho, by simpa using e⟩
  · have := allOrders_of_check h3 i o hi
    simpa [hg] using this
  · have := h4 a (by simp [allActuators])
    rw [beq_iff_eq] at this
    rw [this]
    simp
  · rcases Bool.or_eq_true_iff.mp h5 with e | e
    · exact absurd hm (by simpa using e)
    · simpa using List.all_eq_true.mp e a (by simp [allActuators])

def resolvedCheck (s : State) (a : Actuator) : Bool :=
  (s.lane a).precedence.all fun c => (c ≠ .guard && (s.lane a).mask.get c) ||
    ((s.lane a).orderSet.get c).all fun h => (s.order? h).all fun o => o.state ≠ .pending ||
      (s.lane a).gov.any fun k => (s.order? k).any fun q =>
        !((s.lane a).precedence.idxOf c < (s.lane a).precedence.idxOf q.cls)

theorem resolved_of_check {s : State} {a : Actuator} (h : resolvedCheck s a = true) : Resolved s a := by
  intro c k o hc hm hk ho hp
  have := List.all_eq_true.mp h c hc
  rw [hk, Option.all_some, ho, Option.all_some] at this
  rcases Bool.or_eq_true_iff.mp this with e | e
  · rcases hm with rfl | hm <;> simp_all
  · rcases Bool.or_eq_true_iff.mp e with e | e
    · exact absurd hp (by simpa using e)
    · obtain ⟨g, hg, e⟩ := Option.any_eq_true _ _ |>.mp e
      obtain ⟨q, hq, e⟩ := Option.any_eq_true _ _ |>.mp e
      exact ⟨g, q, hg, hq, by simpa using e⟩

def rankCheck (s : State) : Bool :=
  (allSlots.all fun i => (s.orderAt i).all fun o => (s.lane o.actuator).orderSet.get o.cls = some (s.handleAt i)) &&
    allActuators.all fun a => (s.lane a).state = .off || (s.lane a).state = .down || resolvedCheck s a

theorem rankLaw_of_check {s : State} (h : rankCheck s = true) : RankLaw s := by
  obtain ⟨h1, h2⟩ := Bool.and_eq_true_iff.mp h
  refine ⟨fun i o hi => ?_, fun a ho hd => resolved_of_check ?_⟩
  · simpa using allOrders_of_check
      (p := fun i o => (s.lane o.actuator).orderSet.get o.cls = some (s.handleAt i)) h1 i o hi
  · simpa [ho, hd] using List.all_eq_true.mp h2 a (by simp [allActuators])

def guardCheck (s : State) : Bool :=
  (allSlots.all fun i => (s.orderAt i).all fun o => o.guards.length ≤ 2) &&
    (List.finRange 32).all fun x => (s.template x).all fun m => m.guards.length ≤ 2

theorem guardLaw_of_check {s : State} (h : guardCheck s = true) : GuardLaw s := by
  obtain ⟨h1, h2⟩ := Bool.and_eq_true_iff.mp h
  refine ⟨fun i o hi => ?_, fun x m hx => ?_⟩
  · simpa using allOrders_of_check (p := fun _ o => o.guards.length ≤ 2) h1 i o hi
  · simpa [hx] using List.all_eq_true.mp h2 x (by simp)

def mapCheck (s : State) : Bool :=
  (allActuators.all fun a => (s.mapAt a).assigned.all (kindsMatch a) && (s.mapAt a).spare.all (kindsMatch a)) &&
  (allActuators.all fun a => allActuators.all fun b => (s.mapAt a).assigned.all fun c =>
    a = b || (s.mapAt b).assigned ≠ some c)

theorem mapLaw_of_check {s : State} (h : mapCheck s = true) : MapLaw s := by
  simp only [mapCheck, Bool.and_eq_true, List.all_eq_true] at h
  refine ⟨fun a c e => ?_, fun a c e => ?_, fun a b c ea eb => ?_⟩
  · simpa [e] using (h.1 a (by simp [allActuators])).1
  · simpa [e] using (h.1 a (by simp [allActuators])).2
  · have := h.2 a (by simp [allActuators]) b (by simp [allActuators])
    simpa [ea, eb] using this

def driveCheck (s : State) : Bool :=
  (allActuators.all fun a => (s.lane a).state ≠ .down || (s.lane a).command = none) &&
  (allSlots.all fun i => (s.orderAt i).all fun o => (s.lane o.actuator).state ≠ .down) &&
  (s.mode ≠ .run || allActuators.all fun a => (s.lane a).state = .down ||
    (s.mapAt a).assigned.any fun c => (s.chan c).fault = none)

theorem driveLaw_of_check {s : State} (h : driveCheck s = true) : DriveLaw s := by
  simp only [driveCheck, Bool.and_eq_true] at h
  obtain ⟨⟨h1, h2⟩, h3⟩ := h
  refine ⟨fun a e => ?_, fun a e i o hi ha => ?_, fun hm a e => ?_⟩
  · have := List.all_eq_true.mp h1 a (by simp [allActuators])
    simpa [e] using this
  · have := allOrders_of_check (p := fun _ o => (s.lane o.actuator).state ≠ .down) h2 i o hi
    subst ha
    simp [e] at this
  · rcases Bool.or_eq_true_iff.mp h3 with k | k
    · exact absurd hm (by simpa using k)
    · have := List.all_eq_true.mp k a (by simp [allActuators])
      simp only [e, decide_false, Bool.false_or, Option.any_eq_true] at this
      obtain ⟨c, hc, hf⟩ := this
      exact ⟨c, hc, by simpa using hf⟩

def bandCheck (s : State) : Bool :=
  [0, 1].all fun b => allEntries.all fun e => (s.entry b e).all fun x => allEntries.all fun e' =>
    (s.entry b e').all fun y => e = e' || x.actuator ≠ y.actuator ||
      !bandsOverlap x.depthFrom x.depthTo y.depthFrom y.depthTo

theorem bandLaw_of_check {s : State} (h : bandCheck s = true) : BandLaw s := by
  intro b e e' x y ne hx hy ha
  have h0 := List.all_eq_true.mp h b (mem_banks b)
  have h1 := allEntries_of_check h0 e x hx
  have h2 := allEntries_of_check (p := fun e' y => e = e' || x.actuator ≠ y.actuator ||
      !bandsOverlap x.depthFrom x.depthTo y.depthFrom y.depthTo) h1 e' y hy
  simpa [ne, ha] using h2

def planCheck (s : State) : Bool :=
  (allEntries.all fun e => (s.entry s.active e).all fun x =>
    match x.state with
    | .live h => ((s.order? h).any fun o => o.cls = .plan && o.actuator = x.actuator &&
        o.planEntry = some (s.active, e)) && s.depth.value.any fun d => x.depthFrom ≤ d && d < x.depthTo
    | _ => true) &&
  (allSlots.all fun i => (s.orderAt i).all fun o => (o.cls ≠ .plan && o.planEntry = none) ||
    allEntries.any fun e => o.planEntry = some (s.active, e) &&
      (s.entry s.active e).any fun x => x.state = .live (s.handleAt i)) &&
  (allEntries.all fun e => (s.entry s.shadow e).all fun x => x.state = .dormant)

theorem planLaw_of_check {s : State} (h : planCheck s = true) : PlanLaw s := by
  simp only [planCheck, Bool.and_eq_true] at h
  obtain ⟨⟨h1, h2⟩, h3⟩ := h
  have live : ∀ e x h, s.entry s.active e = some x → x.state = .live h →
      ((s.order? h).any fun o => o.cls = .plan && o.actuator = x.actuator && o.planEntry = some (s.active, e)) = true ∧
        (s.depth.value.any fun d => x.depthFrom ≤ d && d < x.depthTo) = true := by
    intro e x k hx hk
    have := allEntries_of_check (p := fun e x => match x.state with
      | .live h => ((s.order? h).any fun o => o.cls = .plan && o.actuator = x.actuator &&
          o.planEntry = some (s.active, e)) && s.depth.value.any fun d => x.depthFrom ≤ d && d < x.depthTo
      | _ => true) h1 e x hx
    simpa only [hk, Bool.and_eq_true] using this
  refine ⟨fun e x k hx hk => ?_, fun i o hi hp => ?_, fun e x k hx hk => ?_, fun e x hx => ?_⟩
  · obtain ⟨o, ho, e⟩ := Option.any_eq_true _ _ |>.mp (live e x k hx hk).1
    exact ⟨o, ho, by simpa [and_assoc] using e⟩
  · have := allOrders_of_check (p := fun i o => (o.cls ≠ .plan && o.planEntry = none) ||
      allEntries.any fun e => o.planEntry = some (s.active, e) &&
        (s.entry s.active e).any fun x => x.state = .live (s.handleAt i)) h2 i o hi
    rcases Bool.or_eq_true_iff.mp this with k | k
    · simp only [Bool.and_eq_true, decide_eq_true_eq] at k
      exact (hp.elim k.1 fun n => n k.2).elim
    · obtain ⟨e, _, k⟩ := List.any_eq_true.mp k
      obtain ⟨k1, k2⟩ := Bool.and_eq_true_iff.mp k
      obtain ⟨x, hx, k2⟩ := Option.any_eq_true _ _ |>.mp k2
      exact ⟨e, x, by simpa using k1, hx, by simpa using k2⟩
  · obtain ⟨d, hd, e⟩ := Option.any_eq_true _ _ |>.mp (live e x k hx hk).2
    exact ⟨d, hd, by simpa using e⟩
  · simpa using allEntries_of_check (p := fun _ x => x.state = .dormant) h3 e x hx

def bindCheck (s : State) : Bool :=
  [IssueSet.fallback, .halt].all fun w => allActuators.all fun a => (s.binding w a).all fun x =>
    (s.template x).any fun m => m.actuator = a

theorem bindLaw_of_check {s : State} (h : bindCheck s = true) : BindLaw s := by
  intro w a x e
  have := List.all_eq_true.mp (List.all_eq_true.mp h w (by cases w <;> simp)) a (by simp [allActuators])
  rw [e, Option.all_some, Option.any_eq_true] at this
  obtain ⟨m, hm, e⟩ := this
  exact ⟨m, hm, by simpa using e⟩

def commandCheck (s : State) : Bool :=
  (allActuators.all fun a => limitsAllowed a (s.lane a).lo (s.lane a).hi) &&
  ([0, 1].all fun w => 0 ≤ (s.interlock w).creep) &&
  (allSlots.all fun i => (s.orderAt i).all fun o => targetOk s o.actuator o.target) &&
  (allActuators.all fun a => (s.lane a).command.all fun v => toCommand a (s.lane a).lo ≤ v &&
    v ≤ toCommand a (s.lane a).hi && s.creepClamp a v = v)

theorem commandLaw_of_check {s : State} (h : commandCheck s = true) : CommandLaw s := by
  simp only [commandCheck, Bool.and_eq_true] at h
  obtain ⟨⟨⟨h1, h2⟩, h3⟩, h4⟩ := h
  have cmd : ∀ a v, (s.lane a).command = some v →
      (toCommand a (s.lane a).lo ≤ v ∧ v ≤ toCommand a (s.lane a).hi) ∧ s.creepClamp a v = v := by
    intro a v e
    have := List.all_eq_true.mp h4 a (by simp [allActuators])
    simpa [e] using this
  refine ⟨fun a => List.all_eq_true.mp h1 a (by simp [allActuators]), fun w => ?_,
    fun i o hi => allOrders_of_check (p := fun _ o => targetOk s o.actuator o.target) h3 i o hi,
    fun a v e => (cmd a v e).1, fun a v e => (cmd a v e).2⟩
  simpa using List.all_eq_true.mp h2 w (mem_banks w)

def gateCheck (s : State) : Bool :=
  ((s.lane gate).state ≠ .rest || (s.lane gate).command = some 0) &&
    ((s.lane gate).state ≠ .driven || (s.lane gate).gov.all fun h => (s.order? h).all fun o =>
      (s.lane gate).command = some o.target)

theorem gateLaw_of_check {s : State} (h : gateCheck s = true) : GateLaw s := by
  obtain ⟨h1, h2⟩ := Bool.and_eq_true_iff.mp h
  exact ⟨fun e => by simpa [e] using h1, fun k o e hk ho => by simpa [e, hk, ho] using h2⟩

/-! ### Interlocks and guards -/

theorem short_iff (s : State) (p : Point) (minimum : Int) : s.short p minimum = true ↔ shortOf s p minimum := by
  unfold State.short shortOf
  split
  · next hs hv => simp [hs, hv]
  · next h =>
    refine ⟨fun _ ⟨hs, v, hv, _⟩ => h v hs hv, fun _ => rfl⟩

theorem interlockFlag_iff (s : State) (x : Interlock) : s.interlockFlag x = true ↔ interlockDue s x := by
  simp [State.interlockFlag, interlockDue, short_iff, pmsPoint, slfPoint]

theorem interlocksStand_of_check {s : State}
    (h : ([0, 1].all fun w => (s.interlock w).engaged == s.interlockFlag (s.interlock w)) = true) :
    interlocksStand s := by
  intro w
  have := List.all_eq_true.mp h w (mem_banks w)
  rw [← interlockFlag_iff, beq_iff_eq.mp this]

def soleCheck (s : State) (ps : List Point) (h : Handle) (g : Fin 2) (o : Order) (e : GuardEntry) : Bool :=
  s.order? h = some o && o.guards[g.val]? = some e && ps.contains e.guard.point && guardCheck s && laneCheck s &&
    allSlots.all fun i => (s.orderAt i).all fun q => q.guards.zipIdx.all fun x =>
      !ps.contains x.1.guard.point || (i = h.slot && x.2 = g.val)

theorem soleGuard_of_check {s : State} {ps : List Point} {h : Handle} {g : Fin 2} {o : Order} {e : GuardEntry}
    (k : soleCheck s ps h g o e = true) : SoleGuard s ps h g o e := by
  simp only [soleCheck, Bool.and_eq_true, decide_eq_true_eq, List.contains_iff_mem] at k
  obtain ⟨⟨⟨⟨⟨h1, h2⟩, h3⟩, h4⟩, h6⟩, h5⟩ := k
  refine ⟨h1, h2, h3, fun i q j e' hq he hp => ?_, guardLaw_of_check h4, laneLaw_of_check h6⟩
  have hm := List.all_eq_true.mp (allOrders_of_check (p := fun i q => q.guards.zipIdx.all fun x =>
    !ps.contains x.1.guard.point || (i = h.slot && x.2 = g.val)) h5 i q hq) (e', j)
    (List.mk_mem_zipIdx_iff_getElem?.mpr he)
  simpa [hp] using hm

end Sys2Proof.Machine
end

