-- ==== Sys2Proof/Laws/State.lean ====
section
/-! SUPPORT. The simp set of State: what each write leaves (one theorem per write, one conjunct per field and per
read), and what a read finds after a write to its own table. -/

namespace Sys2Proof.Machine

@[simp] theorem setSlot_leaves (s : State) (i : Slot) (x : SlotState) :
    (s.setSlot i x).mode = s.mode ∧ (s.setSlot i x).lanes = s.lanes ∧ (s.setSlot i x).travel = s.travel ∧
    (s.setSlot i x).travelLimit = s.travelLimit ∧ (s.setSlot i x).interlocks = s.interlocks ∧ (s.setSlot i x).direct = s.direct ∧
    (s.setSlot i x).modules = s.modules ∧ (s.setSlot i x).modValues = s.modValues ∧ (s.setSlot i x).depth = s.depth ∧
    (s.setSlot i x).drift = s.drift ∧ (s.setSlot i x).banks = s.banks ∧ (s.setSlot i x).active = s.active ∧
    (s.setSlot i x).map = s.map ∧ (s.setSlot i x).chans = s.chans ∧ (s.setSlot i x).cals = s.cals ∧
    (s.setSlot i x).templates = s.templates ∧ (s.setSlot i x).fallback = s.fallback ∧ (s.setSlot i x).halt = s.halt ∧
    (s.setSlot i x).link = s.link ∧ (s.setSlot i x).txQueue = s.txQueue ∧ (s.setSlot i x).noticesLost = s.noticesLost ∧
    (s.setSlot i x).rx = s.rx ∧ (s.setSlot i x).pair = s.pair ∧ (s.setSlot i x).finishing = s.finishing ∧ (s.setSlot i x).collided = s.collided ∧
    (s.setSlot i x).line = s.line ∧ (s.setSlot i x).draws = s.draws ∧ (s.setSlot i x).pending = s.pending ∧
    (∀ a', (s.setSlot i x).lane a' = s.lane a') ∧ (∀ w', (s.setSlot i x).interlock w' = s.interlock w') ∧ (∀ p', (s.setSlot i x).directAt p' = s.directAt p') ∧
    (∀ m', (s.setSlot i x).module m' = s.module m') ∧ (∀ k', (s.setSlot i x).modValue k' = s.modValue k') ∧ (∀ b' e', (s.setSlot i x).entry b' e' = s.entry b' e') ∧
    (∀ a', (s.setSlot i x).mapAt a' = s.mapAt a') ∧ (∀ c', (s.setSlot i x).chan c' = s.chan c') ∧ (∀ c', (s.setSlot i x).assignee c' = s.assignee c') ∧
    (∀ a', (s.setSlot i x).cal a' = s.cal a') ∧ (∀ x', (s.setSlot i x).template x' = s.template x') := by
  and_intros <;> intros <;> rfl

@[simp] theorem updLane_leaves (s : State) (a : Actuator) (f : Lane → Lane) :
    (s.updLane a f).mode = s.mode ∧ (s.updLane a f).slots = s.slots ∧ (s.updLane a f).travel = s.travel ∧
    (s.updLane a f).travelLimit = s.travelLimit ∧ (s.updLane a f).interlocks = s.interlocks ∧ (s.updLane a f).direct = s.direct ∧
    (s.updLane a f).modules = s.modules ∧ (s.updLane a f).modValues = s.modValues ∧ (s.updLane a f).depth = s.depth ∧
    (s.updLane a f).drift = s.drift ∧ (s.updLane a f).banks = s.banks ∧ (s.updLane a f).active = s.active ∧
    (s.updLane a f).map = s.map ∧ (s.updLane a f).chans = s.chans ∧ (s.updLane a f).cals = s.cals ∧
    (s.updLane a f).templates = s.templates ∧ (s.updLane a f).fallback = s.fallback ∧ (s.updLane a f).halt = s.halt ∧
    (s.updLane a f).link = s.link ∧ (s.updLane a f).txQueue = s.txQueue ∧ (s.updLane a f).noticesLost = s.noticesLost ∧
    (s.updLane a f).rx = s.rx ∧ (s.updLane a f).pair = s.pair ∧ (s.updLane a f).finishing = s.finishing ∧ (s.updLane a f).collided = s.collided ∧
    (s.updLane a f).line = s.line ∧ (s.updLane a f).draws = s.draws ∧ (s.updLane a f).pending = s.pending ∧
    (∀ i', (s.updLane a f).slot i' = s.slot i') ∧ (∀ i', (s.updLane a f).orderAt i' = s.orderAt i') ∧ (∀ i', (s.updLane a f).handleAt i' = s.handleAt i') ∧
    (∀ h', (s.updLane a f).order? h' = s.order? h') ∧ (∀ w', (s.updLane a f).interlock w' = s.interlock w') ∧ (∀ p', (s.updLane a f).directAt p' = s.directAt p') ∧
    (∀ m', (s.updLane a f).module m' = s.module m') ∧ (∀ k', (s.updLane a f).modValue k' = s.modValue k') ∧ (∀ b' e', (s.updLane a f).entry b' e' = s.entry b' e') ∧
    (∀ a', (s.updLane a f).mapAt a' = s.mapAt a') ∧ (∀ c', (s.updLane a f).chan c' = s.chan c') ∧ (∀ c', (s.updLane a f).assignee c' = s.assignee c') ∧
    (∀ a', (s.updLane a f).cal a' = s.cal a') ∧ (∀ x', (s.updLane a f).template x' = s.template x') := by
  and_intros <;> intros <;> rfl

@[simp] theorem setInterlock_leaves (s : State) (w : Fin 2) (x : Interlock) :
    (s.setInterlock w x).mode = s.mode ∧ (s.setInterlock w x).slots = s.slots ∧ (s.setInterlock w x).lanes = s.lanes ∧
    (s.setInterlock w x).travel = s.travel ∧ (s.setInterlock w x).travelLimit = s.travelLimit ∧ (s.setInterlock w x).direct = s.direct ∧
    (s.setInterlock w x).modules = s.modules ∧ (s.setInterlock w x).modValues = s.modValues ∧ (s.setInterlock w x).depth = s.depth ∧
    (s.setInterlock w x).drift = s.drift ∧ (s.setInterlock w x).banks = s.banks ∧ (s.setInterlock w x).active = s.active ∧
    (s.setInterlock w x).map = s.map ∧ (s.setInterlock w x).chans = s.chans ∧ (s.setInterlock w x).cals = s.cals ∧
    (s.setInterlock w x).templates = s.templates ∧ (s.setInterlock w x).fallback = s.fallback ∧ (s.setInterlock w x).halt = s.halt ∧
    (s.setInterlock w x).link = s.link ∧ (s.setInterlock w x).txQueue = s.txQueue ∧ (s.setInterlock w x).noticesLost = s.noticesLost ∧
    (s.setInterlock w x).rx = s.rx ∧ (s.setInterlock w x).pair = s.pair ∧ (s.setInterlock w x).finishing = s.finishing ∧ (s.setInterlock w x).collided = s.collided ∧
    (s.setInterlock w x).line = s.line ∧ (s.setInterlock w x).draws = s.draws ∧ (s.setInterlock w x).pending = s.pending ∧
    (∀ i', (s.setInterlock w x).slot i' = s.slot i') ∧ (∀ i', (s.setInterlock w x).orderAt i' = s.orderAt i') ∧ (∀ i', (s.setInterlock w x).handleAt i' = s.handleAt i') ∧
    (∀ h', (s.setInterlock w x).order? h' = s.order? h') ∧ (∀ a', (s.setInterlock w x).lane a' = s.lane a') ∧ (∀ p', (s.setInterlock w x).directAt p' = s.directAt p') ∧
    (∀ m', (s.setInterlock w x).module m' = s.module m') ∧ (∀ k', (s.setInterlock w x).modValue k' = s.modValue k') ∧ (∀ b' e', (s.setInterlock w x).entry b' e' = s.entry b' e') ∧
    (∀ a', (s.setInterlock w x).mapAt a' = s.mapAt a') ∧ (∀ c', (s.setInterlock w x).chan c' = s.chan c') ∧ (∀ c', (s.setInterlock w x).assignee c' = s.assignee c') ∧
    (∀ a', (s.setInterlock w x).cal a' = s.cal a') ∧ (∀ x', (s.setInterlock w x).template x' = s.template x') := by
  and_intros <;> intros <;> rfl

@[simp] theorem setDirect_leaves (s : State) (p : DirectPoint) (x : DirectState) :
    (s.setDirect p x).mode = s.mode ∧ (s.setDirect p x).slots = s.slots ∧ (s.setDirect p x).lanes = s.lanes ∧
    (s.setDirect p x).travel = s.travel ∧ (s.setDirect p x).travelLimit = s.travelLimit ∧ (s.setDirect p x).interlocks = s.interlocks ∧
    (s.setDirect p x).modules = s.modules ∧ (s.setDirect p x).modValues = s.modValues ∧ (s.setDirect p x).depth = s.depth ∧
    (s.setDirect p x).drift = s.drift ∧ (s.setDirect p x).banks = s.banks ∧ (s.setDirect p x).active = s.active ∧
    (s.setDirect p x).map = s.map ∧ (s.setDirect p x).chans = s.chans ∧ (s.setDirect p x).cals = s.cals ∧
    (s.setDirect p x).templates = s.templates ∧ (s.setDirect p x).fallback = s.fallback ∧ (s.setDirect p x).halt = s.halt ∧
    (s.setDirect p x).link = s.link ∧ (s.setDirect p x).txQueue = s.txQueue ∧ (s.setDirect p x).noticesLost = s.noticesLost ∧
    (s.setDirect p x).rx = s.rx ∧ (s.setDirect p x).pair = s.pair ∧ (s.setDirect p x).finishing = s.finishing ∧ (s.setDirect p x).collided = s.collided ∧
    (s.setDirect p x).line = s.line ∧ (s.setDirect p x).draws = s.draws ∧ (s.setDirect p x).pending = s.pending ∧
    (∀ i', (s.setDirect p x).slot i' = s.slot i') ∧ (∀ i', (s.setDirect p x).orderAt i' = s.orderAt i') ∧ (∀ i', (s.setDirect p x).handleAt i' = s.handleAt i') ∧
    (∀ h', (s.setDirect p x).order? h' = s.order? h') ∧ (∀ a', (s.setDirect p x).lane a' = s.lane a') ∧ (∀ w', (s.setDirect p x).interlock w' = s.interlock w') ∧
    (∀ m', (s.setDirect p x).module m' = s.module m') ∧ (∀ k', (s.setDirect p x).modValue k' = s.modValue k') ∧ (∀ b' e', (s.setDirect p x).entry b' e' = s.entry b' e') ∧
    (∀ a', (s.setDirect p x).mapAt a' = s.mapAt a') ∧ (∀ c', (s.setDirect p x).chan c' = s.chan c') ∧ (∀ c', (s.setDirect p x).assignee c' = s.assignee c') ∧
    (∀ a', (s.setDirect p x).cal a' = s.cal a') ∧ (∀ x', (s.setDirect p x).template x' = s.template x') := by
  and_intros <;> intros <;> rfl

@[simp] theorem setModule_leaves (s : State) (m : Module) (x : ModuleState) :
    (s.setModule m x).mode = s.mode ∧ (s.setModule m x).slots = s.slots ∧ (s.setModule m x).lanes = s.lanes ∧
    (s.setModule m x).travel = s.travel ∧ (s.setModule m x).travelLimit = s.travelLimit ∧ (s.setModule m x).interlocks = s.interlocks ∧
    (s.setModule m x).direct = s.direct ∧ (s.setModule m x).modValues = s.modValues ∧ (s.setModule m x).depth = s.depth ∧
    (s.setModule m x).drift = s.drift ∧ (s.setModule m x).banks = s.banks ∧ (s.setModule m x).active = s.active ∧
    (s.setModule m x).map = s.map ∧ (s.setModule m x).chans = s.chans ∧ (s.setModule m x).cals = s.cals ∧
    (s.setModule m x).templates = s.templates ∧ (s.setModule m x).fallback = s.fallback ∧ (s.setModule m x).halt = s.halt ∧
    (s.setModule m x).link = s.link ∧ (s.setModule m x).txQueue = s.txQueue ∧ (s.setModule m x).noticesLost = s.noticesLost ∧
    (s.setModule m x).rx = s.rx ∧ (s.setModule m x).pair = s.pair ∧ (s.setModule m x).finishing = s.finishing ∧ (s.setModule m x).collided = s.collided ∧
    (s.setModule m x).line = s.line ∧ (s.setModule m x).draws = s.draws ∧ (s.setModule m x).pending = s.pending ∧
    (∀ i', (s.setModule m x).slot i' = s.slot i') ∧ (∀ i', (s.setModule m x).orderAt i' = s.orderAt i') ∧ (∀ i', (s.setModule m x).handleAt i' = s.handleAt i') ∧
    (∀ h', (s.setModule m x).order? h' = s.order? h') ∧ (∀ a', (s.setModule m x).lane a' = s.lane a') ∧ (∀ w', (s.setModule m x).interlock w' = s.interlock w') ∧
    (∀ p', (s.setModule m x).directAt p' = s.directAt p') ∧ (∀ k', (s.setModule m x).modValue k' = s.modValue k') ∧ (∀ b' e', (s.setModule m x).entry b' e' = s.entry b' e') ∧
    (∀ a', (s.setModule m x).mapAt a' = s.mapAt a') ∧ (∀ c', (s.setModule m x).chan c' = s.chan c') ∧ (∀ c', (s.setModule m x).assignee c' = s.assignee c') ∧
    (∀ a', (s.setModule m x).cal a' = s.cal a') ∧ (∀ x', (s.setModule m x).template x' = s.template x') := by
  and_intros <;> intros <;> rfl

@[simp] theorem setModValue_leaves (s : State) (k : Fin 5) (v : Int) :
    (s.setModValue k v).mode = s.mode ∧ (s.setModValue k v).slots = s.slots ∧ (s.setModValue k v).lanes = s.lanes ∧
    (s.setModValue k v).travel = s.travel ∧ (s.setModValue k v).travelLimit = s.travelLimit ∧ (s.setModValue k v).interlocks = s.interlocks ∧
    (s.setModValue k v).direct = s.direct ∧ (s.setModValue k v).modules = s.modules ∧ (s.setModValue k v).depth = s.depth ∧
    (s.setModValue k v).drift = s.drift ∧ (s.setModValue k v).banks = s.banks ∧ (s.setModValue k v).active = s.active ∧
    (s.setModValue k v).map = s.map ∧ (s.setModValue k v).chans = s.chans ∧ (s.setModValue k v).cals = s.cals ∧
    (s.setModValue k v).templates = s.templates ∧ (s.setModValue k v).fallback = s.fallback ∧ (s.setModValue k v).halt = s.halt ∧
    (s.setModValue k v).link = s.link ∧ (s.setModValue k v).txQueue = s.txQueue ∧ (s.setModValue k v).noticesLost = s.noticesLost ∧
    (s.setModValue k v).rx = s.rx ∧ (s.setModValue k v).pair = s.pair ∧ (s.setModValue k v).finishing = s.finishing ∧ (s.setModValue k v).collided = s.collided ∧
    (s.setModValue k v).line = s.line ∧ (s.setModValue k v).draws = s.draws ∧ (s.setModValue k v).pending = s.pending ∧
    (∀ i', (s.setModValue k v).slot i' = s.slot i') ∧ (∀ i', (s.setModValue k v).orderAt i' = s.orderAt i') ∧ (∀ i', (s.setModValue k v).handleAt i' = s.handleAt i') ∧
    (∀ h', (s.setModValue k v).order? h' = s.order? h') ∧ (∀ a', (s.setModValue k v).lane a' = s.lane a') ∧ (∀ w', (s.setModValue k v).interlock w' = s.interlock w') ∧
    (∀ p', (s.setModValue k v).directAt p' = s.directAt p') ∧ (∀ m', (s.setModValue k v).module m' = s.module m') ∧ (∀ b' e', (s.setModValue k v).entry b' e' = s.entry b' e') ∧
    (∀ a', (s.setModValue k v).mapAt a' = s.mapAt a') ∧ (∀ c', (s.setModValue k v).chan c' = s.chan c') ∧ (∀ c', (s.setModValue k v).assignee c' = s.assignee c') ∧
    (∀ a', (s.setModValue k v).cal a' = s.cal a') ∧ (∀ x', (s.setModValue k v).template x' = s.template x') := by
  and_intros <;> intros <;> rfl

@[simp] theorem setEntry_leaves (s : State) (b : BankIx) (e : EntryIx) (x : Option PlanEntry) :
    (s.setEntry b e x).mode = s.mode ∧ (s.setEntry b e x).slots = s.slots ∧ (s.setEntry b e x).lanes = s.lanes ∧
    (s.setEntry b e x).travel = s.travel ∧ (s.setEntry b e x).travelLimit = s.travelLimit ∧ (s.setEntry b e x).interlocks = s.interlocks ∧
    (s.setEntry b e x).direct = s.direct ∧ (s.setEntry b e x).modules = s.modules ∧ (s.setEntry b e x).modValues = s.modValues ∧
    (s.setEntry b e x).depth = s.depth ∧ (s.setEntry b e x).drift = s.drift ∧ (s.setEntry b e x).active = s.active ∧
    (s.setEntry b e x).map = s.map ∧ (s.setEntry b e x).chans = s.chans ∧ (s.setEntry b e x).cals = s.cals ∧
    (s.setEntry b e x).templates = s.templates ∧ (s.setEntry b e x).fallback = s.fallback ∧ (s.setEntry b e x).halt = s.halt ∧
    (s.setEntry b e x).link = s.link ∧ (s.setEntry b e x).txQueue = s.txQueue ∧ (s.setEntry b e x).noticesLost = s.noticesLost ∧
    (s.setEntry b e x).rx = s.rx ∧ (s.setEntry b e x).pair = s.pair ∧ (s.setEntry b e x).finishing = s.finishing ∧ (s.setEntry b e x).collided = s.collided ∧
    (s.setEntry b e x).line = s.line ∧ (s.setEntry b e x).draws = s.draws ∧ (s.setEntry b e x).pending = s.pending ∧
    (∀ i', (s.setEntry b e x).slot i' = s.slot i') ∧ (∀ i', (s.setEntry b e x).orderAt i' = s.orderAt i') ∧ (∀ i', (s.setEntry b e x).handleAt i' = s.handleAt i') ∧
    (∀ h', (s.setEntry b e x).order? h' = s.order? h') ∧ (∀ a', (s.setEntry b e x).lane a' = s.lane a') ∧ (∀ w', (s.setEntry b e x).interlock w' = s.interlock w') ∧
    (∀ p', (s.setEntry b e x).directAt p' = s.directAt p') ∧ (∀ m', (s.setEntry b e x).module m' = s.module m') ∧ (∀ k', (s.setEntry b e x).modValue k' = s.modValue k') ∧
    (∀ a', (s.setEntry b e x).mapAt a' = s.mapAt a') ∧ (∀ c', (s.setEntry b e x).chan c' = s.chan c') ∧ (∀ c', (s.setEntry b e x).assignee c' = s.assignee c') ∧
    (∀ a', (s.setEntry b e x).cal a' = s.cal a') ∧ (∀ x', (s.setEntry b e x).template x' = s.template x') := by
  and_intros <;> intros <;> rfl

@[simp] theorem setMap_leaves (s : State) (a : Actuator) (x : MapEntry) :
    (s.setMap a x).mode = s.mode ∧ (s.setMap a x).slots = s.slots ∧ (s.setMap a x).lanes = s.lanes ∧
    (s.setMap a x).travel = s.travel ∧ (s.setMap a x).travelLimit = s.travelLimit ∧ (s.setMap a x).interlocks = s.interlocks ∧
    (s.setMap a x).direct = s.direct ∧ (s.setMap a x).modules = s.modules ∧ (s.setMap a x).modValues = s.modValues ∧
    (s.setMap a x).depth = s.depth ∧ (s.setMap a x).drift = s.drift ∧ (s.setMap a x).banks = s.banks ∧
    (s.setMap a x).active = s.active ∧ (s.setMap a x).chans = s.chans ∧ (s.setMap a x).cals = s.cals ∧
    (s.setMap a x).templates = s.templates ∧ (s.setMap a x).fallback = s.fallback ∧ (s.setMap a x).halt = s.halt ∧
    (s.setMap a x).link = s.link ∧ (s.setMap a x).txQueue = s.txQueue ∧ (s.setMap a x).noticesLost = s.noticesLost ∧
    (s.setMap a x).rx = s.rx ∧ (s.setMap a x).pair = s.pair ∧ (s.setMap a x).finishing = s.finishing ∧ (s.setMap a x).collided = s.collided ∧
    (s.setMap a x).line = s.line ∧ (s.setMap a x).draws = s.draws ∧ (s.setMap a x).pending = s.pending ∧
    (∀ i', (s.setMap a x).slot i' = s.slot i') ∧ (∀ i', (s.setMap a x).orderAt i' = s.orderAt i') ∧ (∀ i', (s.setMap a x).handleAt i' = s.handleAt i') ∧
    (∀ h', (s.setMap a x).order? h' = s.order? h') ∧ (∀ a', (s.setMap a x).lane a' = s.lane a') ∧ (∀ w', (s.setMap a x).interlock w' = s.interlock w') ∧
    (∀ p', (s.setMap a x).directAt p' = s.directAt p') ∧ (∀ m', (s.setMap a x).module m' = s.module m') ∧ (∀ k', (s.setMap a x).modValue k' = s.modValue k') ∧
    (∀ b' e', (s.setMap a x).entry b' e' = s.entry b' e') ∧ (∀ c', (s.setMap a x).chan c' = s.chan c') ∧ (∀ a', (s.setMap a x).cal a' = s.cal a') ∧
    (∀ x', (s.setMap a x).template x' = s.template x') := by
  and_intros <;> intros <;> rfl

@[simp] theorem setChan_leaves (s : State) (c : Chan) (x : ChanState) :
    (s.setChan c x).mode = s.mode ∧ (s.setChan c x).slots = s.slots ∧ (s.setChan c x).lanes = s.lanes ∧
    (s.setChan c x).travel = s.travel ∧ (s.setChan c x).travelLimit = s.travelLimit ∧ (s.setChan c x).interlocks = s.interlocks ∧
    (s.setChan c x).direct = s.direct ∧ (s.setChan c x).modules = s.modules ∧ (s.setChan c x).modValues = s.modValues ∧
    (s.setChan c x).depth = s.depth ∧ (s.setChan c x).drift = s.drift ∧ (s.setChan c x).banks = s.banks ∧
    (s.setChan c x).active = s.active ∧ (s.setChan c x).map = s.map ∧ (s.setChan c x).cals = s.cals ∧
    (s.setChan c x).templates = s.templates ∧ (s.setChan c x).fallback = s.fallback ∧ (s.setChan c x).halt = s.halt ∧
    (s.setChan c x).link = s.link ∧ (s.setChan c x).txQueue = s.txQueue ∧ (s.setChan c x).noticesLost = s.noticesLost ∧
    (s.setChan c x).rx = s.rx ∧ (s.setChan c x).pair = s.pair ∧ (s.setChan c x).finishing = s.finishing ∧ (s.setChan c x).collided = s.collided ∧
    (s.setChan c x).line = s.line ∧ (s.setChan c x).draws = s.draws ∧ (s.setChan c x).pending = s.pending ∧
    (∀ i', (s.setChan c x).slot i' = s.slot i') ∧ (∀ i', (s.setChan c x).orderAt i' = s.orderAt i') ∧ (∀ i', (s.setChan c x).handleAt i' = s.handleAt i') ∧
    (∀ h', (s.setChan c x).order? h' = s.order? h') ∧ (∀ a', (s.setChan c x).lane a' = s.lane a') ∧ (∀ w', (s.setChan c x).interlock w' = s.interlock w') ∧
    (∀ p', (s.setChan c x).directAt p' = s.directAt p') ∧ (∀ m', (s.setChan c x).module m' = s.module m') ∧ (∀ k', (s.setChan c x).modValue k' = s.modValue k') ∧
    (∀ b' e', (s.setChan c x).entry b' e' = s.entry b' e') ∧ (∀ a', (s.setChan c x).mapAt a' = s.mapAt a') ∧ (∀ c', (s.setChan c x).assignee c' = s.assignee c') ∧
    (∀ a', (s.setChan c x).cal a' = s.cal a') ∧ (∀ x', (s.setChan c x).template x' = s.template x') := by
  and_intros <;> intros <;> rfl

@[simp] theorem setTemplate_leaves (s : State) (t : TemplateIx) (x : Option Template) :
    (s.setTemplate t x).mode = s.mode ∧ (s.setTemplate t x).slots = s.slots ∧ (s.setTemplate t x).lanes = s.lanes ∧
    (s.setTemplate t x).travel = s.travel ∧ (s.setTemplate t x).travelLimit = s.travelLimit ∧ (s.setTemplate t x).interlocks = s.interlocks ∧
    (s.setTemplate t x).direct = s.direct ∧ (s.setTemplate t x).modules = s.modules ∧ (s.setTemplate t x).modValues = s.modValues ∧
    (s.setTemplate t x).depth = s.depth ∧ (s.setTemplate t x).drift = s.drift ∧ (s.setTemplate t x).banks = s.banks ∧
    (s.setTemplate t x).active = s.active ∧ (s.setTemplate t x).map = s.map ∧ (s.setTemplate t x).chans = s.chans ∧
    (s.setTemplate t x).cals = s.cals ∧ (s.setTemplate t x).fallback = s.fallback ∧ (s.setTemplate t x).halt = s.halt ∧
    (s.setTemplate t x).link = s.link ∧ (s.setTemplate t x).txQueue = s.txQueue ∧ (s.setTemplate t x).noticesLost = s.noticesLost ∧
    (s.setTemplate t x).rx = s.rx ∧ (s.setTemplate t x).pair = s.pair ∧ (s.setTemplate t x).finishing = s.finishing ∧ (s.setTemplate t x).collided = s.collided ∧
    (s.setTemplate t x).line = s.line ∧ (s.setTemplate t x).draws = s.draws ∧ (s.setTemplate t x).pending = s.pending ∧
    (∀ i', (s.setTemplate t x).slot i' = s.slot i') ∧ (∀ i', (s.setTemplate t x).orderAt i' = s.orderAt i') ∧ (∀ i', (s.setTemplate t x).handleAt i' = s.handleAt i') ∧
    (∀ h', (s.setTemplate t x).order? h' = s.order? h') ∧ (∀ a', (s.setTemplate t x).lane a' = s.lane a') ∧ (∀ w', (s.setTemplate t x).interlock w' = s.interlock w') ∧
    (∀ p', (s.setTemplate t x).directAt p' = s.directAt p') ∧ (∀ m', (s.setTemplate t x).module m' = s.module m') ∧ (∀ k', (s.setTemplate t x).modValue k' = s.modValue k') ∧
    (∀ b' e', (s.setTemplate t x).entry b' e' = s.entry b' e') ∧ (∀ a', (s.setTemplate t x).mapAt a' = s.mapAt a') ∧ (∀ c', (s.setTemplate t x).chan c' = s.chan c') ∧
    (∀ c', (s.setTemplate t x).assignee c' = s.assignee c') ∧ (∀ a', (s.setTemplate t x).cal a' = s.cal a') := by
  and_intros <;> intros <;> rfl

@[simp] theorem updOrder_leaves (s : State) (i : Slot) (f : Order → Order) :
    (s.updOrder i f).mode = s.mode ∧ (s.updOrder i f).lanes = s.lanes ∧ (s.updOrder i f).travel = s.travel ∧
    (s.updOrder i f).travelLimit = s.travelLimit ∧ (s.updOrder i f).interlocks = s.interlocks ∧ (s.updOrder i f).direct = s.direct ∧
    (s.updOrder i f).modules = s.modules ∧ (s.updOrder i f).modValues = s.modValues ∧ (s.updOrder i f).depth = s.depth ∧
    (s.updOrder i f).drift = s.drift ∧ (s.updOrder i f).banks = s.banks ∧ (s.updOrder i f).active = s.active ∧
    (s.updOrder i f).map = s.map ∧ (s.updOrder i f).chans = s.chans ∧ (s.updOrder i f).cals = s.cals ∧
    (s.updOrder i f).templates = s.templates ∧ (s.updOrder i f).fallback = s.fallback ∧ (s.updOrder i f).halt = s.halt ∧
    (s.updOrder i f).link = s.link ∧ (s.updOrder i f).txQueue = s.txQueue ∧ (s.updOrder i f).noticesLost = s.noticesLost ∧
    (s.updOrder i f).rx = s.rx ∧ (s.updOrder i f).pair = s.pair ∧ (s.updOrder i f).finishing = s.finishing ∧ (s.updOrder i f).collided = s.collided ∧
    (s.updOrder i f).line = s.line ∧ (s.updOrder i f).draws = s.draws ∧ (s.updOrder i f).pending = s.pending ∧
    (∀ a', (s.updOrder i f).lane a' = s.lane a') ∧ (∀ w', (s.updOrder i f).interlock w' = s.interlock w') ∧ (∀ p', (s.updOrder i f).directAt p' = s.directAt p') ∧
    (∀ m', (s.updOrder i f).module m' = s.module m') ∧ (∀ k', (s.updOrder i f).modValue k' = s.modValue k') ∧ (∀ b' e', (s.updOrder i f).entry b' e' = s.entry b' e') ∧
    (∀ a', (s.updOrder i f).mapAt a' = s.mapAt a') ∧ (∀ c', (s.updOrder i f).chan c' = s.chan c') ∧ (∀ c', (s.updOrder i f).assignee c' = s.assignee c') ∧
    (∀ a', (s.updOrder i f).cal a' = s.cal a') ∧ (∀ x', (s.updOrder i f).template x' = s.template x') := by
  unfold State.updOrder; split <;> (and_intros <;> intros <;> rfl)

@[simp] theorem setEntryState_leaves (s : State) (b : BankIx) (e : EntryIx) (x : EntryState) :
    (s.setEntryState b e x).mode = s.mode ∧ (s.setEntryState b e x).slots = s.slots ∧ (s.setEntryState b e x).lanes = s.lanes ∧
    (s.setEntryState b e x).travel = s.travel ∧ (s.setEntryState b e x).travelLimit = s.travelLimit ∧ (s.setEntryState b e x).interlocks = s.interlocks ∧
    (s.setEntryState b e x).direct = s.direct ∧ (s.setEntryState b e x).modules = s.modules ∧ (s.setEntryState b e x).modValues = s.modValues ∧
    (s.setEntryState b e x).depth = s.depth ∧ (s.setEntryState b e x).drift = s.drift ∧ (s.setEntryState b e x).active = s.active ∧
    (s.setEntryState b e x).map = s.map ∧ (s.setEntryState b e x).chans = s.chans ∧ (s.setEntryState b e x).cals = s.cals ∧
    (s.setEntryState b e x).templates = s.templates ∧ (s.setEntryState b e x).fallback = s.fallback ∧ (s.setEntryState b e x).halt = s.halt ∧
    (s.setEntryState b e x).link = s.link ∧ (s.setEntryState b e x).txQueue = s.txQueue ∧ (s.setEntryState b e x).noticesLost = s.noticesLost ∧
    (s.setEntryState b e x).rx = s.rx ∧ (s.setEntryState b e x).pair = s.pair ∧ (s.setEntryState b e x).finishing = s.finishing ∧ (s.setEntryState b e x).collided = s.collided ∧
    (s.setEntryState b e x).line = s.line ∧ (s.setEntryState b e x).draws = s.draws ∧ (s.setEntryState b e x).pending = s.pending ∧
    (∀ i', (s.setEntryState b e x).slot i' = s.slot i') ∧ (∀ i', (s.setEntryState b e x).orderAt i' = s.orderAt i') ∧ (∀ i', (s.setEntryState b e x).handleAt i' = s.handleAt i') ∧
    (∀ h', (s.setEntryState b e x).order? h' = s.order? h') ∧ (∀ a', (s.setEntryState b e x).lane a' = s.lane a') ∧ (∀ w', (s.setEntryState b e x).interlock w' = s.interlock w') ∧
    (∀ p', (s.setEntryState b e x).directAt p' = s.directAt p') ∧ (∀ m', (s.setEntryState b e x).module m' = s.module m') ∧ (∀ k', (s.setEntryState b e x).modValue k' = s.modValue k') ∧
    (∀ a', (s.setEntryState b e x).mapAt a' = s.mapAt a') ∧ (∀ c', (s.setEntryState b e x).chan c' = s.chan c') ∧ (∀ c', (s.setEntryState b e x).assignee c' = s.assignee c') ∧
    (∀ a', (s.setEntryState b e x).cal a' = s.cal a') ∧ (∀ x', (s.setEntryState b e x).template x' = s.template x') := by
  unfold State.setEntryState; split <;> (and_intros <;> intros <;> rfl)

@[simp] theorem setBinding_leaves (s : State) (w : IssueSet) (a : Actuator) (t : Option TemplateIx) :
    (s.setBinding w a t).mode = s.mode ∧ (s.setBinding w a t).slots = s.slots ∧ (s.setBinding w a t).lanes = s.lanes ∧
    (s.setBinding w a t).travel = s.travel ∧ (s.setBinding w a t).travelLimit = s.travelLimit ∧ (s.setBinding w a t).interlocks = s.interlocks ∧
    (s.setBinding w a t).direct = s.direct ∧ (s.setBinding w a t).modules = s.modules ∧ (s.setBinding w a t).modValues = s.modValues ∧
    (s.setBinding w a t).depth = s.depth ∧ (s.setBinding w a t).drift = s.drift ∧ (s.setBinding w a t).banks = s.banks ∧
    (s.setBinding w a t).active = s.active ∧ (s.setBinding w a t).map = s.map ∧ (s.setBinding w a t).chans = s.chans ∧
    (s.setBinding w a t).cals = s.cals ∧ (s.setBinding w a t).templates = s.templates ∧ (s.setBinding w a t).link = s.link ∧
    (s.setBinding w a t).txQueue = s.txQueue ∧ (s.setBinding w a t).noticesLost = s.noticesLost ∧ (s.setBinding w a t).rx = s.rx ∧
    (s.setBinding w a t).pair = s.pair ∧ (s.setBinding w a t).finishing = s.finishing ∧ (s.setBinding w a t).collided = s.collided ∧ (s.setBinding w a t).line = s.line ∧
    (s.setBinding w a t).draws = s.draws ∧ (s.setBinding w a t).pending = s.pending ∧ (∀ i', (s.setBinding w a t).slot i' = s.slot i') ∧
    (∀ i', (s.setBinding w a t).orderAt i' = s.orderAt i') ∧ (∀ i', (s.setBinding w a t).handleAt i' = s.handleAt i') ∧ (∀ h', (s.setBinding w a t).order? h' = s.order? h') ∧
    (∀ a', (s.setBinding w a t).lane a' = s.lane a') ∧ (∀ w', (s.setBinding w a t).interlock w' = s.interlock w') ∧ (∀ p', (s.setBinding w a t).directAt p' = s.directAt p') ∧
    (∀ m', (s.setBinding w a t).module m' = s.module m') ∧ (∀ k', (s.setBinding w a t).modValue k' = s.modValue k') ∧ (∀ b' e', (s.setBinding w a t).entry b' e' = s.entry b' e') ∧
    (∀ a', (s.setBinding w a t).mapAt a' = s.mapAt a') ∧ (∀ c', (s.setBinding w a t).chan c' = s.chan c') ∧ (∀ c', (s.setBinding w a t).assignee c' = s.assignee c') ∧
    (∀ a', (s.setBinding w a t).cal a' = s.cal a') ∧ (∀ x', (s.setBinding w a t).template x' = s.template x') := by
  cases w <;> (and_intros <;> intros <;> rfl)

@[simp] theorem queueNotice_leaves (o : Origin) (n : Notice) (s : State) :
    (queueNotice o n s).mode = s.mode ∧ (queueNotice o n s).slots = s.slots ∧ (queueNotice o n s).lanes = s.lanes ∧
    (queueNotice o n s).travel = s.travel ∧ (queueNotice o n s).travelLimit = s.travelLimit ∧ (queueNotice o n s).interlocks = s.interlocks ∧
    (queueNotice o n s).direct = s.direct ∧ (queueNotice o n s).modules = s.modules ∧ (queueNotice o n s).modValues = s.modValues ∧
    (queueNotice o n s).depth = s.depth ∧ (queueNotice o n s).drift = s.drift ∧ (queueNotice o n s).banks = s.banks ∧
    (queueNotice o n s).active = s.active ∧ (queueNotice o n s).map = s.map ∧ (queueNotice o n s).chans = s.chans ∧
    (queueNotice o n s).cals = s.cals ∧ (queueNotice o n s).templates = s.templates ∧ (queueNotice o n s).fallback = s.fallback ∧
    (queueNotice o n s).halt = s.halt ∧ (queueNotice o n s).link = s.link ∧ (queueNotice o n s).rx = s.rx ∧
    (queueNotice o n s).pair = s.pair ∧ (queueNotice o n s).finishing = s.finishing ∧ (queueNotice o n s).collided = s.collided ∧ (queueNotice o n s).line = s.line ∧
    (queueNotice o n s).draws = s.draws ∧ (queueNotice o n s).pending = s.pending ∧ (∀ i', (queueNotice o n s).slot i' = s.slot i') ∧
    (∀ i', (queueNotice o n s).orderAt i' = s.orderAt i') ∧ (∀ i', (queueNotice o n s).handleAt i' = s.handleAt i') ∧ (∀ h', (queueNotice o n s).order? h' = s.order? h') ∧
    (∀ a', (queueNotice o n s).lane a' = s.lane a') ∧ (∀ w', (queueNotice o n s).interlock w' = s.interlock w') ∧ (∀ p', (queueNotice o n s).directAt p' = s.directAt p') ∧
    (∀ m', (queueNotice o n s).module m' = s.module m') ∧ (∀ k', (queueNotice o n s).modValue k' = s.modValue k') ∧ (∀ b' e', (queueNotice o n s).entry b' e' = s.entry b' e') ∧
    (∀ a', (queueNotice o n s).mapAt a' = s.mapAt a') ∧ (∀ c', (queueNotice o n s).chan c' = s.chan c') ∧ (∀ c', (queueNotice o n s).assignee c' = s.assignee c') ∧
    (∀ a', (queueNotice o n s).cal a' = s.cal a') ∧ (∀ x', (queueNotice o n s).template x' = s.template x') := by
  unfold queueNotice; split <;> (and_intros <;> intros <;> rfl)

/-! ### Reads after writes -/

theorem slot_setSlot (s : State) (i : Slot) (x : SlotState) (j : Slot) :
    (s.setSlot i x).slot j = if j = i then x else s.slot j := by
  simp [State.slot, State.setSlot, Vector.getElem_set, Fin.ext_iff, eq_comm]

theorem orderAt_setSlot (s : State) (i : Slot) (x : SlotState) (j : Slot) :
    (s.setSlot i x).orderAt j = if j = i then x.order else s.orderAt j := by
  unfold State.orderAt; rw [slot_setSlot]; split <;> rfl

theorem slot_updOrder (s : State) (i : Slot) (f : Order → Order) (j : Slot) :
    (s.updOrder i f).slot j = if j = i then ⟨(s.slot i).gen, (s.orderAt i).map f⟩ else s.slot j := by
  unfold State.updOrder
  split
  · rename_i o h; rw [slot_setSlot, h]; rfl
  · rename_i h; split
    · subst j; rw [h]; unfold State.orderAt at h; rw [Option.map_none, ← h]
    · rfl

theorem orderAt_updOrder (s : State) (i : Slot) (f : Order → Order) (j : Slot) :
    (s.updOrder i f).orderAt j = if j = i then (s.orderAt i).map f else s.orderAt j := by
  unfold State.orderAt; rw [slot_updOrder]; split <;> rfl

@[simp] theorem gen_updOrder (s : State) (i : Slot) (f : Order → Order) (j : Slot) :
    ((s.updOrder i f).slot j).gen = (s.slot j).gen := by
  rw [slot_updOrder]; split
  · subst j; rfl
  · rfl

@[simp] theorem handleAt_updOrder (s : State) (i : Slot) (f : Order → Order) (j : Slot) :
    (s.updOrder i f).handleAt j = s.handleAt j := by
  unfold State.handleAt; rw [gen_updOrder]

theorem order?_updOrder (s : State) (i : Slot) (f : Order → Order) (h : Handle) :
    (s.updOrder i f).order? h = if h.slot = i then (s.order? h).map f else s.order? h := by
  unfold State.order?
  rw [gen_updOrder, orderAt_updOrder]
  by_cases hi : h.slot = i
  · subst hi; by_cases hg : (s.slot h.slot).gen = h.gen <;> simp [hg]
  · simp [hi]

theorem lane_updLane (s : State) (a : Actuator) (f : Lane → Lane) (b : Actuator) :
    (s.updLane a f).lane b = if b = a then f (s.lane a) else s.lane b := by
  simp [State.lane, State.updLane, Vector.getElem_set, Fin.ext_iff, eq_comm]

theorem interlock_setInterlock (s : State) (w : Fin 2) (x : Interlock) (v : Fin 2) :
    (s.setInterlock w x).interlock v = if v = w then x else s.interlock v := by
  simp [State.interlock, State.setInterlock, Vector.getElem_set, Fin.ext_iff, eq_comm]

theorem directAt_setDirect (s : State) (p : DirectPoint) (x : DirectState) (q : DirectPoint) :
    (s.setDirect p x).directAt q = if q = p then x else s.directAt q := by
  simp [State.directAt, State.setDirect, Vector.getElem_set, Fin.ext_iff, eq_comm]

theorem moduleIndex_inj {m n : Module} (h : moduleIndex m = moduleIndex n) : m = n := by
  cases m <;> cases n <;> first | rfl | (exact absurd h (by decide))

theorem module_setModule (s : State) (m : Module) (x : ModuleState) (n : Module) :
    (s.setModule m x).module n = if n = m then x else s.module n := by
  have : ((moduleIndex m).val = (moduleIndex n).val) ↔ n = m :=
    ⟨fun h => (moduleIndex_inj (Fin.ext h)).symm, fun h => by rw [h]⟩
  simp [State.module, State.setModule, Vector.getElem_set, this]

theorem modValue_setModValue (s : State) (k : Fin 5) (v : Int) (j : Fin 5) :
    (s.setModValue k v).modValue j = if j = k then some v else s.modValue j := by
  simp [State.modValue, State.setModValue, Vector.getElem_set, Fin.ext_iff, eq_comm]

theorem entry_setEntry (s : State) (b : BankIx) (e : EntryIx) (x : Option PlanEntry) (b' : BankIx) (e' : EntryIx) :
    (s.setEntry b e x).entry b' e' = if b' = b ∧ e' = e then x else s.entry b' e' := by
  simp only [State.entry, State.setEntry, Vector.getElem_set]
  by_cases hb : b.val = b'.val
  · have hb' := Fin.ext hb; subst hb'
    simp [Vector.getElem_set, Fin.ext_iff, eq_comm]
  · have : ¬ b' = b := fun h => hb (by rw [h])
    simp [hb, this]

theorem entry_setEntryState (s : State) (b : BankIx) (e : EntryIx) (st : EntryState) (b' : BankIx) (e' : EntryIx) :
    (s.setEntryState b e st).entry b' e' =
      if b' = b ∧ e' = e then (s.entry b e).map fun x => { x with state := st } else s.entry b' e' := by
  unfold State.setEntryState
  split
  · rename_i x h; rw [entry_setEntry, h]; rfl
  · rename_i h; split
    · rename_i hb; obtain ⟨rfl, rfl⟩ := hb; rw [h]; rfl
    · rfl

theorem mapAt_setMap (s : State) (a : Actuator) (x : MapEntry) (b : Actuator) :
    (s.setMap a x).mapAt b = if b = a then x else s.mapAt b := by
  simp [State.mapAt, State.setMap, Vector.getElem_set, Fin.ext_iff, eq_comm]

theorem chan_setChan (s : State) (c : Chan) (x : ChanState) (d : Chan) :
    (s.setChan c x).chan d = if d = c then x else s.chan d := by
  simp [State.chan, State.setChan, Vector.getElem_set, Fin.ext_iff, eq_comm]

theorem template_setTemplate (s : State) (t : TemplateIx) (x : Option Template) (u : TemplateIx) :
    (s.setTemplate t x).template u = if u = t then x else s.template u := by
  simp [State.template, State.setTemplate, Vector.getElem_set, Fin.ext_iff, eq_comm]

theorem binding_setBinding (s : State) (w : IssueSet) (a : Actuator) (t : Option TemplateIx) (v : IssueSet)
    (b : Actuator) :
    (s.setBinding w a t).binding v b = if v = w ∧ b = a then t else s.binding v b := by
  cases w <;> cases v <;>
    simp [State.binding, State.setBinding, Vector.getElem_set, Fin.ext_iff, eq_comm]

/-- The transmit queue after a notice: it grew by the notice, or the flag is set (R175). -/
theorem queueNotice_queue (o : Origin) (n : Notice) (s : State) :
    (queueNotice o n s).txQueue = s.txQueue ++ (if s.noticeCount < 16 then [.notice o n] else []) ∧
    (queueNotice o n s).noticesLost = (s.noticesLost || !decide (s.noticeCount < 16)) := by
  unfold queueNotice; split <;> simp [*]

end Sys2Proof.Machine
end

