-- ==== Sys2Proof/Laws/Engine.lean ====
section
/-! SUPPORT. The frame of the order engine: for each shared operation of Machine/Ops.lean that retires, resolves, settles or evaluates, one lemma that it is an `EngineFrame`. -/

namespace Sys2Proof.Machine

/-! ### The frame composes -/

theorem Order.kept_refl (o : Order) : o.kept o := by simp [Order.kept]

theorem Order.kept_trans {o p q : Order} (h : o.kept p) (k : p.kept q) : o.kept q := by
  simp only [Order.kept] at *; simp only [h, k, and_self]

theorem BlocksKept.refl (s : State) : BlocksKept s s := by constructor <;> rfl

theorem BlocksKept.trans {s t u : State} (h : BlocksKept s t) (k : BlocksKept t u) : BlocksKept s u := by
  cases h; cases k; constructor <;> simp only [*]

theorem TablesKept.refl (s : State) : TablesKept s s where
  lanes _ := by simp [Lane.settingsKept]
  chans _ := by simp [ChanState.settingsKept]
  entries _ _ := rfl
  queue := ⟨[], by simp, by simp⟩
  lost h := h

theorem TablesKept.trans {s t u : State} (h : TablesKept s t) (k : TablesKept t u) : TablesKept s u where
  lanes a := by
    have h1 := h.lanes a; have k1 := k.lanes a
    simp only [Lane.settingsKept] at *; simp only [h1, k1, and_self]
  chans c := by
    have h1 := h.chans c; have k1 := k.chans c
    simp only [ChanState.settingsKept] at *; simp only [h1, k1, and_self]
  entries b e := (k.entries b e).trans (h.entries b e)
  queue := by
    obtain ⟨ns, h1, h2⟩ := h.queue; obtain ⟨ms, k1, k2⟩ := k.queue
    refine ⟨ns ++ ms, by rw [k1, h1, List.append_assoc], fun f hf => ?_⟩
    rcases List.mem_append.1 hf with hf | hf
    · exact h2 f hf
    · exact k2 f hf
  lost x := k.lost (h.lost x)

theorem OrdersKept.refl (s : State) : OrdersKept s s := fun _ p hp => ⟨p, hp, p.kept_refl, rfl⟩

theorem OrdersKept.trans {s t u : State} (h : OrdersKept s t) (k : OrdersKept t u) : OrdersKept s u := by
  intro i q hq
  obtain ⟨p, hp, hpq, hg⟩ := k i q hq
  obtain ⟨o, ho, hop, hg'⟩ := h i p hp
  exact ⟨o, ho, Order.kept_trans hop hpq, hg.trans hg'⟩

theorem EngineFrame.refl (s : State) : EngineFrame s s := ⟨.refl s, rfl, .refl s, .refl s, fun _ _ => rfl⟩

theorem EngineFrame.trans {s t u : State} (h : EngineFrame s t) (k : EngineFrame t u) : EngineFrame s u :=
  ⟨h.blocks.trans k.blocks, k.interlocks.trans h.interlocks, h.tables.trans k.tables, h.orders.trans k.orders,
    fun i hi => (k.free i (by unfold State.orderAt; rw [h.free i hi]; exact hi)).trans (h.free i hi)⟩

theorem foldl_frame {α : Type} {f : State → α → State} (hf : ∀ s x, EngineFrame s (f s x)) (l : List α) (s : State) :
    EngineFrame s (l.foldl f s) := by
  induction l generalizing s with
  | nil => exact .refl s
  | cons x l ih => exact (hf s x).trans (ih _)

/-! ### The writes it is made of -/

theorem updLane_frame {s : State} {a : Actuator} {f : Lane → Lane} (hf : (s.lane a).settingsKept (f (s.lane a))) :
    EngineFrame s (s.updLane a f) where
  blocks := by constructor <;> rfl
  interlocks := rfl
  tables := {
    lanes := fun b => by
      rw [lane_updLane]; split
      · subst b; exact hf
      · simp [Lane.settingsKept]
    chans := (TablesKept.refl s).chans
    entries := fun _ _ => rfl
    queue := (TablesKept.refl s).queue
    lost := id }
  orders := OrdersKept.refl s
  free _ _ := rfl

theorem updOrder_frame {s : State} {i : Slot} {f : Order → Order} (hf : ∀ o : Order, o.kept (f o)) :
    EngineFrame s (s.updOrder i f) where
  blocks := by constructor <;> simp
  interlocks := by simp
  tables := {
    lanes := fun b => by simp [Lane.settingsKept]
    chans := fun c => by simp [ChanState.settingsKept]
    entries := fun _ _ => by simp
    queue := ⟨[], by simp, by simp⟩
    lost := by simp }
  orders := by
    intro j p hp
    rw [orderAt_updOrder] at hp
    split at hp
    · subst j
      obtain ⟨o, ho, rfl⟩ := Option.map_eq_some_iff.1 hp
      exact ⟨o, ho, hf o, by simp⟩
    · exact ⟨p, hp, p.kept_refl, by simp⟩
  free j hj := by
    rw [slot_updOrder]; split
    · subst j; rw [hj]; unfold State.orderAt at hj; rw [Option.map_none, ← hj]
    · rfl

/-- The slot of an order live at the start is freed. -/
theorem EngineFrame.freed {s t : State} (h : EngineFrame s t) {i : Slot} (g : BitVec 8) (hi : s.orderAt i ≠ none) :
    EngineFrame s (t.setSlot i ⟨g, none⟩) where
  blocks := h.blocks.trans (by constructor <;> rfl)
  interlocks := h.interlocks
  tables := h.tables.trans {
    lanes := (TablesKept.refl t).lanes
    chans := (TablesKept.refl t).chans
    entries := fun _ _ => rfl
    queue := (TablesKept.refl t).queue
    lost := id }
  orders := by
    refine h.orders.trans ?_
    intro j p hp
    rw [orderAt_setSlot] at hp
    split at hp
    · cases hp
    · rename_i h
      exact ⟨p, hp, p.kept_refl, by rw [slot_setSlot, if_neg h]⟩
  free j hj := by
    have hne : ¬ j = i := fun e => hi (by rw [← e]; exact hj)
    rw [slot_setSlot, if_neg hne]
    exact h.free j hj

theorem refreshChan_frame (c : Chan) (s : State) : EngineFrame s (refreshChan c s) where
  blocks := by constructor <;> rfl
  interlocks := rfl
  tables := {
    lanes := (TablesKept.refl s).lanes
    chans := fun d => by
      unfold refreshChan; rw [chan_setChan]; split
      · subst d; simp [ChanState.settingsKept]
      · simp [ChanState.settingsKept]
    entries := fun _ _ => rfl
    queue := (TablesKept.refl s).queue
    lost := id }
  orders := OrdersKept.refl s
  free _ _ := rfl

theorem setEntryState_frame (s : State) (b : BankIx) (e : EntryIx) (st : EntryState) :
    EngineFrame s (s.setEntryState b e st) where
  blocks := by constructor <;> simp
  interlocks := by simp
  tables := {
    lanes := fun b => by simp [Lane.settingsKept]
    chans := fun c => by simp [ChanState.settingsKept]
    entries := fun b' e' => by
      rw [entry_setEntryState]; split
      · rename_i h; obtain ⟨rfl, rfl⟩ := h
        cases s.entry b' e' <;> rfl
      · rfl
    queue := ⟨[], by simp, by simp⟩
    lost := by simp }
  orders := fun i p hp => ⟨p, by simpa using hp, p.kept_refl, by simp⟩
  free _ _ := by simp

theorem queueNotice_frame (o : Origin) (n : Notice) (s : State) : EngineFrame s (queueNotice o n s) where
  blocks := by constructor <;> simp
  interlocks := by simp
  tables := {
    lanes := fun b => by simp [Lane.settingsKept]
    chans := fun c => by simp [ChanState.settingsKept]
    entries := fun _ _ => by simp
    queue := ⟨_, (queueNotice_queue o n s).1, by split <;> simp [TxFrame.isNotice]⟩
    lost := by rw [(queueNotice_queue o n s).2]; intro h; simp [h] }
  orders := fun i p hp => ⟨p, by simpa using hp, p.kept_refl, by simp⟩
  free _ _ := by simp

theorem travel_frame (s : State) (x : Travel) : EngineFrame s { s with travel := x } where
  blocks := by constructor <;> rfl
  interlocks := rfl
  tables := {
    lanes := (TablesKept.refl s).lanes
    chans := (TablesKept.refl s).chans
    entries := fun _ _ => rfl
    queue := (TablesKept.refl s).queue
    lost := id }
  orders := OrdersKept.refl s
  free _ _ := rfl

/-! ### Commands and resolution -/

theorem handCommand_frame (a : Actuator) (s : State) : EngineFrame s (handCommand a s) := by
  unfold handCommand; split
  · split
    · exact refreshChan_frame _ s
    · exact .refl s
  · exact .refl s

theorem setCommand_frame (a : Actuator) (v : Int) (s : State) : EngineFrame s (setCommand a v s) :=
  (updLane_frame (by simp [Lane.settingsKept])).trans (handCommand_frame a _)

theorem gateStep_frame (v : Int) (s : State) : EngineFrame s (gateStep v s) := by
  unfold gateStep; split
  · exact .refl s
  · exact (travel_frame s _).trans (setCommand_frame gate v _)

theorem demote_frame (a : Actuator) (s : State) : EngineFrame s (demote a s) := by
  unfold demote; split
  · exact (updOrder_frame fun o => by simp [Order.kept]).trans (updLane_frame (by simp [Lane.settingsKept]))
  · exact .refl s

theorem promote_frame (a : Actuator) (h : Handle) (s : State) : EngineFrame s (promote a h s) :=
  (updOrder_frame fun o => by simp [Order.kept]).trans (updLane_frame (by simp [Lane.settingsKept]))

theorem resolveYield_frame (a : Actuator) (s : State) : EngineFrame s (resolveYield a s) := by
  unfold resolveYield; split
  · split
    · exact demote_frame a s
    · exact .refl s
  · exact .refl s

theorem resolveChoice_frame (a : Actuator) (s : State) : EngineFrame s (resolveChoice a s) := by
  unfold resolveChoice; split
  · exact promote_frame _ _ _
  · split
    · exact (demote_frame a s).trans (promote_frame _ _ _)
    · exact .refl s
  · exact .refl s

theorem takeHolds_frame (a : Actuator) (s : State) : EngineFrame s (takeHolds a s) := by
  unfold takeHolds; split
  · dsimp only; split
    · exact (updLane_frame (by simp [Lane.settingsKept])).trans (gateStep_frame _ _)
    · exact updLane_frame (by simp [Lane.settingsKept])
  · dsimp only; split
    · exact (updOrder_frame fun o => by simp [Order.kept]).trans (updLane_frame (by simp [Lane.settingsKept]))
    · split
      · exact (updLane_frame (by simp [Lane.settingsKept])).trans (gateStep_frame _ _)
      · exact updLane_frame (by simp [Lane.settingsKept])

theorem resolve_frame (a : Actuator) (s : State) : EngineFrame s (resolve a s) := by
  unfold resolve; split
  · exact .refl s
  · exact ((resolveYield_frame a s).trans (resolveChoice_frame a _)).trans (takeHolds_frame a _)

/-! ### Retirement -/

theorem dropFromLane_frame (a : Actuator) (c : Cls) (h : Handle) (s : State) : EngineFrame s (dropFromLane a c h s) :=
  updLane_frame (by simp [Lane.settingsKept])

theorem planReport_frame (o : Order) (c : Cause) (s : State) : EngineFrame s (planReport o c s) := by
  unfold planReport; split
  · exact .refl s
  · split
    · exact .refl s
    · exact setEntryState_frame _ _ _ _

theorem retireOne_frame (lane : Bool) (i : Slot) (c : Cause) (s : State) : EngineFrame s (retireOne lane i c s) := by
  unfold retireOne; split
  · exact .refl s
  · rename_i o _
    dsimp only
    have h1 := dropFromLane_frame o.actuator o.cls (s.handleAt i) s
    generalize dropFromLane o.actuator o.cls (s.handleAt i) s = s1 at h1 ⊢
    have h2 : EngineFrame s (if lane && decide (o.state ≠ OrderState.waiting) then resolve o.actuator s1 else s1) := by
      split
      · exact h1.trans (resolve_frame _ _)
      · exact h1
    generalize (if lane && decide (o.state ≠ OrderState.waiting) then resolve o.actuator s1 else s1) = s2 at h2 ⊢
    have h3 := (h2.trans (planReport_frame o c s2)).freed (i := i) ((s.handleAt i).gen + 1) (by simp [*])
    split
    · exact h3
    · exact h3.trans (queueNotice_frame _ _ _)

theorem cascade_frame (n : Nat) (h : Handle) (s : State) : EngineFrame s (cascade n h s) := by
  induction n generalizing h s with
  | zero => exact .refl s
  | succ n ih =>
    refine foldl_frame (fun s i => ?_) _ s
    split
    · exact (retireOne_frame _ _ _ _).trans (ih _ _)
    · exact .refl s

theorem retireCore_frame (lane : Bool) (i : Slot) (c : Cause) (s : State) : EngineFrame s (retireCore lane i c s) := by
  unfold retireCore; split
  · exact (retireOne_frame _ _ _ _).trans (cascade_frame _ _ _)
  · exact .refl s

/-! ### Guards and settle -/

theorem setCond_frame (h : Handle) (g : Nat) (c : Cond) (s : State) : EngineFrame s (setCond h g c s) := by
  refine updOrder_frame fun o => ?_
  have : ∀ (l : List GuardEntry) (k : Nat), (l.modify k fun e => { e with cond := c }).map (·.guard) = l.map (·.guard) := by
    intro l
    induction l with
    | nil => intro k; cases k <;> rfl
    | cons e l ih => intro k; cases k <;> simp [List.modify_cons, ih]
  simp [Order.kept, this]

theorem armGuard_frame (g : Nat) (h : Handle) (s : State) : EngineFrame s (armGuard g h s) := by
  unfold armGuard
  repeat' split
  all_goals with_reducible first | exact .refl s | exact retireCore_frame _ _ _ _ | exact setCond_frame _ _ _ _

theorem armGuards_frame (h : Handle) (s : State) : EngineFrame s (armGuards h s) :=
  (armGuard_frame 0 h s).trans (armGuard_frame 1 h _)

theorem release_frame (i : Slot) (s : State) : EngineFrame s (release i s) := by
  unfold release
  dsimp only
  have h1 : EngineFrame s (armGuards (s.handleAt i) (s.updOrder i fun o => { o with state := .pending })) :=
    (updOrder_frame fun o => by simp [Order.kept]).trans (armGuards_frame _ _)
  split
  · exact h1.trans (resolve_frame _ _)
  · exact h1

theorem settleGateBy_frame {f : Handle → State → State} (hf : ∀ h s, EngineFrame s (f h s)) (s : State) :
    EngineFrame s (settleGateBy f s) := by
  unfold settleGateBy; split
  · exact hf _ s
  · exact .refl s

theorem settleBy_frame {f : Handle → State → State} (hf : ∀ h s, EngineFrame s (f h s)) (h : Handle) (s : State) :
    EngineFrame s (settleBy f h s) := by
  unfold settleBy
  dsimp only
  have h1 : ∀ s, EngineFrame s
      (allSlots.foldl (fun s i => if s.waitsOn i h then settleGateBy f (release i s) else s) s) :=
    foldl_frame (fun s i => by
      split
      · exact (release_frame i s).trans (settleGateBy_frame hf _)
      · exact .refl s) allSlots
  have h2 := (updOrder_frame (s := s) (i := h.slot) (f := fun o => { o with settled := true })
    fun o => by simp [Order.kept]).trans (h1 _)
  split
  · split
    · exact (h2.trans (retireCore_frame _ _ _ _)).trans (settleGateBy_frame hf _)
    · exact h2
  · exact h2

theorem settleFor_frame (n : Nat) : ∀ h s, EngineFrame s (settleFor n h s) := by
  induction n with
  | zero => exact fun _ s => .refl s
  | succ n ih => exact settleBy_frame ih

theorem settleOrder_frame (h : Handle) (s : State) : EngineFrame s (settleOrder h s) := by
  unfold settleOrder; exact settleFor_frame 81 h s

theorem settleGate_frame (s : State) : EngineFrame s (settleGate s) := settleGateBy_frame settleOrder_frame s

theorem retire_frame (i : Slot) (c : Cause) (s : State) : EngineFrame s (retire i c s) :=
  (retireCore_frame _ _ _ _).trans (settleGate_frame _)

theorem guardAct_frame (h : Handle) (g : Nat) (a : GuardAction) (s : State) : EngineFrame s (guardAct h g a s) := by
  unfold guardAct; split
  · exact retire_frame _ _ _
  · dsimp only
    have h1 := setCond_frame h g .active s
    split
    · split
      · exact h1.trans (takeHolds_frame _ _)
      · exact h1
    · exact h1

theorem guardEnds_frame (h : Handle) (g : Nat) (s : State) : EngineFrame s (guardEnds h g s) := by
  unfold guardEnds
  dsimp only
  have h1 := setCond_frame h g .satisfied s
  split
  · split
    · exact (h1.trans (takeHolds_frame _ _)).trans (settleGate_frame _)
    · exact h1
  · exact h1

theorem evalGuard_frame (p : Point) (h : Handle) (g : Nat) (s : State) : EngineFrame s (evalGuard p h g s) := by
  unfold evalGuard
  repeat' split
  all_goals
    with_reducible first
    | exact .refl s
    | exact guardAct_frame _ _ _ _
    | exact guardEnds_frame _ _ _
    | exact setCond_frame _ _ _ _

theorem guardUse_frame (p : Point) (s : State) : EngineFrame s (guardUse p s) :=
  foldl_frame (fun s _ => (evalGuard_frame p _ 0 s).trans (evalGuard_frame p _ 1 _)) _ s

/-! ### The lanes as users of a point -/

theorem clearSettled_frame (a : Actuator) (s : State) : EngineFrame s (clearSettled a s) := by
  unfold clearSettled; split
  · exact updOrder_frame fun o => by simp [Order.kept]
  · exact .refl s

theorem setDetector_frame (a : Actuator) (d : Detector) (s : State) : EngineFrame s (setDetector a d s) :=
  updLane_frame (by simp [Lane.settingsKept])

theorem restartDetector_frame (a : Actuator) (s : State) : EngineFrame s (restartDetector a s) :=
  (clearSettled_frame a s).trans (setDetector_frame a _ _)

theorem settleUse_frame (a : Actuator) (s : State) : EngineFrame s (settleUse a s) := by
  unfold settleUse; split
  · split
    · split
      · split
        · split
          · exact (setDetector_frame _ _ _).trans (settleOrder_frame _ _)
          · exact setDetector_frame _ _ _
        · exact .refl s
      · exact .refl s
      · exact .refl s
    · exact restartDetector_frame _ _
  · exact .refl s

/-- The cut of R67 touches commands and settle alone, once the flag is written. -/
theorem interlockUse_frame (w : Fin 2) (s : State) :
    EngineFrame (s.setInterlock w { s.interlock w with engaged := s.interlockFlag (s.interlock w) })
      (interlockUse w s) := by
  unfold interlockUse
  dsimp only
  generalize s.setInterlock w { s.interlock w with engaged := s.interlockFlag (s.interlock w) } = t
  split
  · split
    · split
      · exact .refl t
      · split
        · exact (setCommand_frame _ _ _).trans (restartDetector_frame _ _)
        · exact setCommand_frame _ _ _
    · exact .refl t
  · exact .refl t

end Sys2Proof.Machine
end

