-- ==== Sys2Proof/Laws/Frames.lean ====
section
/-! SUPPORT. The frames of the shared operations above the engine: a reading handed to its users, a placement, an
internal issue, the loss of the link. -/

namespace Sys2Proof.Machine

/-! ### A reading (R91) -/

theorem EngineFrame.reading {s t : State} (h : EngineFrame s t) : ReadingFrame s t :=
  ⟨h.blocks, fun w => by simp [State.interlock, h.interlocks], h.tables, h.orders, h.free⟩

theorem ReadingFrame.refl (s : State) : ReadingFrame s s := (EngineFrame.refl s).reading

theorem ReadingFrame.trans {s t u : State} (h : ReadingFrame s t) (k : ReadingFrame t u) : ReadingFrame s u :=
  ⟨h.blocks.trans k.blocks, fun w => by
    have h1 := h.interlocks w; have k1 := k.interlocks w; simp only [h1, k1, and_self],
    h.tables.trans k.tables, h.orders.trans k.orders,
    fun i hi => (k.free i (by unfold State.orderAt; rw [h.free i hi]; exact hi)).trans (h.free i hi)⟩

theorem setFlag_frame (w : Fin 2) (b : Bool) (s : State) :
    ReadingFrame s (s.setInterlock w { s.interlock w with engaged := b }) where
  blocks := by constructor <;> rfl
  interlocks v := by rw [interlock_setInterlock]; split <;> simp [*]
  tables := {
    lanes := (TablesKept.refl s).lanes
    chans := (TablesKept.refl s).chans
    entries := fun _ _ => rfl
    queue := (TablesKept.refl s).queue
    lost := id }
  orders := OrdersKept.refl s
  free _ _ := rfl

theorem interlockUse_reading (w : Fin 2) (s : State) : ReadingFrame s (interlockUse w s) :=
  (setFlag_frame w _ s).trans (interlockUse_frame w s).reading

theorem laneUse_frame (p : Point) (s : State) : ReadingFrame s (laneUse p s) := by
  unfold laneUse
  dsimp only
  have h1 : ReadingFrame s (if h : p.val < 11 then settleUse ⟨p.val, by omega⟩ s else s) := by
    split
    · exact (settleUse_frame _ s).reading
    · exact .refl s
  split
  · exact h1.trans ((interlockUse_reading 0 _).trans (interlockUse_reading 1 _))
  · exact h1

theorem draws_frame (s : State) (n : Nat) : ReadingFrame s { s with draws := n } where
  blocks := by constructor <;> rfl
  interlocks _ := ⟨rfl, rfl, rfl⟩
  tables := {
    lanes := (TablesKept.refl s).lanes
    chans := (TablesKept.refl s).chans
    entries := fun _ _ => rfl
    queue := (TablesKept.refl s).queue
    lost := id }
  orders := OrdersKept.refl s
  free _ _ := rfl

/-- Whatever the order of its users (log 4), a reading keeps the frame. -/
theorem handPoint_frame (p : Point) (s : State) : ReadingFrame s (handPoint p s) := by
  have h1 : ReadingFrame s (laneUse p (guardUse p s)) := (guardUse_frame p s).reading.trans (laneUse_frame p _)
  have h2 : ReadingFrame s (guardUse p (laneUse p s)) := (laneUse_frame p s).trans (guardUse_frame p _).reading
  unfold handPoint
  dsimp only
  split
  · exact h1
  · split
    · exact h1.trans (draws_frame _ _)
    · exact h2.trans (draws_frame _ _)

/-! ### A placement (R10, R11) -/

theorem EngineFrame.place {s t : State} (h : EngineFrame s t) (i : Slot) (o : Order) : PlaceFrame s t i o :=
  ⟨h.blocks, h.interlocks, h.tables, fun j p hp => .inl (h.orders j p hp), fun j _ hj => h.free j hj⟩

theorem PlaceFrame.engine {s t u : State} {i : Slot} {o : Order} (h : PlaceFrame s t i o) (k : EngineFrame t u) :
    PlaceFrame s u i o :=
  ⟨h.blocks.trans k.blocks, k.interlocks.trans h.interlocks, h.tables.trans k.tables, fun j p hp => by
    obtain ⟨q, hq, hqp, hg⟩ := k.orders j p hp
    rcases h.orders j q hq with ⟨r, hr, hrq, hg'⟩ | ⟨rfl, ho⟩
    · exact .inl ⟨r, hr, Order.kept_trans hrq hqp, hg.trans hg'⟩
    · exact .inr ⟨rfl, Order.kept_trans ho hqp⟩,
    fun j hj hf => (k.free j (by unfold State.orderAt; rw [h.free j hj hf]; exact hf)).trans (h.free j hj hf)⟩

theorem EngineFrame.then_place {s t u : State} {i : Slot} {o : Order} (h : EngineFrame s t) (k : PlaceFrame t u i o) :
    PlaceFrame s u i o :=
  ⟨h.blocks.trans k.blocks, k.interlocks.trans h.interlocks, h.tables.trans k.tables, fun j p hp => by
    rcases k.orders j p hp with ⟨q, hq, hqp, hg⟩ | h'
    · obtain ⟨r, hr, hrq, hg'⟩ := h.orders j q hq
      exact .inl ⟨r, hr, Order.kept_trans hrq hqp, hg.trans hg'⟩
    · exact .inr h',
    fun j hj hf => (k.free j hj (by unfold State.orderAt; rw [h.free j hf]; exact hf)).trans (h.free j hf)⟩

theorem writeOrder_frame (s : State) (i : Slot) (g : BitVec 8) (o p : Order) (hp : o.kept p) :
    PlaceFrame s (s.setSlot i ⟨g, some p⟩) i o where
  blocks := by constructor <;> rfl
  interlocks := rfl
  tables := {
    lanes := (TablesKept.refl s).lanes
    chans := (TablesKept.refl s).chans
    entries := fun _ _ => rfl
    queue := (TablesKept.refl s).queue
    lost := id }
  orders := by
    intro j q hq
    rw [orderAt_setSlot] at hq
    split at hq
    · rename_i h; cases hq; exact .inr ⟨h, hp⟩
    · rename_i h; exact .inl ⟨q, hq, q.kept_refl, by rw [slot_setSlot, if_neg h]⟩
  free j hj _ := by rw [slot_setSlot, if_neg hj]

theorem supersede_frame (a : Actuator) (c : Cls) (s : State) : EngineFrame s (supersede a c s) := by
  unfold supersede; split
  · exact retireCore_frame _ _ _ _
  · exact .refl s

theorem recordOrder_frame (h : Handle) (a : Actuator) (c : Cls) (s : State) :
    EngineFrame s (recordOrder h a c s) := by
  unfold recordOrder; split
  · exact updLane_frame (by simp [Lane.settingsKept])
  · exact .refl s

theorem installOrder_frame (o : Order) (i : Slot) (replaced : Bool) (s : State) :
    PlaceFrame s (installOrder o i replaced s) i o := by
  unfold installOrder
  dsimp only
  have h2 := writeOrder_frame s i (s.handleAt i).gen o { o with state := s.initialState o.prereq }
    (by simp [Order.kept])
  have h3 : PlaceFrame s (if s.initialState o.prereq = .pending then
      armGuards (s.handleAt i) (s.setSlot i ⟨(s.handleAt i).gen, some { o with state := s.initialState o.prereq }⟩)
      else s.setSlot i ⟨(s.handleAt i).gen, some { o with state := s.initialState o.prereq }⟩) i o := by
    split
    · exact h2.engine (armGuards_frame _ _)
    · exact h2
  have h4 := h3.engine (recordOrder_frame (s.handleAt i) o.actuator o.cls _)
  refine PlaceFrame.engine ?_ (settleGate_frame _)
  split
  · exact h4.engine (resolve_frame _ _)
  · exact h4

/-- A placement that finds no slot has still taken its supersede away. -/
theorem placeOrder_none {o : Order} {s t : State} (h : placeOrder o s = (t, none)) : EngineFrame s t := by
  unfold placeOrder at h
  dsimp only at h
  split at h
  · cases h; exact supersede_frame _ _ _
  · cases h

/-- A placement writes the new order into one slot and keeps the rest. -/
theorem placeOrder_frame {o : Order} {s t : State} {h : Handle} {old : Option Handle}
    (hp : placeOrder o s = (t, some (h, old))) : PlaceFrame s t h.slot o := by
  unfold placeOrder at hp
  dsimp only at hp
  split at hp
  · cases hp
  · cases hp
    exact (supersede_frame _ _ _).then_place (installOrder_frame _ _ _ _)

end Sys2Proof.Machine
end

