-- ==== Sys2Proof/Laws/Prereq.lean ====
section
/-! SUPPORT. The test of a prerequisite: `prereqOk` makes the four tests of R12. -/

namespace Sys2Proof.Machine

theorem order?_eq_some {s : State} {h : Handle} {o : Order} (e : s.order? h = some o) :
    s.handleAt h.slot = h ∧ s.orderAt h.slot = some o := by
  unfold State.order? at e
  split at e
  · next g => exact ⟨by rw [State.handleAt, g], e⟩
  · cases e

/-! ### Chains of WAITING orders -/

/-- The handle that the order under a handle is WAITING on. -/
def waitsFor (s : State) : Option Handle → Option Handle
  | none => none
  | some q =>
    match s.order? q with
    | some o => if o.state = .waiting then o.prereq else none
    | none => none

theorem waitsFor_none_iterate (s : State) (k : Nat) : (waitsFor s)^[k] none = none := by
  induction k with
  | zero => rfl
  | succ k ih => exact ih

theorem waitsFor_eq_some {s : State} {q h : Handle} :
    waitsFor s (some q) = some h ↔ ∃ o, s.order? q = some o ∧ o.state = .waiting ∧ o.prereq = some h := by
  simp only [waitsFor]
  split
  · next o e => split <;> simp_all
  · simp_all

theorem waitsBehind_of_iterate {s : State} {h : Handle} :
    ∀ {k : Nat} {q : Handle}, (waitsFor s)^[k + 1] (some q) = some h → WaitsBehind s h q
  | 0, _, e => by
    obtain ⟨o, ho, hw, hp⟩ := waitsFor_eq_some.mp e
    exact .direct ho hw hp
  | k + 1, q, e => by
    rw [Function.iterate_succ_apply] at e
    cases r : waitsFor s (some q) with
    | none => rw [r, waitsFor_none_iterate] at e; cases e
    | some r' =>
      rw [r] at e
      obtain ⟨o, ho, hw, hp⟩ := waitsFor_eq_some.mp r
      exact .through ho hw hp (waitsBehind_of_iterate e)

theorem WaitsBehind.iterate {s : State} {h q : Handle} (w : WaitsBehind s h q) :
    ∃ k, (waitsFor s)^[k + 1] (some q) = some h := by
  induction w with
  | direct ho hw hp => exact ⟨0, waitsFor_eq_some.mpr ⟨_, ho, hw, hp⟩⟩
  | through ho hw hp _ ih =>
    obtain ⟨k, e⟩ := ih
    exact ⟨k + 1, by rw [Function.iterate_succ_apply, waitsFor_eq_some.mpr ⟨_, ho, hw, hp⟩, e]⟩

/-- A chain visits a slot at most once, so it has at most 40 links. -/
theorem WaitsBehind.iterate_lt {s : State} {h q : Handle} (w : WaitsBehind s h q) :
    ∃ k, k < 40 ∧ (waitsFor s)^[k + 1] (some q) = some h := by
  classical
  have ex := w.iterate
  refine ⟨Nat.find ex, ?_, Nat.find_spec ex⟩
  have least : ∀ j, j < Nat.find ex → (waitsFor s)^[j + 1] (some q) ≠ some h := fun j => Nat.find_min ex
  have spec := Nat.find_spec ex
  generalize Nat.find ex = k at least spec
  have visited : ∀ i, i ≤ k → ∃ r, (waitsFor s)^[i] (some q) = some r ∧ s.handleAt r.slot = r := by
    intro i hi
    cases r : (waitsFor s)^[i] (some q) with
    | none =>
      have e : k + 1 = (k + 1 - i) + i := by omega
      rw [e, Function.iterate_add_apply, r, waitsFor_none_iterate] at spec
      cases spec
    | some r' =>
      have e : k + 1 = (k - i + 1) + i := by omega
      rw [e, Function.iterate_add_apply, r, Function.iterate_succ_apply] at spec
      cases n : waitsFor s (some r') with
      | none => rw [n, waitsFor_none_iterate] at spec; cases spec
      | some _ =>
        obtain ⟨o, ho, _⟩ := waitsFor_eq_some.mp n
        exact ⟨r', rfl, (order?_eq_some ho).1⟩
  choose r hr hslot using visited
  have apart : ∀ i j, i < j → (hi : i ≤ k) → (hj : j ≤ k) → (r i hi).slot ≠ (r j hj).slot := by
    intro i j lt hi hj e
    have same : (waitsFor s)^[i] (some q) = (waitsFor s)^[j] (some q) := by
      rw [hr i hi, hr j hj, ← hslot i hi, ← hslot j hj, e]
    have e1 : k + 1 = (k + 1 - j) + j := by omega
    have e2 : (k - (j - i)) + 1 = (k + 1 - j) + i := by omega
    refine least (k - (j - i)) (by omega) ?_
    rw [e2, Function.iterate_add_apply, same, ← Function.iterate_add_apply, ← e1, spec]
  have inj : Function.Injective (fun i : Fin (k + 1) => (r i.val (by omega)).slot) := by
    intro i j e
    rcases Nat.lt_trichotomy i.val j.val with lt | eq | lt
    · exact absurd e (apart _ _ lt _ _)
    · exact Fin.ext eq
    · exact absurd e.symm (apart _ _ lt _ _)
  have := Fintype.card_le_of_injective _ inj
  simpa using this

theorem waitsThrough_eq_true {s : State} {h : Handle} :
    ∀ {n : Nat} {q : Handle}, s.waitsThrough n q h = true ↔ ∃ k, k < n ∧ (waitsFor s)^[k + 1] (some q) = some h
  | 0, _ => by simp [State.waitsThrough]
  | n + 1, q => by
    have ih := @waitsThrough_eq_true s h n
    constructor
    · intro e
      rw [State.waitsThrough] at e
      split at e
      · next o ho =>
        simp only [Bool.and_eq_true, Bool.or_eq_true, decide_eq_true_eq] at e
        obtain ⟨hw, hp | hp⟩ := e
        · exact ⟨0, by omega, waitsFor_eq_some.mpr ⟨o, ho, hw, hp⟩⟩
        · split at hp
          · next q' hq =>
            obtain ⟨k, lt, e⟩ := ih.mp hp
            exact ⟨k + 1, by omega, by rw [Function.iterate_succ_apply, waitsFor_eq_some.mpr ⟨o, ho, hw, hq⟩, e]⟩
          · cases hp
      · cases e
    · rintro ⟨k, lt, e⟩
      cases n1 : waitsFor s (some q) with
      | none => rw [Function.iterate_succ_apply, n1, waitsFor_none_iterate] at e; cases e
      | some r =>
        obtain ⟨o, ho, hw, hp⟩ := waitsFor_eq_some.mp n1
        rw [State.waitsThrough, ho]
        simp only [hw, hp, decide_true, Bool.true_and, Bool.or_eq_true, decide_eq_true_eq]
        cases k with
        | zero => exact .inl (n1.symm.trans e)
        | succ k => exact .inr (ih.mpr ⟨k, by omega, by rwa [Function.iterate_succ_apply, n1] at e⟩)

theorem waitsThrough_iff {s : State} {q h : Handle} : s.waitsThrough 40 q h = true ↔ WaitsBehind s h q :=
  waitsThrough_eq_true.trans ⟨fun ⟨_, _, e⟩ => waitsBehind_of_iterate e, WaitsBehind.iterate_lt⟩

/-! ### The test -/

theorem prereqOk_iff {s : State} {a : Actuator} {c : Cls} {q : Handle} :
    s.prereqOk a c (some q) = true ↔ PrereqAccepted s a c q := by
  cases ho : s.order? q with
  | none => simp [State.prereqOk, PrereqAccepted, ho]
  | some o =>
    cases hf : s.findOrder a c with
    | none => simp [State.prereqOk, PrereqAccepted, ho, hf]
    | some i => simp [State.prereqOk, PrereqAccepted, ho, hf, ← waitsThrough_iff]

end Sys2Proof.Machine
end

