-- ==== Sys2Proof/WellFormed.lean ====
section
/-! DEFINITION. Which terms of `Instr` denote an event that can reach the part; the model's meaning of the others is log 6 and 7. -/

namespace Sys2Proof

/-- A request frame's body is 0..120 bytes (R166). -/
def Req.wellFormed (r : Req) : Bool := r.body.length ≤ 120

/-- The command names an event of its row. -/
def Instr.wellFormed : Instr → Bool
  | .powerOn => true
  | .place r | .issue r | .amend r | .renew r | .withdraw r | .query r | .list r
  | .lowest r | .mask r | .unmask r | .yield r | .view r | .setLimits r | .setSettle r | .setInterlock r
  | .depth r | .setDrift r | .readPoints r | .setModule r | .setDepthStale r
  | .putEntry r | .dropEntry r | .clearShadow r | .readEntry r | .swap r
  | .mapActuator r | .spare r | .freezeMap r | .thaw r | .clearFault r | .setLocal r | .forceLocal r
  | .restore r | .readChannel r | .setCalibration r
  | .putTemplate r | .readTemplate r | .setFallback r | .setHalt r | .halt r
  | .setLink r | .start r | .restart r | .status r => r.wellFormed
  | .unknownRequest r k => r.wellFormed && !namesRequest k
  | .badFrame bytes => receive .hunting bytes = .bad
  | .interByteTimeout bytes =>
    match receive .hunting bytes with
    | .more (.collecting _ _) => true
    | _ => false
  | .silenceExpiry | .frameSent | .leaseExpiry _ | .controlInterval _ | .settleDwellExpiry _
  | .gateTravelComplete | .guardDwellExpiry _ _ | .moduleStaleExpiry _ | .depthStaleExpiry => true
  | .directSample p _ speed => p.val < 2 || (p.val = 10 && 0 ≤ speed) || speed = 0
  | .moduleReadingFrame bytes => bytes ≠ []
  | .channelFaultReport _ _ => true

end Sys2Proof
end

