-- ==== Sys2Proof/Tests/Slice0.lean ====
section
/-! SUPPORT. Small tests: what the well-formedness check refuses, one step of every command on a small state, and for
every statement with hypotheses a state and operands that meet them (`test_meets_`). -/

namespace Sys2Proof.Tests

open Sys2Proof Sys2Proof.Machine

set_option maxRecDepth 100000
set_option Elab.async false

/-! ### The receiver's and the check's own tests -/

theorem test_crc : crc16 [0x31, 0x32, 0x33, 0x34, 0x35, 0x36, 0x37, 0x38, 0x39] = 0x29B1 := by decide +kernel

theorem test_no_word_spells_a_command : decodeTableWord 8 0x10 = none := by decide

def op (b : List Byte) : Req := ⟨.operator, 7, b⟩

theorem test_refuses_long_body : (Instr.place (op (List.replicate 121 0))).wellFormed = false := by decide +kernel

theorem test_refuses_known_kind : (Instr.unknownRequest (op []) 0x10).wellFormed = false := by decide +kernel

theorem test_refuses_long_unknown : (Instr.unknownRequest (op (List.replicate 121 0)) 0).wellFormed = false := by
  decide +kernel

theorem test_refuses_good_bad_frame :
    (Instr.badFrame (requestFrame (op []) 0x73)).wellFormed = false := by decide +kernel

theorem test_refuses_timeout_while_hunting : (Instr.interByteTimeout []).wellFormed = false := by decide +kernel

theorem test_refuses_speed_of_a_stroke : (Instr.directSample 3 12000 1).wellFormed = false := by decide +kernel

theorem test_refuses_negative_pump_speed : (Instr.directSample 10 12000 (-1)).wellFormed = false := by decide +kernel

theorem test_refuses_empty_module_frame : (Instr.moduleReadingFrame []).wellFormed = false := by decide +kernel

theorem test_allows :
    ([.powerOn, .place (op []), .unknownRequest (op []) 0, .badFrame [0x7E, 0], .interByteTimeout [0x7E, 4],
      .directSample 0 12000 (-1), .moduleReadingFrame [0x01]] : List Instr).all Instr.wellFormed = true := by
  decide +kernel

/-! ### Small states -/

/-- RUN, every lane in REST at command 0, the default channels in ORDER, the link UP. -/
def running : State :=
  { State.reset with
    mode := .run
    lanes := State.reset.lanes.map fun l => { l with state := .rest, command := some 0, interval := some 0 }
    chans := Vector.ofFn fun c => if c.val < 11 ∨ c.val = 14 then
      ⟨none, .order, 0, if c.val < 2 then 500 else if c.val < 10 then 200 else 0⟩ else .reset
    travel := .running 0
    link := ⟨.up, some 0, 0, 2000, 8⟩ }

/-- SETUP with the link UP. -/
def settingUp : State := { State.reset with link := ⟨.up, some 0, 0, 2000, 8⟩ }

def plateOrder : Order :=
  ⟨.operator, 2, 100, none, .standing, none, [], none, false, .governing, false, none, none⟩

def h0 : Handle := ⟨0, 5⟩

def body0 : List Byte := putHandle (some h0)

/-- The order in slot 0 under generation 5, in its position. -/
def holding (o : Order) (s : State) : State :=
  (s.setSlot 0 ⟨5, some o⟩).updLane o.actuator fun l => { l with orderSet := l.orderSet.set o.cls (some h0) }

/-- The same, governing its lane. -/
def governed (o : Order) : State :=
  (holding o running).updLane o.actuator fun l => { l with state := .driven, gov := some h0 }

/-- An order on the GATE, to its open position. -/
def gateOrder : Order := { plateOrder with actuator := gate, target := 1 }

/-- It governs, and the GATE's command has stepped to it. -/
def gateDriven : State := (governed gateOrder).updLane gate fun l => { l with command := some 1 }

/-- A WAITING order in slot 1 that depends on the order in slot 0. -/
def waiter : Order :=
  ⟨.operator, 3, 50, none, .standing, some h0, [], none, false, .waiting, false, none, none⟩

def withWaiter (s : State) : State :=
  (s.setSlot 1 ⟨0, some waiter⟩).updLane 3 fun l => { l with orderSet := l.orderSet.set .operator (some ⟨1, 0⟩) }

/-- A full order table: slot 0 as it is, every other slot a PLANT order of the pump. -/
def full (s : State) : State :=
  allSlots.foldl (fun s i => if (s.orderAt i).isNone
    then s.setSlot i ⟨0, some { plateOrder with cls := .plant, actuator := 10, state := .pending }⟩ else s) s

def template0 : Template := ⟨2, 100, none, .standing, [], none, false⟩

def withTemplate (s : State) : State := s.setTemplate 4 (some template0)

def withEntry (d1 d2 : Int) (st : EntryState) (s : State) : State := s.setEntry 0 0 (some ⟨d1, d2, 2, 100, none, st⟩)

/-- The PLAN order of entry 0, which stands LIVE. -/
def planOrder : Order := { plateOrder with cls := .plan, planEntry := some (0, 0) }

def planned : State := withEntry 100 200 (.live h0) (governed planOrder)

/-- The lane of actuator 2 DOWN, with no channel assigned. -/
def downed : State :=
  (running.setMap 2 ⟨none, some 12, false⟩).updLane 2 fun l => { l with state := .down, command := none, interval := none }

/-- The next state of a command. -/
def after (c : Instr) (s : State) : State :=
  match exec c s with
  | .next t => t
  | .fault _ => s
  | .refused _ => s

/-- The code of the last answer queued. -/
def lastCode (s : State) : Option Code :=
  match s.txQueue.getLast? with
  | some (.answer _ _ _ c _) => some c
  | _ => none

def stepsOn (s : State) : Bool :=
  match step s with
  | .next _ => true
  | .fault _ => false
  | .refused _ => false

theorem exists_of_stepsOn {s : State} (h : stepsOn s = true) : ∃ t, step s = .next t := by
  unfold stepsOn at h
  split at h
  · exact ⟨_, by assumption⟩
  · cases h
  · cases h

/-! ### One step of each command -/

theorem test_powerOn : (after .powerOn (governed plateOrder)).mode = .setup := by decide +kernel

theorem test_place :
    (after (.place (op (placeBody ⟨2, 100, 0, .standing, ⟨255, 0xFF⟩, 0, false, []⟩))) running).orderAt 0 =
      some plateOrder := by decide +kernel

theorem test_place_refused_in_setup :
    lastCode (after (.place (op (placeBody ⟨2, 100, 0, .standing, ⟨255, 0xFF⟩, 0, false, []⟩))) settingUp) =
      some .notRunning := by decide +kernel

theorem test_issue :
    (after (.issue (op (issueBody ⟨4, none, ⟨255, 0xFF⟩⟩))) (withTemplate running)).orderAt 0 =
      some { plateOrder with template := some 4 } := by decide +kernel

theorem test_amend :
    (after (.amend (op (amendBody ⟨⟨0, 5⟩, some 120, none, none⟩))) (governed plateOrder)).orderAt 0 =
      some { plateOrder with target := 120 } := by decide +kernel

theorem test_renew :
    (after (.renew (op (body0 ++ putU16 60))) (governed plateOrder)).orderAt 0 =
      some { plateOrder with lease := some ⟨60, 60000⟩ } := by decide +kernel

theorem test_withdraw :
    (after (.withdraw (op body0)) (governed plateOrder)).slot 0 = ⟨6, none⟩ := by decide +kernel

theorem test_query : lastCode (after (.query (op [0, 6])) (governed plateOrder)) = some .staleHandle := by decide +kernel

theorem test_list :
    (after (.list (op [0, 0, 0, 0, 0])) (governed plateOrder)).txQueue =
      [.answer .operator 7 0x16 .done [1, 0, 5, 1, 2, 3, 0xFF]] := by decide +kernel

theorem test_lowest :
    ((after (.lowest (op [2, 1])) running).lane 2).precedence = [.guard, .verticality, .plan, .operator] := by
  decide +kernel

theorem test_mask : ((after (.mask (op [2, 1])) (governed plateOrder)).lane 2).state = .held := by decide +kernel

theorem test_unmask :
    ((after (.unmask (op [2, 1])) (after (.mask (op [2, 1])) (governed plateOrder))).lane 2).state = .driven := by
  decide +kernel

theorem test_yield :
    ((after (.mask (op [2, 1])) (after (.yield (op [2, 1])) (governed plateOrder))).lane 2).state = .rest := by
  decide +kernel

theorem test_view : lastCode (after (.view (op [12])) running) = some .badActuator := by decide +kernel

theorem test_setLimits :
    ((after (.setLimits (op ([2] ++ putS16 10 ++ putS16 150))) settingUp).lane 2).lo = 10 := by decide +kernel

theorem test_setSettle :
    ((after (.setSettle (op [2, 1, 0, 4, 0, 0, 0, 0, 0, 0])) settingUp).lane 2).band = 4 := by decide +kernel

theorem test_setInterlock :
    ((after (.setInterlock (op [0, 1, 0, 0, 1, 0, 0, 0, 0, 0])) settingUp).interlock 0) = ⟨0, 0, 30, true⟩ := by
  decide +kernel

theorem test_depth : (after (.depth (op (putS16 4200))) running).depth = ⟨some 4200, .valid, some 0, 5⟩ := by
  decide +kernel

theorem test_setDrift :
    (after (.setDrift (op (putS16 (-5) ++ putS16 7))) running).drift = ⟨-5, 7, .valid, 0, 0⟩ := by decide +kernel

theorem test_readPoints :
    (after (.readPoints (op [1, 17])) running).txQueue = [.answer .operator 7 0x32 .done [1, 17, 1, 0, 0, 1]] := by
  decide +kernel

theorem test_setModule :
    ((after (.setModule (op [1, 1, 9, 0, 0, 0])) settingUp).module .flow).threshold = 9 := by decide +kernel

theorem test_setDepthStale : (after (.setDepthStale (op [0, 60])) settingUp).depth.staleLimit = 60 := by decide +kernel

theorem test_putEntry :
    (after (.putEntry (op ([3] ++ putS16 100 ++ putS16 200 ++ [2] ++ putS16 50 ++ putU16 0))) running).entry 1 3 =
      some ⟨100, 200, 2, 50, none, .dormant⟩ := by decide +kernel

theorem test_dropEntry :
    (after (.dropEntry (op [0])) { withEntry 100 200 .dormant running with active := 1 }).entry 0 0 = none := by
  decide +kernel

theorem test_clearShadow :
    (after (.clearShadow (op [])) { withEntry 100 200 .dormant running with active := 1 }).txQueue =
      [.answer .operator 7 0x42 .done [0, 1]] := by decide +kernel

theorem test_readEntry :
    (after (.readEntry (op [1, 0])) running).txQueue =
      [.answer .operator 7 0x43 .done [1, 0, 0, 0, 0, 0, 0, 0, 0, 0, 0, 0, 0xFF, 0xFF]] := by decide +kernel

theorem test_swap : (after (.swap (op [])) running).active = 1 := by decide +kernel

theorem test_mapActuator : (after (.mapActuator (op [2, 11])) running).chan 11 = ⟨none, .order, 0, 200⟩ := by decide +kernel

theorem test_spare : ((after (.spare (op [11, 16])) running).mapAt 11).spare = some 16 := by decide +kernel

theorem test_freezeMap : ((after (.freezeMap (op [2])) running).mapAt 2).frozen = true := by decide +kernel

theorem test_thaw :
    ((after (.thaw (op [2])) (after (.freezeMap (op [2])) running)).mapAt 2).frozen = false := by decide +kernel

theorem test_clearFault :
    ((after (.clearFault (op [12])) (after (.channelFaultReport 12 .openLoad) running)).chan 12).fault = none := by
  decide +kernel

theorem test_setLocal : ((after (.setLocal (op [2, 1, 0x2C])) running).chan 2) = ⟨none, .order, 300, 200⟩ := by
  decide +kernel

theorem test_forceLocal : ((after (.forceLocal (op [2])) running).chan 2) = ⟨none, .localDuty, 0, 0⟩ := by decide +kernel

theorem test_restore :
    ((after (.restore (op [2])) (after (.forceLocal (op [2])) running)).chan 2) = ⟨none, .order, 0, 200⟩ := by
  decide +kernel

theorem test_readChannel :
    (after (.readChannel (op [2])) running).txQueue = [.answer .operator 7 0x58 .done
      [0, 0, 0, 1, 0, 0, 0, 200, 1, 2, 0, 1, 0, 200, 3, 32, 0]] := by decide +kernel

theorem test_setCalibration :
    (after (.setCalibration (op ([2] ++ putU16 900 ++ putU16 100))) settingUp).cal 2 = ⟨900, 100⟩ := by decide +kernel

theorem test_putTemplate :
    (after (.putTemplate (op ([4, 1] ++ putTemplate template0))) running).template 4 = some template0 := by
  decide +kernel

theorem test_readTemplate :
    (after (.readTemplate (op [4])) running).txQueue = [.answer .operator 7 0x61 .done [0, 0xFF, 0xFF]] := by
  decide +kernel

theorem test_setFallback : (after (.setFallback (op [2, 4])) (withTemplate running)).binding .fallback 2 = some 4 := by
  decide +kernel

theorem test_setHalt : lastCode (after (.setHalt (op [3, 4])) (withTemplate running)) = some .badTemplate := by
  decide +kernel

theorem test_halt :
    ((after (.halt (op [])) ((withTemplate running).setBinding .halt 2 (some 4))).orderAt 0).map (·.cls) =
      some .guard := by decide +kernel

theorem test_setLink :
    (after (.setLink (op [1, 0x1F, 0x40, 0, 0])) settingUp).link = ⟨.up, some 0, 0, 8000, 8⟩ := by decide +kernel

theorem test_start : ((after (.start (op [])) State.reset).lane 11).state = .rest := by decide +kernel

theorem test_restart : (after (.restart (op [])) (governed plateOrder)).slot 0 = ⟨6, none⟩ := by decide +kernel

theorem test_status :
    ((after (.status (op [])) State.reset).txQueue.map fun f => f.bytes.length) = [65] := by decide +kernel

theorem test_unknownRequest : lastCode (after (.unknownRequest (op []) 0) running) = some .unknownRequest := by
  decide +kernel

theorem test_badFrame : (after (.badFrame [0x7E, 3]) running).link.badCount = 1 := by decide +kernel

/-- The receiver hunts on from the byte after a bad length (R167). -/
theorem test_badFrame_huntsOn : (after (.badFrame [0x7E, 0, 0x7E, 3]) running).link.badCount = 2 := by decide +kernel

theorem test_frame_after_a_bad_one :
    lastCode (after (.badFrame ([0x7E, 0] ++ requestFrame (op [0, 0, 0, 0, 0]) 0x16)) running) = some .done := by
  decide +kernel

/-- The part sends, by R176, and a frame that begins then is bad. -/
def sends : State := { running with txQueue := [.notice .operator (.moduleFaulted .flow)], pair := .heldToEmpty }

theorem test_colliding_frame :
    (after (.badFrame (requestFrame (op []) 0x73)) sends).link.badCount = 1 ∧
      (after .frameSent (after (.badFrame [0x7E, 0]) { sends with link := ⟨.up, some 0, 7, 2000, 8⟩ })).line =
        frameBytes 0 0 0x82 [1, 1, 1, 2] := by decide +kernel

theorem test_interByteTimeout : (after (.interByteTimeout [0x7E, 4, 1]) running).link.badCount = 1 := by decide +kernel

theorem test_silenceExpiry :
    (after .silenceExpiry { running with link := ⟨.up, some 2000, 0, 2000, 8⟩ }).link.state = .lost := by decide +kernel

theorem test_frameSent :
    (after .frameSent { running with txQueue := [.notice .operator (.moduleFaulted .flow)], pair := .heldToEmpty }).line =
      frameBytes 0 0 0x82 [1, 1, 1, 2] := by decide +kernel

theorem test_leaseExpiry :
    (after (.leaseExpiry h0) (governed { plateOrder with lease := some ⟨60, 0⟩ })).slot 0 = ⟨6, none⟩ := by decide +kernel

theorem test_controlInterval :
    ((after (.controlInterval 2) ((governed plateOrder).updLane 2 fun l => { l with interval := some 20 })).lane 2).command
      = some 10 := by decide +kernel

theorem test_settleDwellExpiry :
    ((after (.settleDwellExpiry 2)
      ((governed plateOrder).updLane 2 fun l => { l with detector := .timing 300 })).orderAt 0).map (·.settled) =
      some true := by decide +kernel

/-- Two GATE orders wait on the plate order in slot 0, which settles; the gate stands at their target, its travel
complete. -/
def gatePair : State :=
  let dependent := fun cls completion => { waiter with actuator := gate, target := 0, cls := cls, completion := completion }
  let s := (governed { plateOrder with completion := .settle }).updLane 2 fun l => { l with detector := .timing 300 }
  let s := (s.setSlot 1 ⟨0, some (dependent .plant .settle)⟩).setSlot 2 ⟨0, some (dependent .operator .standing)⟩
  { s.updLane gate fun l => { l with orderSet := ⟨none, some ⟨2, 0⟩, none, none, some ⟨1, 0⟩⟩ } with travel := .complete }

/-- The first order released settles and completes before the second is released (R16, R39, R63). -/
theorem test_a_released_gate_order_settles_before_the_next :
    (after (.settleDwellExpiry 2) gatePair).txQueue =
        [.notice .plant (.retired ⟨1, 0⟩ gate .completed), .notice .operator (.retired h0 2 .completed)] ∧
      ((after (.settleDwellExpiry 2) gatePair).orderAt 2).map (fun o => (o.state, o.settled)) =
        some (.governing, true) := by decide +kernel

theorem test_gateTravelComplete :
    (after .gateTravelComplete { running with travel := .running 4000 }).travel = .complete := by decide +kernel

theorem test_guardDwellExpiry :
    (after (.guardDwellExpiry h0 0) (governed { plateOrder with
      guards := [⟨⟨15, .requireAbove, 100, .retire, 500⟩, .timing 500⟩] })).slot 0 = ⟨6, none⟩ := by decide +kernel

theorem test_moduleStaleExpiry :
    ((after (.moduleStaleExpiry .flow)
      (running.setModule .flow ⟨.valid, 0, 0, some 1000, 5, 1000⟩)).module .flow).status = .stale := by decide +kernel

theorem test_depthStaleExpiry :
    (after .depthStaleExpiry { running with depth := ⟨some 4200, .valid, some 5000, 5⟩ }).depth =
      ⟨some 4200, .stale, none, 5⟩ := by decide +kernel

theorem test_directSample :
    (after (.directSample 2 12000 0) running).directAt 2 = ⟨.valid, some 110, none⟩ := by decide +kernel

theorem test_moduleReadingFrame :
    (after (.moduleReadingFrame (moduleFrame .flow [410])) running).modValue 2 = some 410 := by decide +kernel

theorem test_channelFaultReport :
    ((after (.channelFaultReport 2 .openLoad) running).mapAt 2).assigned = some 12 := by decide +kernel

/-! ### The hypotheses of the statements are met -/

def execsOn (c : Instr) (s : State) : Bool :=
  match exec c s with
  | .next _ => true
  | .fault _ => false
  | .refused _ => false

theorem exists_of_execsOn {c : Instr} {s : State} (h : execsOn c s = true) : ∃ t, exec c s = .next t := by
  unfold execsOn at h
  split at h
  · exact ⟨_, by assumption⟩
  · cases h
  · cases h

theorem test_laneLaw_running : LaneLaw running := laneLaw_of_check (by decide +kernel)

theorem test_laneLaw_governed : LaneLaw (governed plateOrder) := laneLaw_of_check (by decide +kernel)

theorem test_guardLaw_running : GuardLaw running := guardLaw_of_check (by decide +kernel)

theorem test_mapLaw_running : MapLaw running := mapLaw_of_check (by decide +kernel)

theorem test_commandLaw_running : CommandLaw running := commandLaw_of_check (by decide +kernel)

theorem test_meets_IdleStepTakesTheDueExpiryOrAMillisecond :
    (let s : State := { running with link := ⟨.up, some 2000, 0, 2000, 8⟩ };
      s.pending = [] ∧ s.dueEvents = [.silenceExpiry] ∧ s.dueIntervals = []) ∧
    (let s := (running.updLane 3 fun l => { l with interval := some 20 }).updLane 11 fun l =>
        { l with interval := some 20 };
      s.pending = [] ∧ s.dueEvents = [] ∧ s.dueIntervals = [.controlInterval 3, .controlInterval 11]) ∧
    (running.pending = [] ∧ running.dueEvents = [] ∧ running.dueIntervals = []) := by decide +kernel

theorem test_meets_RequestFramesAreReceivedWhole :
    (∀ b ∈ [(0x7D : Byte), 0x7F], b ≠ 0x7E) ∧ (op (List.replicate 120 0x7E)).body.length ≤ 120 ∧
      frameOf (.readPoints (op (List.replicate 120 0x7E))) = some (op (List.replicate 120 0x7E), 0x32) ∧
      running.rx = .hunting ∧ running.sending = false := by decide +kernel

theorem test_meets_BadLengthOriginOrCrcMakesABadFrame :
    ((3 : Byte).toNat < 4 ∧ 124 < (125 : Byte).toNat) ∧
    (([] : List Byte).length ≤ 120 ∧ (4 : Nat) < 256 ∧ (0 : Nat) ≠ 1 ∧ (4 : Nat) ≠ 3) ∧
    (0 : Word) ≠ crc16 (putByte 4 ++ putByte 1 ++ putU16 7 ++ [0x73] ++ []) := by decide +kernel

/-- A PLACE form with every field at the end of its range. -/
def widest : PlaceForm :=
  ⟨255, -32768, 65535, .settle, ⟨255, 0xFF⟩, 65535, true,
    [⟨255, .requireBelow, 32767, .freeze, 65535⟩, ⟨0, .requireAbove, -32768, .retire, 0⟩]⟩

theorem test_meets_PlaceBodyReadsBack : placeFits widest := by
  unfold placeFits fits16 guardFits fits16; decide +kernel

theorem test_meets_EveryRequestGetsOneAnswer :
    frameOf (.place (op (List.replicate 120 0))) = some (op (List.replicate 120 0), 0x10) ∧
      (op (List.replicate 120 0)).body.length ≤ 120 := by decide +kernel

theorem test_meets_RequestsOutOfTheirModeOrOriginAreRefused :
    (frameOf (.place (op [])) = some (op [], 0x10) ∧ runOnly (.place (op [])) = true ∧ settingUp.mode = .setup) ∧
    (frameOf (.start (op [])) = some (op [], 0x71) ∧ setupOnly (.start (op [])) = true ∧ running.mode = .run) ∧
    (let r : Req := ⟨.verticality, 7, []⟩;
      frameOf (.depth r) = some (r, 0x30) ∧ runOnly (.depth r) = false ∧ setupOnly (.depth r) = false ∧
        operatorOnly (.depth r) = true ∧ r.origin ≠ .operator) ∧
    (let r : Req := ⟨.plant, 7, []⟩;
      frameOf (.swap r) = some (r, 0x44) ∧ runOnly (.swap r) = false ∧ setupOnly (.swap r) = false ∧
        plannersOnly (.swap r) = true ∧ r.origin = .plant) := by decide +kernel

theorem test_meets_UnknownKindsAreAnsweredUnknownRequest :
    namesRequest 0x00 = false ∧ namesRequest 0x17 = false ∧ (op []).body.length ≤ 120 := by decide +kernel

theorem endsBad_length (s : State) (h : s.rx = .hunting) : endsBad s [0x7E, 3] :=
  ⟨[0x7E], 3, [], 0, rfl, by rw [h]; rfl, .inl (by decide +kernel)⟩

/-- A bad length, a frame cut short, and a whole frame that collides each bring a bad frame. -/
theorem test_meets_bringsBadFrame :
    bringsBadFrame running (.badFrame [0x7E, 3]) ∧ bringsBadFrame running (.interByteTimeout [0x7E, 4, 1]) ∧
      bringsBadFrame sends (.badFrame (requestFrame (op []) 0x73)) := by
  refine ⟨⟨_, .inl ⟨rfl, endsBad_length _ (by decide +kernel)⟩⟩,
    ⟨_, .inr ⟨rfl, [4, 1], 0, by decide +kernel⟩⟩, ⟨_, .inl ⟨rfl, ?_⟩⟩⟩
  exact ⟨(requestFrame (op []) 0x73).dropLast, (requestFrame (op []) 0x73).getLast (by decide +kernel),
    ((requestFrame (op []) 0x73).drop 1).dropLast, 0, by decide +kernel, by decide +kernel,
    .inr ⟨⟨op [], 0x73, by decide +kernel⟩, .inl ⟨by decide +kernel, by decide +kernel⟩⟩⟩

theorem test_meets_BadFramesCountAndLoseTheLink :
    (∃ t, exec (.badFrame [0x7E, 0]) running = .next t) ∧ (∀ b ∈ [(0x7D : Byte), 0x7F], b ≠ 0x7E) ∧
    (bringsBadFrame State.reset (.badFrame [0x7E, 3]) ∧ State.reset.link.state ≠ .up ∧
      State.reset.link.badCount ≤ 255) ∧
    (let s : State := { running with link := ⟨.up, some 0, 6, 2000, 8⟩ };
      bringsBadFrame s (.badFrame [0x7E, 3]) ∧ s.link.state = .up ∧
        min 255 (s.link.badCount + 1) < s.link.badThreshold) ∧
    (let s : State := { settingUp with link := ⟨.up, some 0, 7, 2000, 8⟩ };
      bringsBadFrame s (.badFrame [0x7E, 3]) ∧ s.link.state = .up ∧
        s.link.badThreshold ≤ min 255 (s.link.badCount + 1) ∧ s.mode = .setup) ∧
    (let o := { plateOrder with tethered := true };
      let s : State := { governed o with link := ⟨.up, some 0, 7, 2000, 8⟩ };
      bringsBadFrame s (.badFrame [0x7E, 3]) ∧ bringsBadFrame s (.interByteTimeout [0x7E, 4, 1]) ∧ s.link.state = .up ∧
        s.link.badThreshold ≤ min 255 (s.link.badCount + 1) ∧ s.mode = .run ∧ s.orderAt 0 = some o ∧
        (∀ j : Slot, ¬ j < 0) ∧ s.noticeCount < 16 ∧ ∀ a, s.binding .fallback a = none) :=
  ⟨exists_of_execsOn (by decide +kernel), by decide +kernel,
    ⟨⟨_, .inl ⟨rfl, endsBad_length _ (by decide +kernel)⟩⟩, by decide +kernel⟩,
    ⟨⟨_, .inl ⟨rfl, endsBad_length _ (by decide +kernel)⟩⟩, by decide +kernel⟩,
    ⟨⟨_, .inl ⟨rfl, endsBad_length _ (by decide +kernel)⟩⟩, by decide +kernel⟩,
    ⟨⟨_, .inl ⟨rfl, endsBad_length _ (by decide +kernel)⟩⟩, ⟨_, .inr ⟨rfl, [4, 1], 0, by decide +kernel⟩⟩,
      by decide +kernel⟩⟩

/-- The silence timer at its limit. -/
def silent (s : State) : State := { s with link := ⟨.up, some 2000, 0, 2000, 8⟩ }

theorem test_meets_SilenceLosesTheLinkAndRetiresTetheredOrders :
    State.reset.link.state ≠ .up ∧
    (let s : State := { running with link := ⟨.up, some 1999, 0, 2000, 8⟩ };
      ∀ n, s.link.silence = some n → n < s.link.silenceLimit) ∧
    (let s := silent (governed plateOrder);
      s.link.state = .up ∧ s.link.silence = some 2000 ∧ s.link.silenceLimit ≤ 2000 ∧ s.mode = .run ∧
        (∀ a, s.binding .fallback a = none) ∧ ∀ i o, s.orderAt i = some o → o.tethered = false) ∧
    (let s := silent (governed { plateOrder with tethered := true });
      s.mode = .run ∧ s.orderAt 0 = some { plateOrder with tethered := true } ∧ (∀ j : Slot, ¬ j < 0) ∧
        s.noticeCount < 16) ∧
    (let s := silent settingUp;
      s.link.state = .up ∧ s.link.silence = some 2000 ∧ s.mode = .setup) := by
  refine ⟨by decide +kernel, ?_, ⟨by decide +kernel, by decide +kernel, by decide +kernel, by decide +kernel,
    by decide +kernel, ?_⟩, by decide +kernel, by decide +kernel⟩
  · intro s n h
    cases h
    decide
  · intro i o h
    have := allOrders_of_check (p := fun _ o => !o.tethered) (by decide +kernel) i o h
    simpa using this

/-- One actuator bound in the fallback set: its order can be placed, its target is out of range, and it is DOWN. -/
theorem test_meets_SilenceIssuesTheFallback :
    (let s := silent ((withTemplate running).setBinding .fallback 2 (some 4));
      (s.link.state = .up ∧ s.mode = .run ∧ (∀ i, s.orderAt i = none) ∧ s.binding .fallback 2 = some 4 ∧
        (∀ b, b ≠ 2 → s.binding .fallback b = none) ∧ s.template 4 = some template0 ∧ template0.actuator = 2 ∧
        (s.lane 2).state ≠ .down ∧ inRange ((s.lane 2).lo, (s.lane 2).hi) template0.target = true ∧
        s.findOrder 2 .guard = none ∧ s.freeSlot? = some 0 ∧ template0.guards = []) ∧ LaneLaw s) ∧
    (let s := silent (((withTemplate running).setBinding .fallback 2 (some 4)).updLane 2 fun l => { l with hi := 99 });
      inRange ((s.lane 2).lo, (s.lane 2).hi) template0.target = false ∧ (s.mapAt 2).assigned = some 2) ∧
    (let s := silent ((withTemplate (full running)).setBinding .fallback 2 (some 4));
      s.freeSlot? = none ∧ s.findOrder 2 .guard = none) ∧
    (let s := silent ((withTemplate (running.updLane 2 fun l => { l with state := .down })).setBinding .fallback 2 (some 4));
      (s.lane 2).state = .down ∧ s.binding .fallback 2 = some 4) :=
  ⟨⟨by decide +kernel, laneLaw_of_check (by decide +kernel)⟩, by decide +kernel, by decide +kernel, by decide +kernel⟩

theorem test_meets_TheOldestFrameIsSent :
    (sends.link.state = .up ∧ sends.pair ≠ .free ∧ sends.sending = true) ∧
    (running.link.state = .up ∧ running.rx = .hunting) ∧
    ({ sends with finishing := true, link := ⟨.lost, none, 0, 2000, 8⟩ } : State).finishing = true ∧
    (State.reset.link.state ≠ .up ∧ State.reset.finishing = false) ∧
    (let s : State := { sends with pair := .free, rx := .collecting [] 0 };
      s.pair = .free ∧ s.rx ≠ .hunting ∧ s.finishing = false) ∧
    bringsBadFrame sends (.badFrame [0x7E, 3]) ∧ ∃ t, exec (.badFrame [0x7E, 3]) sends = .next t := by
  refine ⟨?_, ?_, ?_, ?_, ?_, ⟨_, .inl ⟨rfl, endsBad_length _ (by decide +kernel)⟩⟩,
    exists_of_execsOn (by decide +kernel)⟩ <;> decide +kernel

/-- The part holds the pair for an answer: the newest, an older one with a newer behind it, and a notice before it; and
it holds the pair to empty its queue, with a frame left and without. -/
theorem test_meets_pairAfter :
    let notice : TxFrame := .notice .operator (.moduleFaulted .flow)
    let answer : TxFrame := .answer .operator 7 0x24 .done []
    let s : State := { sends with pair := .heldForAnswer }
    (s.link.state = .up ∧ s.pair = .heldForAnswer ∧ sends.pair = .heldToEmpty) ∧
    (answer.isNotice = false ∧ (∀ g ∈ [notice], g.isNotice = true) ∧ pairAfter s answer [notice] = .free) ∧
    ((∃ g ∈ [notice, answer], g.isNotice = false) ∧ pairAfter s answer [notice, answer] = .heldForAnswer) ∧
    (notice.isNotice = true ∧ pairAfter s notice [answer] = .heldForAnswer) ∧
    (pairAfter sends notice [] = .free ∧ pairAfter sends notice [notice] = .heldToEmpty) := by decide +kernel

/-- A PLACE of an order for actuator `a` without prerequisite and guards. -/
def plain (a : Nat) (target : Int) (ramp lease : Nat) : PlaceForm :=
  ⟨a, target, ramp, .standing, ⟨255, 0xFF⟩, lease, false, []⟩

/-- A guard that is met, with FLOW at 410 l/min; one that is not, with a dwell; and one that trips at once. -/
def flowing (s : State) : State :=
  (s.setModule .flow ⟨.valid, 0, 0, some 0, 5, 1000⟩).setModValue 2 410

def metGuard : Guard := ⟨13, .requireAbove, 409, .retire, 0⟩

def slowGuard : Guard := ⟨13, .requireAbove, 410, .retire, 100⟩

def tripGuard : Guard := ⟨13, .requireBelow, 410, .retire, 0⟩

theorem test_meets_guards :
    (guardMet (flowing running) metGuard ∧ ¬ guardMet (flowing running) slowGuard) ∧
    (¬ tripsAtOnce (flowing running) metGuard ∧ ¬ tripsAtOnce (flowing running) slowGuard ∧
      tripsAtOnce (flowing running) tripGuard) ∧
    (guardAllowed metGuard ∧ guardAllowed slowGuard ∧ guardAllowed tripGuard) := by
  have value : (flowing running).pointValue 13 = some 410 := by decide +kernel
  have met : ∀ g : Guard, g.point = 13 → (guardMet (flowing running) g ↔ match g.relation with
      | .requireAbove => g.threshold < 410
      | .requireBelow => 410 < g.threshold) := by
    intro g e
    unfold guardMet
    rw [e, value]
    constructor
    · rintro ⟨-, v, hv, h⟩
      cases hv
      exact h
    · exact fun h => ⟨by decide +kernel, 410, rfl, h⟩
  have above : (409 : Int) < 410 := by decide
  refine ⟨⟨(met metGuard rfl).mpr above, fun h => absurd ((met slowGuard rfl).mp h) (Int.lt_irrefl 410)⟩,
    ⟨?_, ?_, ?_⟩, ?_⟩
  · exact fun h => h.1 ((met metGuard rfl).mpr above)
  · exact fun h => absurd h.2.1 (by decide)
  · exact ⟨fun h => absurd ((met tripGuard rfl).mp h) (Int.lt_irrefl 410), rfl, rfl⟩
  · unfold guardAllowed
    decide +kernel

/-- The governing order in slot 0, settled. -/
def settledState : State := governed { plateOrder with settled := true }

theorem test_meets_PlaceCreatesTheOrder :
    (placeFits { plain 2 200 50 3600 with guards := [metGuard, slowGuard].map guardForm } ∧
      (plain 2 200 50 3600).prereq = prereqForm none ∧
      running.mode = .run ∧ applicable .operator 2 = true ∧ inRange ((running.lane 2).lo, (running.lane 2).hi) 200 = true ∧
      50 ≤ maxRamp 2 ∧ (running.lane 2).state ≠ .down) ∧
    (placeFits (plain 11 1 0 0) ∧ applicable .plant 11 = true ∧
      inRange ((running.lane 11).lo, (running.lane 11).hi) 1 = true ∧ 0 ≤ maxRamp 11 ∧
      (plain 11 1 0 0).completion = .standing) ∧ LaneLaw running := by
  refine ⟨⟨?_, by decide +kernel⟩, ⟨?_, by decide +kernel⟩, test_laneLaw_running⟩ <;>
    (unfold placeFits fits16 guardFits fits16; decide +kernel)

/-- Every case of a placement: no order to supersede, its prerequisite none, settled, or not; and an order to supersede
that another waits on, whose slot or a free slot below it is taken. -/
theorem test_meets_PlacementRuns :
    (running.findOrder 2 .operator = none ∧ running.freeSlot? = some 0 ∧ running.gateSettles = none ∧
      prereqReady running none ∧ (gateQuiet running ∧ ∀ k, running.waitsOn k ⟨0, 0⟩ = false)) ∧
    (let s := flowing running;
      s.mode = .run ∧ (s.lane 2).state ≠ .down ∧ s.findOrder 2 .operator = none ∧ s.freeSlot? = some 0 ∧
        s.noticeCount < 16 ∧ laneCheck s = true) ∧
    (prereqReady settledState (some h0) ∧ (∃ d, settledState.order? h0 = some d ∧ d.actuator ≠ 3)) ∧
    (¬ prereqReady (governed plateOrder) (some h0) ∧ (governed plateOrder).gateSettles = none ∧
      (governed plateOrder).findOrder 3 .operator = none ∧ (governed plateOrder).freeSlot? = some 1) ∧
    (let s := withWaiter (governed plateOrder);
      s.findOrder 2 .operator = some 0 ∧ s.orderAt 0 = some plateOrder ∧ s.handleAt 0 = h0 ∧ s.goesWith h0 0 = true ∧
        s.goesWith h0 1 = true ∧ (∀ k : Slot, ¬ k < 0) ∧ s.noticeCount < 16 ∧
        (∀ d, d ≠ Cls.operator → (s.lane 2).orderSet.get d = none) ∧ (s.lane 2).gov = some h0 ∧
        Cls.operator ∈ (s.lane 2).precedence ∧ (s.lane 2).mask.get .operator = false ∧ s.gateSettles = none ∧
        laneCheck s = true) ∧
    (let s := withWaiter (governed plateOrder);
      s.findOrder 3 .operator = some 1 ∧ s.goesWith ⟨1, 0⟩ 1 = true ∧ s.goesWith ⟨1, 0⟩ 0 = false ∧
        s.orderAt 0 ≠ none ∧ ∀ k : Slot, k < 1 → k = 0) ∧
    (gateDriven.findOrder gate .operator = some 0 ∧ (gateDriven.lane gate).gov = some h0 ∧
      gateDriven.gateSettles = none ∧ ∀ k, gateDriven.waitsOn k ⟨0, 6⟩ = false) := by
  refine ⟨⟨by decide +kernel, by decide +kernel, by decide +kernel, fun q d h => (by cases h),
      .inl (by decide +kernel), by decide +kernel⟩, by decide +kernel,
    ⟨fun q d h hd => ?_, ⟨{ plateOrder with settled := true }, by decide +kernel⟩⟩,
    ⟨fun h => ?_, by decide +kernel⟩, ?_, by decide +kernel⟩
  · cases h
    have e : settledState.order? h0 = some { plateOrder with settled := true } := by decide +kernel
    rw [hd] at e
    cases e
    exact ⟨rfl, rfl⟩
  · exact absurd (h h0 plateOrder rfl (by decide +kernel)).2 (by decide)
  · refine ⟨?_, ?_, ?_, ?_, ?_, ?_, ?_, fun d h => ?_, ?_⟩
    case refine_8 => cases d <;> first | exact absurd rfl h | decide +kernel
    all_goals decide +kernel

theorem test_meets_AnOrderPlacedOnARestingLaneGoverns :
    placeFits (plain 2 200 50 3600) ∧ running.mode = .run ∧ (running.lane 2).state = .rest ∧
      (running.lane 2).gov = none ∧ (∀ c, (running.lane 2).orderSet.get c = none) ∧
      Cls.operator ∈ (running.lane 2).precedence ∧ (running.lane 2).mask.get .operator = false ∧
      running.gateSettles = none ∧ LaneLaw running := by
  refine ⟨?_, ?_, ?_, ?_, fun c => ?_, ?_, ?_, ?_, test_laneLaw_running⟩
  · unfold placeFits fits16 guardFits fits16; decide +kernel
  case refine_5 => cases c <;> decide +kernel
  all_goals decide +kernel

/-- The GATE resting at 0: a target it steps to, and one it stands at with its travel complete. And a step whose
channel follows the lane, and one whose channel is in LOCAL. -/
theorem test_meets_TheGateSteps :
    (placeFits (plain 11 1 0 0) ∧ placeFits { plain 11 0 0 0 with completion := .settle }) ∧
    ((running.lane gate).state = .rest ∧ (running.lane gate).command ≠ some 1 ∧ (running.lane gate).gov = none ∧
      Cls.operator ∈ (running.lane gate).precedence ∧ (running.lane gate).mask.get .operator = false) ∧
    (let s : State := { running with travel := .complete };
      (s.lane gate).command = some 0 ∧ s.travel = .complete ∧ s.gateSettles = none ∧
        ∀ k, s.waitsOn k (s.handleAt 0) = false) ∧
    ((running.mapAt gate).assigned = some 14 ∧ (running.chan 14).mode = .order ∧ running.assignee 14 = some gate ∧
      (gateStep 1 running).chan 14 = ⟨none, .order, 0, 1000⟩ ∧
      ((running.setChan 14 ⟨none, .localDuty, 0, 0⟩).chan 14).mode ≠ .order) := by
  refine ⟨⟨?_, ?_⟩, by decide +kernel⟩ <;> (unfold placeFits fits16 guardFits fits16; decide +kernel)

theorem test_meets_PlaceChecksAreMadeInOrder :
    settingUp.mode = .setup ∧ formPlace [0] = none ∧
    formPlace (placeBody (plain 12 0 0 0)) = some (plain 12 0 0 0) ∧
    firstFailing (placeChecks running .operator (plain 12 0 0 0) true) = some .badActuator ∧
    firstFailing (placeChecks running .plant (plain 9 0 0 0) true) = some .notApplicable ∧
    firstFailing (placeChecks running .operator (plain 2 201 0 0) true) = some .outOfRange ∧
    firstFailing (placeChecks running .operator (plain 11 1 1 0) true) = some .notApplicable ∧
    firstFailing (placeChecks running .operator { plain 2 0 0 0 with guards := [⟨13, .requireAbove, 0, .retire, 150⟩] }
      true) = some .badField ∧
    firstFailing (placeChecks running .operator { plain 2 0 0 0 with prereq := ⟨0, 0⟩ } false) = some .badPrereq ∧
    firstFailing (placeChecks (full running) .operator (plain 2 0 0 0) true) = some .tableFull ∧
    firstFailing (placeChecks running .operator (plain 2 0 0 0) true) = none := by decide +kernel

/-- Slot 2 WAITING on slot 1, which is WAITING on slot 0. -/
def chained : State :=
  ((withWaiter (governed plateOrder)).setSlot 2 ⟨0, some { waiter with actuator := 4, prereq := some ⟨1, 0⟩ }⟩).updLane 4
    fun l => { l with orderSet := l.orderSet.set .operator (some ⟨2, 0⟩) }

/-- A prerequisite accepted, and refused for each test of R12: not live, the same actuator, and in the cascade of the
order it would supersede, directly and through a chain. -/
theorem test_prereqAccepted :
    PrereqAccepted chained 5 .operator h0 ∧ ¬ PrereqAccepted chained 5 .operator ⟨3, 0⟩ ∧
      ¬ PrereqAccepted chained 2 .operator h0 ∧ ¬ PrereqAccepted chained 2 .operator ⟨1, 0⟩ ∧
      ¬ PrereqAccepted chained 2 .operator ⟨2, 0⟩ ∧ PrereqAccepted chained 2 .verticality ⟨2, 0⟩ := by
  simp only [← prereqOk_iff]
  decide +kernel

theorem test_waitsBehind : WaitsBehind chained h0 ⟨1, 0⟩ ∧ WaitsBehind chained h0 ⟨2, 0⟩ ∧ ¬ WaitsBehind chained h0 h0 := by
  simp only [← waitsThrough_iff]
  decide +kernel

theorem test_meets_IssueCopiesTheTemplate :
    (fits16 ((some 120 : Option Int).getD 0) ∧ (withTemplate running).template 4 = some template0 ∧
      template0.guards.length ≤ 2 ∧ (⟨255, 0xFF⟩ : HandleForm) = prereqForm none ∧ (withTemplate running).mode = .run ∧
      inRange (((withTemplate running).lane 2).lo, ((withTemplate running).lane 2).hi) 120 = true ∧
      ((withTemplate running).lane 2).state ≠ .down) ∧ LaneLaw (withTemplate running) := by
  refine ⟨⟨?_, by decide +kernel⟩, laneLaw_of_check (by decide +kernel)⟩
  unfold fits16; decide

theorem test_meets_AmendChangesTheRecordAndRestartsSettle :
    (amendFits ⟨⟨0, 5⟩, some 120, some 50, some 3600⟩ ∧ amendFits ⟨⟨0, 5⟩, some 100, none, none⟩) ∧
    (governed plateOrder).order? h0 = some plateOrder ∧ plateOrder.cls = classOf .operator ∧
    (∀ v, (some 120 : Option Int) = some v →
      inRange (((governed plateOrder).lane 2).lo, ((governed plateOrder).lane 2).hi) v = true) ∧
    (holding { plateOrder with state := .pending } running).order? h0 = some { plateOrder with state := .pending } ∧
    LaneLaw (governed plateOrder) := by
  refine ⟨?_, by decide +kernel, by decide +kernel, ?_, by decide +kernel, test_laneLaw_governed⟩
  · unfold amendFits fits16; decide
  · intro v h
    cases h
    decide +kernel

theorem test_meets_AmendOnTheGate :
    (gateDriven.order? h0 = some gateOrder ∧ gateOrder.state = .governing ∧ gateOrder.actuator = gate ∧
      (gateDriven.lane gate).state = .driven ∧ gateOrder.target ≠ 0 ∧
      inRange ((gateDriven.lane gate).lo, (gateDriven.lane gate).hi) 0 = true ∧ laneCheck gateDriven = true) ∧
    (let s := gateDriven.updLane gate fun l => { l with state := .held, maskHold := true };
      s.order? h0 = some gateOrder ∧ (s.lane gate).state = .held ∧ laneCheck s = true) := by decide +kernel

theorem test_meets_RenewReloadsTheLease :
    (governed plateOrder).mode = .run ∧ (governed plateOrder).order? h0 = some plateOrder ∧ plateOrder.lease = none ∧
    (let o := { plateOrder with lease := some ⟨60, 0⟩ };
      (governed o).order? h0 = some o ∧ o.lease = some ⟨60, 0⟩ ∧ o.cls = classOf .operator) := by decide +kernel

/-- PLANT's own order, and OPERATOR withdrawing an order of another class that another order waits on. -/
theorem test_meets_WithdrawRetiresTheOrder :
    (let s := governed { plateOrder with cls := .plant, actuator := 10 };
      s.mode = .run ∧ s.order? h0 = some { plateOrder with cls := .plant, actuator := 10 } ∧
        Cls.plant = classOf .plant) ∧
    (planned.mode = .run ∧ planned.order? h0 = some planOrder ∧ planOrder.planEntry = some (0, 0) ∧
      planned.entry 0 0 = some ⟨100, 200, 2, 100, none, .live h0⟩) ∧
    (let o := { plateOrder with cls := .verticality };
      let s := withWaiter (governed o);
      s.mode = .run ∧ s.order? h0 = some o ∧ o.cls ≠ classOf .operator ∧ s.goesWith h0 0 = true ∧
        s.goesWith h0 1 = true ∧ (allSlots.filter (s.goesWith h0)).length = 2 ∧ s.orderAt 1 = some waiter ∧
        s.noticeCount + 2 ≤ 16 ∧ s.noticeCount < 16 ∧ laneCheck s = true ∧ s.travel ≠ .complete) := by decide +kernel

theorem test_meets_LeaseExpiryRetiresTheOrder :
    (let o := { plateOrder with lease := some ⟨60, 0⟩ };
      (governed o).order? h0 = some o ∧ (governed o).noticeCount < 16 ∧ o.leaseOut = true ∧ (governed o).mode = .run ∧
        amendFits ⟨⟨0, 5⟩, none, none, some 0⟩ ∧ execsOn (.leaseExpiry h0) (governed o) = true ∧
        execsOn (.withdraw (op body0)) (governed o) = true ∧
        execsOn (.renew (op (body0 ++ putU16 1))) (governed o) = true) ∧
    (let o := { plateOrder with lease := some ⟨60, 1⟩ };
      (governed o).order? h0 = some o ∧ ∀ p l, (governed o).order? h0 = some p → p.lease = some l → l.remaining ≠ 0) := by
  refine ⟨⟨by decide +kernel, by decide +kernel, by decide +kernel, by decide +kernel, ?_, by decide +kernel,
    by decide +kernel, by decide +kernel⟩, by decide +kernel, ?_⟩
  · unfold amendFits fits16; decide
  · intro p l hp hl
    have e : (governed { plateOrder with lease := some ⟨60, 1⟩ }).order? h0 =
      some { plateOrder with lease := some ⟨60, 1⟩ } := by decide +kernel
    rw [hp] at e
    cases e
    cases hl
    decide

theorem test_meets_ReportsChangeNothing :
    (governed plateOrder).order? h0 = some plateOrder ∧ (1 : Nat) ≤ ([0] : List Point).length ∧
      allPoints.length ≤ 19 ∧ Origin.verticality ≠ .plant ∧ running.entry 0 0 = none ∧
      (withEntry 100 200 .ahead running).entry 0 0 = some ⟨100, 200, 2, 100, none, .ahead⟩ ∧
      running.template 4 = none ∧ (withTemplate running).template 4 = some template0 ∧
      (settingUp.lane 2).command = none ∧ (running.lane 2).command = some 0 := by decide +kernel

/-- The ends of a rounding to whole units, and the calibrated duty of a command between the points. -/
theorem test_wholeUnits :
    wholeUnits 2 25 1 ∧ wholeUnits 2 24 0 ∧ wholeUnits 0 (-25) (-1) ∧ wholeUnits 0 (-24) 0 ∧ wholeUnits gate 1 1 ∧
      calibratedDuty 2 200 800 5000 500 := by
  unfold wholeUnits calibratedDuty; decide +kernel

theorem test_meets_LowestMaskUnmaskAndYieldSetTheLane :
    running.mode = .run ∧ Cls.plan ≠ .guard ∧ applicable .plan 2 = true ∧
      (running.lane 2).precedence.getLast? = some .plan ∧ (running.lane 2).mask.get .plan = false ∧
      (running.lane 2).yield = false ∧
      (running.lane 3).precedence.getLast? ≠ some .operator ∧
      ((running.updLane 2 fun l => { l with mask := l.mask.set .plan true }).lane 2).mask.get .plan = true ∧
      (running.lane 2).state ≠ .down ∧ laneCheck running = true := by decide +kernel

/-- A lane HELD by the mask: on a plate without a guard and with one that freezes, and on the GATE at its target with the
travel timer running and complete. -/
def maskHeld (o : Order) (s : State) : State :=
  s.updLane o.actuator fun l => { l with state := .held, maskHold := true, mask := l.mask.set o.cls true }

theorem test_meets_UnmaskReturnsTheLane :
    (let s := maskHeld plateOrder (governed plateOrder);
      s.mode = .run ∧ (s.lane 2).state = .held ∧ (s.lane 2).maskHold = true ∧ (s.lane 2).mask.get .operator = true ∧
        (s.lane 2).gov = some h0 ∧ s.order? h0 = some plateOrder ∧ (s.lane 2).orderSet.get .operator = some h0 ∧
        [Cls.guard, .verticality, .plan, .plant].all (fun d => (s.lane 2).orderSet.get d = none) = true ∧
        s.gateSettles = none ∧ laneCheck s = true ∧ plateOrder.frozen = false) ∧
    (let o := { plateOrder with guards := [⟨⟨14, .requireAbove, 1200, .freeze, 0⟩, .active⟩] };
      let s := maskHeld o (governed o);
      o.frozen = true ∧ s.order? h0 = some o ∧ s.gateSettles = none ∧ laneCheck s = true) ∧
    (let s := maskHeld gateOrder gateDriven;
      (s.lane gate).command = some gateOrder.target ∧ s.travel ≠ .complete ∧ s.gateSettles = none ∧
        laneCheck s = true ∧ gateOrder.frozen = false ∧ gateOrder.completion = .standing ∧
        (∀ i, s.waitsOn i h0 = false) ∧ ({ s with travel := .complete } : State).gateSettles = none) := by decide +kernel

theorem test_meets_MaskHoldsOrDemotesTheGoverningOrder :
    (let s := governed plateOrder;
      s.mode = .run ∧ s.order? h0 = some plateOrder ∧ (s.lane 2).gov = some h0 ∧ (s.lane 2).state = .driven ∧
        (s.lane 2).mask.get .operator = false ∧ (s.lane 2).orderSet.get .operator = some h0 ∧
        s.gateSettles = none ∧ (s.lane 2).yield = false) ∧
    (∀ d, d ≠ Cls.operator → ((governed plateOrder).lane 2).orderSet.get d = none) ∧
    LaneLaw (governed plateOrder) ∧
    (let s := (governed plateOrder).updLane 2 fun l => { l with yield := true };
      (s.lane 2).yield = true ∧ s.gateSettles = none) ∧
    (let s := gateDriven.updLane gate fun l => { l with yield := true };
      (s.lane gate).yield = true ∧ (s.lane gate).state = .driven ∧ (s.lane gate).gov = some h0 ∧
        s.gateSettles = none ∧ laneCheck s = true) := by
  refine ⟨by decide +kernel, fun d h => ?_, test_laneLaw_governed, by decide +kernel⟩
  cases d <;> first | exact absurd rfl h | decide +kernel

theorem test_meets_SetupRequestsStoreTheirSettings :
    settingUp.mode = .setup ∧ limitsAllowed 2 0 200 = true ∧ limitsAllowed 0 (-350) 0 = true ∧
      50 * (fullRange 2).1 ≤ (0 : Int) ∧ (10000 : Int) ≤ 50 * (fullRange 2).2 ∧
      (1 : Int) ≤ bandMax 2 ∧ (300 : Nat) ≤ 5000 ∧ (2 : Actuator) ≠ gate ∧
      ((500 : Nat) ≤ 500 ∧ (10000 : Nat) ≤ 10000) := by decide +kernel

theorem test_meets_ControlIntervalMovesTheCommand :
    (running.lane 2).interval = some 0 ∧
    (let s := running.updLane 2 fun l => { l with interval := some 20, state := .held };
      (s.lane 2).interval = some 20 ∧ (s.lane 2).state = .held) ∧
    (let s := running.updLane 11 fun l => { l with interval := some 20 };
      (s.lane 11).interval = some 20) ∧
    (let s := running.updLane 0 fun l => { l with interval := some 20 };
      (s.lane 0).command = some 0 ∧ aimIs s 0 0 20 ∧ ∀ w, 0 ≤ (s.interlock w).creep) ∧
    (let s := (governed plateOrder).updLane 2 fun l => { l with interval := some 20 };
      (s.lane 2).command = some 0 ∧ aimIs s 2 5000 10) := by
  refine ⟨by decide +kernel, by decide +kernel, by decide +kernel,
    ⟨by decide +kernel, .inl ⟨by decide +kernel, ?_, by decide +kernel⟩, by decide +kernel⟩,
    by decide +kernel, .inr ⟨by decide +kernel, h0, plateOrder, by decide +kernel, by decide +kernel, ?_,
      by decide +kernel⟩⟩ <;> (unfold clampedAim; decide +kernel)

theorem test_meets_SettleDwellExpirySettlesTheOrder :
    (let s := (governed plateOrder).updLane 2 fun l => { l with detector := .timing 299 };
      (s.lane 2).state = .driven ∧ (s.lane 2).gov = some h0 ∧ s.order? h0 = some plateOrder ∧ 299 < (s.lane 2).dwell) ∧
    (let s := (governed plateOrder).updLane 2 fun l => { l with detector := .timing 300 };
      (s.lane 2).detector = .timing 300 ∧ (s.lane 2).dwell ≤ 300 ∧ plateOrder.completion = .standing ∧
        (∀ i, s.waitsOn i h0 = false) ∧ s.gateSettles = none) := by decide +kernel

theorem test_meets_CompletionReleasesDependentsFirst :
    let o := { plateOrder with completion := .settle }
    let s := (withWaiter (governed o)).updLane 2 fun l => { l with detector := .timing 300 }
    (s.lane 2).state = .driven ∧ (s.lane 2).gov = some h0 ∧ s.order? h0 = some o ∧ (s.lane 2).dwell ≤ 300 ∧
      (s.lane 2).detector = .timing 300 ∧ s.orderAt 1 = some waiter ∧ waiter.state = .waiting ∧
      waiter.prereq = some h0 ∧ waiter.completion = .standing ∧ waiter.guards = [] ∧ s.noticeCount < 16 ∧
      s.gateSettles = none ∧ laneCheck s = true ∧
      ∀ j p, s.orderAt j = some p → p.guards = [] ∧ (p.actuator = gate → s.travel ≠ .complete) := by
  refine ⟨?_, ?_, ?_, ?_, ?_, ?_, ?_, ?_, ?_, ?_, ?_, ?_, ?_, fun j p h => ⟨?_, fun _ => ?_⟩⟩
  case refine_14 =>
    have := allOrders_of_check (p := fun _ o => o.guards = []) (by decide +kernel) j p h
    simpa using this
  all_goals decide +kernel

/-- The GATE driven by the order `o`, its travel timer at the limit. -/
def travelling (o : Order) : State :=
  { (governed o).updLane gate (fun l => { l with command := some o.target }) with travel := .running 4000 }

theorem test_meets_GateTravelCompletionSettlesTheGate :
    ((3999 : Nat) < 1000 * running.travelLimit ∧ 1000 * running.travelLimit ≤ 4000 ∧ (running.lane gate).gov = none) ∧
    (let s := travelling gateOrder;
      s.travel = .running 4000 ∧ (s.lane gate).gov = some h0 ∧ s.order? h0 = some gateOrder ∧
        (s.lane gate).state = .driven ∧ gateOrder.settled = false ∧ (s.lane gate).command = some gateOrder.target ∧
        gateOrder.completion = .standing ∧ ∀ i, s.waitsOn i h0 = false) ∧
    (let s := (travelling gateOrder).updLane gate fun l => { l with state := .held, maskHold := true };
      (s.lane gate).gov = some h0 ∧ (s.lane gate).state ≠ .driven) := by decide +kernel

/-- A dependent of the GATE's order, on a plate, when the order is STANDING and when it is SETTLE. -/
theorem test_meets_GateTravelReleases :
    (let s := withWaiter (travelling gateOrder);
      laneCheck s = true ∧ s.waitsOn 1 h0 = true ∧ s.orderAt 1 = some waiter ∧ waiter.guards = [] ∧
        allSlots.all (fun i => (s.orderAt i).all fun d => !s.waitsOn i h0 || (d.actuator ≠ gate && d.guards.isEmpty))
          = true) ∧
    (let o := { gateOrder with completion := .settle };
      let s := withWaiter (travelling o);
      s.order? h0 = some o ∧ laneCheck s = true ∧ s.noticeCount < 16 ∧
        [Cls.guard, .operator, .verticality, .plan, .plant].all
          (fun d => ((s.lane gate).orderSet.get d).all (· = h0)) = true) := by decide +kernel

/-- PMS and SLF VALID above their minima, both interlocks released. -/
def pumping : State :=
  let s := (flowing running).setDirect 10 ⟨.valid, some 1000, none⟩
  (s.setInterlock 0 ⟨300, 120, 30, false⟩).setInterlock 1 ⟨300, 120, 30, false⟩

theorem test_meets_InterlockEngagementCutsTheWheelCommand :
    (let s := pumping.updLane 0 fun l => { l with command := some 9000 };
      (s.directAt 10).status ≠ .faulted ∧ (299 : Int) < (s.interlock 0).pumpMin ∧ 0 ≤ (s.interlock 0).creep ∧
        (s.interlock 0).engaged = false ∧ (s.lane (wheelActuator 0)).command = some 9000 ∧
        (s.interlock 0).flowMin ≠ 0 ∧ (119 : Int) < (s.interlock 0).flowMin ∧ (s.module .flow).status ≠ .faulted) ∧
    ((running.interlock 1).engaged = true ∧ (running.lane (wheelActuator 1)).command = some 0) ∧
    (readingsOf .flow [119] ∧ deadSample 10 1999 0) ∧
    (let m := (pumping.setModule .flow ⟨.valid, 4, 0, some 1000, 5, 1000⟩).module .flow;
      m.stale = some 1000 ∧ m.staleLimit ≤ 1000 ∧ m.status ≠ .faulted ∧ m.threshold ≤ min 255 (m.badCount + 1)) ∧
    (¬ ∃ vs, readingsOf .flow vs ∧ BitVec.ofNat 8 (Module.code .flow + 1) :: [] = moduleFrame .flow vs) := by
  refine ⟨by decide +kernel, by decide +kernel, ⟨?_, .inl (by decide)⟩, by decide +kernel, ?_⟩
  · unfold readingsOf; decide +kernel
  · rintro ⟨vs, -, e⟩
    have := congrArg List.length e
    simp [moduleFrame, putByte, putCrc, putU16] at this

/-- The reading that leaves neither short: of PMS with SLF at its minimum or no flow minimum, and of FLOW with PMS at
its minimum. -/
theorem test_meets_InterlockRelease :
    ((pumping.interlock 0).pumpMin ≤ 300 ∧ ¬ shortOf pumping 13 410) ∧ ((0 : Int) ≠ 120 ∧ ¬ shortOf pumping 10 1000) ∧
    (let s := pumping.setInterlock 0 ⟨300, 0, 30, true⟩;
      (s.interlock 0).engaged = true ∧ (s.interlock 0).flowMin = 0) ∧ readingsOf .flow [120] := by
  refine ⟨⟨by decide +kernel, ?_⟩, ⟨by decide, ?_⟩, by decide +kernel, ?_⟩
  · rw [← short_iff]; decide +kernel
  · rw [← short_iff]; decide +kernel
  · unfold readingsOf; decide +kernel

/-- A guard entry that has run `n` ms of a 500 ms dwell. -/
def timed (action : GuardAction) (n : Nat) : GuardEntry := ⟨⟨15, .requireAbove, 100, action, 500⟩, .timing n⟩

theorem test_meets_GuardDwellExpiryActs :
    (let o := { plateOrder with guards := [timed .retire 499, timed .retire 500] };
      (governed o).order? h0 = some o ∧ o.guards[(0 : Fin 2).val]? = some (timed .retire 499) ∧
        499 < (timed .retire 499).guard.dwell ∧ o.guards[(1 : Fin 2).val]? = some (timed .retire 500) ∧
        (timed .retire 500).guard.dwell ≤ 500 ∧ (governed o).noticeCount < 16) ∧
    (let o := { plateOrder with guards := [timed .freeze 500] };
      (governed o).order? h0 = some o ∧ o.guards[(0 : Fin 2).val]? = some (timed .freeze 500) ∧
        o.state = .governing ∧ ((governed o).lane 2).gov = some h0) ∧
    (let o := { plateOrder with state := .pending, guards := [timed .freeze 500] };
      (holding o running).order? h0 = some o ∧ o.state ≠ .governing) := by decide +kernel

theorem test_meets_DirectSamplesAreTakenFaultAndRecover :
    (liveSample 0 2000 (-400000) (-400) ∧ liveSample 10 20000 2000000 2000 ∧ liveSample 2 3800 0 0 ∧
      liveSample 2 4000 0 0 ∧ liveSample 2 20000 0 220 ∧ liveSample 9 20500 0 220) ∧
    (deadSample 0 1999 0 ∧ deadSample 1 12000 400001 ∧ deadSample 10 12000 2000001 ∧ deadSample 2 3799 0 ∧
      deadSample 9 20501 0) ∧
    (running.directAt 2).status ≠ .faulted ∧
    ((running.setDirect 2 ⟨.faulted, none, some 960⟩).directAt 2).recovery = some 960 ∧ 960 + 20 < 1000 ∧
    ((running.setDirect 2 ⟨.faulted, none, some 980⟩).directAt 2).recovery = some 980 ∧ 1000 ≤ 980 + 20 ∧
    ((running.setDirect 2 ⟨.faulted, none, none⟩).directAt 2).recovery = none := by
  refine ⟨?_, ?_, by decide +kernel⟩ <;> simp [liveSample, deadSample] <;> decide

/-- The stroke point of the governed lane: a reading at the end of the band and one past it, the detector IDLE with the
command at the target, a dwell of zero, and a detector already timing. -/
theorem test_meets_SettleDetector :
    let s := (governed plateOrder).updLane 2 fun l => { l with command := some 5000 }
    ((s.lane 2).state = .driven ∧ (s.lane 2).gov = some h0 ∧ s.order? h0 = some plateOrder ∧
      (s.directAt 2).status ≠ .faulted ∧ 0 ≤ (s.lane 2).band) ∧ LaneLaw s ∧
    (∀ i q e, s.orderAt i = some q → e ∈ q.guards → e.guard.point.val ≠ 2) ∧
    (deadSample 2 3799 0 ∧ liveSample 2 11418 0 102 ∧ liveSample 2 11491 0 103) ∧
    (((102 : Int) - plateOrder.target).natAbs ≤ (s.lane 2).band ∧ (s.lane 2).band < ((103 : Int) - plateOrder.target).natAbs) ∧
    ((s.lane 2).detector = .idle ∧ (s.lane 2).command = some (50 * plateOrder.target) ∧ 0 < (s.lane 2).dwell) ∧
    (let u := s.updLane 2 fun l => { l with dwell := 0 };
      (u.lane 2).dwell = 0 ∧ plateOrder.completion = .standing ∧ (∀ i, u.waitsOn i h0 = false) ∧
        u.gateSettles = none) ∧
    ((s.updLane 2 fun l => { l with detector := .timing 5 }).lane 2).detector ≠ .idle := by
  refine ⟨by decide +kernel, laneLaw_of_check (by decide +kernel), fun i q e h he => ?_,
    by simp [liveSample, deadSample], by decide +kernel, by decide +kernel, by decide +kernel, by decide +kernel⟩
  have := allOrders_of_check (p := fun _ o => o.guards = []) (by decide +kernel) i q h
  simp only [decide_eq_true_eq] at this
  simp [this] at he

theorem test_meets_ModuleFramesAreTakenOrCharged :
    readingsOf .tilt [-5000, 5000] ∧ (running.module .tilt).status ≠ .faulted ∧
    (let s := running.setModule .tilt ⟨.faulted, 0, 2, none, 5, 1000⟩;
      2 ≤ (s.module .tilt).goodRun) ∧
    (let s := running.setModule .tilt ⟨.faulted, 0, 1, none, 5, 1000⟩;
      (s.module .tilt).status = .faulted ∧ (s.module .tilt).goodRun < 2) ∧
    (¬ ∃ vs, readingsOf .tilt vs ∧ (BitVec.ofNat 8 (Module.code .tilt + 1)) :: [] = moduleFrame .tilt vs) ∧
    (min 255 ((running.module .tilt).badCount + 1) < (running.module .tilt).threshold) ∧
    (let s := running.setModule .tilt ⟨.stale, 4, 0, none, 5, 1000⟩;
      (s.module .tilt).status ≠ .faulted ∧ (s.module .tilt).threshold ≤ min 255 ((s.module .tilt).badCount + 1)) ∧
    ((0 : Byte).toNat = 0 ∧ 4 < (5 : Byte).toNat) := by
  refine ⟨?_, by decide +kernel, by decide +kernel, by decide +kernel, ?_, by decide +kernel, by decide +kernel,
    by decide +kernel⟩
  · unfold readingsOf; decide +kernel
  · rintro ⟨vs, -, e⟩
    have := congrArg List.length e
    simp [moduleFrame, putByte, putCrc, putU16] at this

/-- A guard in each of its conditions, alone on its point `p`. -/
def entriesOn (p : Point) : List GuardEntry :=
  let e := fun action dwell cond => (⟨⟨p, .requireAbove, 100, action, dwell⟩, cond⟩ : GuardEntry)
  [e .retire 0 .satisfied, e .freeze 0 .satisfied, e .freeze 100 .satisfied, e .freeze 100 (.timing 5),
    e .freeze 0 .active, e .retire 0 .inert]

def guarded (e : GuardEntry) (s : State) : State := holding { plateOrder with state := .pending, guards := [e] } s

def watches (s : State) (ps : List Point) (p : Point) : Bool :=
  (entriesOn p).all fun e => soleCheck (guarded e s) ps h0 0 { plateOrder with state := .pending, guards := [e] } e

theorem soleGuard_of_watches {s : State} {ps : List Point} {p : Point} (h : watches s ps p = true) :
    ∀ e ∈ entriesOn p,
      SoleGuard (guarded e s) ps h0 0 { plateOrder with state := .pending, guards := [e] } e :=
  fun e he => soleGuard_of_check (List.all_eq_true.mp h e he)

/-- A feedback point VALID without a value, which no run reaches, and a STALE one: the lane starts at its rest aim. -/
theorem test_startValue :
    let s := running.setDirect 2 ⟨.valid, none, none⟩
    startValue s 2 0 ∧ startValue running 2 0 := by
  refine ⟨⟨2, by decide +kernel, .inr ⟨.inr (by decide +kernel), ?_⟩⟩,
    ⟨2, by decide +kernel, .inr ⟨.inl (by decide +kernel), ?_⟩⟩⟩ <;>
    (unfold clampedAim; decide +kernel)

/-- Guards on a wheel, a stroke and a pump point, on TILT, FLOW and DENS, on DEP, and on DRX and DRY. -/
theorem test_meets_SoleGuard :
    (∀ e ∈ entriesOn 0, SoleGuard (guarded e running) [0] h0 0 { plateOrder with state := .pending, guards := [e] } e) ∧
    (∀ e ∈ entriesOn 10, SoleGuard (guarded e pumping) [10] h0 0 { plateOrder with state := .pending, guards := [e] } e) ∧
    (watches running [3] 3 = true ∧ watches running [11, 12] 12 = true ∧ watches pumping [13] 13 = true ∧
      watches running [14] 14 = true ∧ watches running [16] 16 = true ∧ watches running [17, 18] 17 = true ∧
      watches running [16, 17, 18] 18 = true) :=
  ⟨soleGuard_of_watches (by decide +kernel), soleGuard_of_watches (by decide +kernel), by decide +kernel⟩

theorem test_violates : violates ⟨0, .requireAbove, 100, .retire, 0⟩ 100 ∧ ¬ violates ⟨0, .requireAbove, 100, .retire, 0⟩ 101 ∧
    violates ⟨0, .requireBelow, 100, .retire, 0⟩ 100 ∧ ¬ violates ⟨0, .requireBelow, 100, .retire, 0⟩ 99 := by
  unfold violates; decide

/-- The flags stand after a PMS reading and a FLOW reading that keep both released, and after a fault and an expiry that
keep both engaged; the lane whose feedback is the point is not DRIVEN; and the masked class of an evaluation. -/
theorem test_meets_GuardEvaluated :
    (interlocksStand (pumping.setDirect 10 ⟨.valid, some 300, none⟩) ∧
      interlocksStand (running.setDirect 10 ⟨.faulted, none, none⟩) ∧
      interlocksStand (setReadings .flow [120] (pumping.setModule .flow ⟨.valid, 0, 0, some 0, 5, 1000⟩)) ∧
      interlocksStand (running.setModule .flow ⟨.stale, 0, 0, none, 5, 1000⟩)) ∧
    (moduleValues .tilt = [0, 1] ∧ (moduleValues .tilt).map valuePoint = [11, 12] ∧ moduleValues .dens = [3] ∧
      valuePoint 3 = 14 ∧ ((1 : Fin 5), (7 : Int)) ∈ (moduleValues .tilt).zip [5, 7]) ∧
    (∀ a : Actuator, a.val = (10 : DirectPoint).val → (running.lane a).state ≠ .driven ∧ plateOrder.actuator ≠ a) ∧
    (let u := (governed plateOrder).updLane 2 fun l => { l with mask := l.mask.set .operator true };
      (u.lane 2).masked .operator = true ∧ (running.lane 2).masked .operator = false ∧ (u.lane 2).gov = some h0 ∧
        u.gateSettles = none) := by
  refine ⟨⟨?_, ?_, ?_, ?_⟩, by decide +kernel⟩ <;> exact interlocksStand_of_check (by decide +kernel)

theorem test_meets_StaleTimersAndTheirLimits :
    (let s := running.setModule .flow ⟨.valid, 0, 0, some 999, 5, 1000⟩;
      (s.module .flow).stale = some 999 ∧ 999 < (s.module .flow).staleLimit) ∧
    (let s := running.setModule .flow ⟨.valid, 0, 0, some 1000, 5, 1000⟩;
      (s.module .flow).stale = some 1000 ∧ (s.module .flow).staleLimit ≤ 1000) ∧
    (let s : State := { running with depth := ⟨some 0, .valid, some 4999, 5⟩ };
      s.depth.stale = some 4999 ∧ 4999 < 1000 * s.depth.staleLimit) ∧
    (let s : State := { running with depth := ⟨some 0, .valid, some 5000, 5⟩ };
      s.depth.stale = some 5000 ∧ 1000 * s.depth.staleLimit ≤ 5000) ∧
    (let s := settingUp.setModule .flow ⟨.valid, 3, 0, some 500, 5, 1000⟩;
      s.mode = .setup ∧ (s.module .flow).status ≠ .faulted ∧ 3 ≤ (s.module .flow).badCount ∧
        (s.module .flow).stale = some 500 ∧ (s.module .flow).badCount < 4) ∧
    (let s : State := { settingUp with depth := ⟨some 0, .valid, some 1000, 5⟩ };
      s.mode = .setup ∧ s.depth.stale = some 1000 ∧ 1000 * 1 ≤ 1000 ∧ 1000 < 1000 * 60) := by decide +kernel

/-- DEP has `p`, TILT is VALID with the readings given, and the drift estimate VALID. -/
def measured (p : Int) : State :=
  { (running.setModule .tilt ⟨.valid, 0, 0, some 0, 5, 1000⟩) with
    modValues := #v[some 10, some (-10), none, none, none]
    depth := ⟨some p, .valid, some 0, 5⟩
    drift := ⟨0, 0, .valid, 0, 0⟩ }

theorem test_meets_DepthNotesStepTheDriftEstimate :
    running.depth.value = none ∧
    (let s := measured 100;
      s.depth.value = some 100 ∧ 200 < ((301 : Int) - 100).natAbs ∧ ((300 : Int) - 100).natAbs ≤ 200 ∧
        (s.module .tilt).status = .valid ∧ s.drift.status = .valid ∧ s.modValue 0 = some 10 ∧
        s.modValue 1 = some (-10)) ∧
    ({ measured 100 with drift := ⟨0, 0, .stale, 0, 0⟩ } : State).drift.status ≠ .valid ∧
    ((measured 100).setModule .tilt ModuleState.reset).module .tilt ≠ ⟨.valid, 0, 0, some 0, 5, 1000⟩ := by
  decide +kernel

theorem test_meets_DepthNotesRunThePlan :
    let s := withEntry 100 200 .ahead running
    s.mode = .run ∧ (∀ i o, s.orderAt i = some o → o.guards = []) ∧
      (∀ e x h, s.entry s.active e = some x → x.state ≠ .live h) ∧
      (∀ e x, s.entry s.active e = some x → ((99 : Int) < x.depthFrom ∨ x.depthTo ≤ 99)) ∧
      (∀ e x, s.entry s.active e = some x → ((200 : Int) < x.depthFrom ∨ x.depthTo ≤ 200)) ∧
      s.entry s.active 0 = some ⟨100, 200, 2, 100, none, .ahead⟩ ∧
      (∀ e' y, e' ≠ 0 → s.entry s.active e' = some y → ((100 : Int) < y.depthFrom ∨ y.depthTo ≤ 100)) ∧
      (s.lane 2).state ≠ .down ∧ inRange ((s.lane 2).lo, (s.lane 2).hi) 100 = true ∧
      s.findOrder 2 .plan = none ∧ s.freeSlot? = some 0 ∧ LaneLaw s := by
  have orders : ∀ i o, (withEntry 100 200 .ahead running).orderAt i = some o → (o.guards = [] : Bool) = true :=
    allOrders_of_check (p := fun _ o => o.guards = []) (by decide +kernel)
  have entries : ∀ e x, (withEntry 100 200 .ahead running).entry 0 e = some x →
      (e = 0 ∧ x.state = .ahead ∧ x.depthFrom = 100 ∧ x.depthTo = 200 : Bool) = true :=
    allEntries_of_check (p := fun e x => e = 0 ∧ x.state = .ahead ∧ x.depthFrom = 100 ∧ x.depthTo = 200)
      (by decide +kernel)
  simp only [decide_eq_true_eq] at orders entries
  refine ⟨by decide +kernel, orders, fun e x h hx => ?_, fun e x hx => ?_, fun e x hx => ?_, by decide +kernel,
    fun e y ne hy => absurd (entries e y hy).1 ne, by decide +kernel, by decide +kernel, by decide +kernel,
    by decide +kernel, laneLaw_of_check (by decide +kernel)⟩
  · rw [(entries e x hx).2.1]
    exact fun h => by cases h
  · rw [(entries e x hx).2.2.1, (entries e x hx).2.2.2]
    decide
  · rw [(entries e x hx).2.2.1, (entries e x hx).2.2.2]
    decide

theorem oneEntry {s : State} {x : PlanEntry}
    (h : (allEntries.all fun e => (s.entry s.active e).all fun y => y = x) = true) :
    ∀ e y, s.entry s.active e = some y → y = x := fun e y hy => by
  simpa using allEntries_of_check (p := fun _ y => y = x) h e y hy

/-- A CLEARED, a SKIPPED and a LIVE entry with the depth in its band, at both ends. -/
theorem test_meets_DepthNotesKeepEntriesInBand :
    ∀ st ∈ [EntryState.cleared, .skipped, .live h0], ∀ d ∈ [(100 : Int), 199],
      let s := withEntry 100 200 st (governed planOrder)
      s.mode = .run ∧ (∀ i o, s.orderAt i = some o → o.guards = []) ∧
      (∀ e x h, s.entry s.active e = some x → (d < x.depthFrom ∨ x.depthTo ≤ d) → x.state ≠ .live h) ∧
      (∀ e x, s.entry s.active e = some x → x.depthFrom ≤ d → d < x.depthTo → x.state ≠ .ahead ∧ x.state ≠ .passed) ∧
      s.entry s.active 0 = some ⟨100, 200, 2, 100, none, st⟩ := by
  intro st hst d hd
  have one : ∀ e y, (withEntry 100 200 st (governed planOrder)).entry 0 e = some y → y = ⟨100, 200, 2, 100, none, st⟩ := by
    simp only [List.mem_cons, List.not_mem_nil, or_false] at hst
    rcases hst with rfl | rfl | rfl <;> exact oneEntry (by decide +kernel)
  have orders : ∀ i o, (withEntry 100 200 st (governed planOrder)).orderAt i = some o → (o.guards = [] : Bool) = true :=
    allOrders_of_check (p := fun _ o => o.guards = []) (by
      simp only [List.mem_cons, List.not_mem_nil, or_false] at hst
      rcases hst with rfl | rfl | rfl <;> decide +kernel)
  refine ⟨rfl, by simpa using orders, fun e x h hx out => ?_, fun e x hx _ _ => ?_, ?_⟩
  · rw [one e x hx] at out
    simp only [List.mem_cons, List.not_mem_nil, or_false] at hd
    rcases hd with rfl | rfl <;> exact absurd out (by simp)
  · rw [one e x hx]
    simp only [List.mem_cons, List.not_mem_nil, or_false] at hst
    rcases hst with rfl | rfl | rfl <;> exact ⟨nofun, nofun⟩
  · simp only [List.mem_cons, List.not_mem_nil, or_false] at hst
    rcases hst with rfl | rfl | rfl <;> decide +kernel

/-- An entry in band alone that cannot spawn, for each reason, and a LIVE entry that leaves its band on either side. -/
theorem test_meets_DepthNotesSkipAndRetire :
    (let s := withEntry 100 200 .ahead downed;
      s.entry s.active 0 = some ⟨100, 200, 2, 100, none, .ahead⟩ ∧ (s.lane 2).state = .down ∧ s.mode = .run ∧
        ∀ e : EntryIx, e ≠ 0 → s.entry s.active e = none) ∧
    (let s := withEntry 100 200 .passed (running.updLane 2 fun l => { l with hi := 99 });
      (s.lane 2).state ≠ .down ∧ inRange ((s.lane 2).lo, (s.lane 2).hi) 100 = false) ∧
    (let s := withEntry 100 200 .ahead (full running);
      inRange ((s.lane 2).lo, (s.lane 2).hi) 100 = true ∧ s.freeSlot? = none ∧ s.noticeCount < 16) ∧
    (planned.entry planned.active 0 = some ⟨100, 200, 2, 100, none, .live h0⟩ ∧ planned.order? h0 = some planOrder ∧
      (99 : Int) < 100 ∧ planned.noticeCount < 16 ∧ ∀ e : EntryIx, e ≠ 0 → planned.entry planned.active e = none) := by
  decide +kernel

theorem test_meets_TheDriftEstimateChangesAtNotesAndSeedsAlone :
    (Origin.verticality ≠ .plant ∧ (-32767 : Int) ≤ 32767) ∧
      (noRequestIn (measured 0).rx [0x7E, 0, 5] ∧ execsOn (.badFrame [0x7E, 0, 5]) (measured 0) = true) ∧
      execsOn (.restart (op [])) (measured 0) = true ∧
      (let d := (measured 0).drift;
        d.x.natAbs ≤ 32767 ∧ d.y.natAbs ≤ 32767 ∧ d.remX.natAbs ≤ 999 ∧ d.remY.natAbs ≤ 999 ∧ d.status ≠ .faulted) :=
  ⟨by decide +kernel, ⟨trivial, by decide +kernel⟩, by decide +kernel⟩

theorem test_meets_PutEntryWritesTheShadowBankUnlessItOverlaps :
    inRange ((running.lane 2).lo, (running.lane 2).hi) 200 = true ∧ (50 : Nat) ≤ maxRamp 2 ∧ (2 : Actuator).val < 10 ∧
    (∀ e, running.entry running.shadow e = none) ∧
    (let s : State := { withEntry 100 200 .dormant running with active := 1 };
      s.entry s.shadow 0 = some ⟨100, 200, 2, 100, none, .dormant⟩ ∧ (0 : EntryIx) ≠ 3 ∧ (199 : Int) < 200 ∧
        ∀ e : EntryIx, ¬ e < 0) := by decide +kernel

theorem test_meets_DropEntryAndClearShadowEmptyTheShadowBank :
    (op [0, 0]).body.length ≠ 1 ∧ (op [24]).body = [24] ∧ 24 ≤ (24 : Byte).toNat ∧
      (op [23]).body = putByte (23 : EntryIx).val ∧ (op [0]).body ≠ [] ∧ (op []).body = [] ∧
      Origin.plant ≠ .operator := by decide +kernel

theorem test_meets_SwapExchangesTheBanks :
    settingUp.mode = .setup ∧ planned.mode = .run ∧
    (planned.entry planned.active 0 = some ⟨100, 200, 2, 100, none, .live h0⟩ ∧ planned.order? h0 = some planOrder ∧
      (∀ e : EntryIx, ¬ e < 0) ∧ (∀ e, planned.entry planned.shadow e = none)) ∧
    (∀ i o, planned.orderAt i = some o →
      o.planEntry = some (planned.active, 0) ∧
        planned.entry planned.active 0 = some ⟨100, 200, 2, 100, none, .live (planned.handleAt i)⟩) ∧
    (let s : State := { withEntry 100 200 .dormant running with active := 1, depth := ⟨some 99, .valid, some 0, 5⟩ };
      s.entry s.shadow 0 = some ⟨100, 200, 2, 100, none, .dormant⟩ ∧ s.depth.value = some 99) ∧
    (let o := { planOrder with actuator := 3, planEntry := some (0, 5) };
      let s := (planned.setSlot 1 ⟨0, some o⟩).setEntry 0 5 (some ⟨100, 200, 3, 100, none, .live ⟨1, 0⟩⟩);
      s.entry s.active 5 = some ⟨100, 200, 3, 100, none, .live ⟨1, 0⟩⟩ ∧ s.order? ⟨1, 0⟩ = some o ∧ s.liveEntries = 2 ∧
        s.noticeCount + s.liveEntries ≤ 16 ∧ s.travel ≠ .complete ∧
        allSlots.all (fun i => (s.orderAt i).all fun p => p.state ≠ .waiting) = true) := by
  refine ⟨by decide +kernel, by decide +kernel, by decide +kernel, fun i o h => ?_, by decide +kernel⟩
  have := allOrders_of_check (p := fun i o => decide (o.planEntry = some (planned.active, 0)) &&
    decide (planned.entry planned.active 0 = some ⟨100, 200, 2, 100, none, .live (planned.handleAt i)⟩))
    (by decide +kernel) i o h
  simpa using this

theorem test_meets_AFaultReportMovesTheActuatorOrTakesItDown :
    MapLaw running ∧ settingUp.mode = .setup ∧ ((running.setChan 2 ⟨some .openLoad, .order, 0, 0⟩).chan 2).fault ≠ none ∧
    (∀ a, (running.mapAt a).assigned ≠ some 17) ∧
    (running.mode = .run ∧ (running.chan 2).fault = none ∧ (running.mapAt 2).assigned = some 2 ∧
      (running.mapAt 2).frozen = false ∧ (running.mapAt 2).spare = some 12 ∧ (running.chan 12).fault = none ∧
      ∀ b, (running.mapAt b).assigned ≠ some 12) ∧
    ((running.setMap 2 ⟨some 2, some 12, true⟩).mapAt 2).frozen = true ∧
    ((running.setMap 2 ⟨some 2, none, false⟩).mapAt 2).spare = none ∧
    ((running.setMap 2 ⟨some 2, some 3, false⟩).mapAt 2).spare = some 3 ∧ (running.mapAt 3).assigned = some 3 ∧
    running.noticeCount < 16 :=
  ⟨test_mapLaw_running, by decide +kernel⟩

/-- An actuator that goes DOWN with an order and its dependent, with a PLAN order, and the GATE. -/
theorem test_meets_ADownActuatorLosesItsOrders :
    (let s := (chained.setMap 2 ⟨some 2, none, false⟩).setSlot 7 ⟨0, some { plateOrder with actuator := 6 }⟩;
      mapCheck s = true ∧ s.mode = .run ∧ (s.chan 2).fault = none ∧ (s.mapAt 2).assigned = some 2 ∧
        (s.mapAt 2).spare = none ∧ s.orderAt 0 = some plateOrder ∧ plateOrder.actuator = 2 ∧ (∀ j : Slot, ¬ j < 0) ∧
        s.noticeCount + 2 ≤ 16 ∧ s.goesWith (s.handleAt 0) 0 = true ∧ s.goesWith (s.handleAt 0) 1 = true ∧
        s.goesWith (s.handleAt 0) 2 = true ∧ s.goesWith (s.handleAt 0) 7 = false ∧
        allSlots.all (fun j => (s.orderAt j).all fun o => o.actuator ≠ 2 || j = 0) = true) ∧
    (let s := planned.setMap 2 ⟨some 2, none, true⟩;
      mapCheck s = true ∧ s.mode = .run ∧ (s.mapAt 2).frozen = true ∧ s.goesWith h0 0 = true ∧
        s.orderAt 0 = some planOrder ∧ planOrder.planEntry = some (0, 0) ∧
        s.entry 0 0 = some ⟨100, 200, 2, 100, none, .live h0⟩) ∧
    (let s := gateDriven.setMap gate ⟨some 14, none, false⟩;
      mapCheck s = true ∧ s.mode = .run ∧ (s.chan 14).fault = none ∧ (s.mapAt gate).assigned = some 14 ∧
        s.orderAt 0 = some gateOrder ∧ s.travel ≠ .cleared) := by decide +kernel

theorem test_meets_MapAssignsMovesOrBringsBack :
    kindsMatch 2 12 = true ∧ (running.chan 12).fault = none ∧ (∀ b, (running.mapAt b).assigned = some 12 → b = 2) ∧
      (running.mapAt 2).assigned = some 2 ∧ (∀ b, (running.mapAt b).assigned = some 2 → b = 2) ∧
      settingUp.mode = .setup ∧ (running.lane 2).state ≠ .down ∧
      (downed.lane 2).state = .down ∧ (downed.mapAt 2).assigned = none ∧
      (∀ b, (downed.mapAt b).assigned = some 12 → b = 2) ∧ commandCheck downed = true := by decide +kernel

theorem test_meets_MapSettingsAndFaultsAreStored : kindsMatch 2 13 = true ∧ kindsMatch 11 17 = true := by decide

theorem test_meets_LocalDutyRequestsMoveTheOutput :
    (isDiscrete 14 = true ∧ (1000 : Nat) ≤ 1000) ∧ (running.chan 2).mode ≠ .localDuty ∧
    (let s := settingUp.setChan 2 ⟨none, .localDuty, 300, 300⟩;
      (s.chan 2).mode = .localDuty ∧ s.mode = .setup) ∧
    (let s := running.setChan 17 ⟨none, .localDuty, 1000, 1000⟩;
      (s.chan 17).mode = .localDuty ∧ ∀ a, (s.mapAt a).assigned ≠ some 17) ∧
    (let s := running.setChan 2 ⟨none, .localDuty, 300, 300⟩;
      (s.chan 2).mode = .localDuty ∧ s.mode = .run ∧ mapCheck s = true ∧ (s.mapAt 2).assigned = some 2 ∧
        (s.lane 2).command = some 0) := by decide +kernel

theorem test_meets_TemplatesAndBindingsAreStored :
    templateFits running { template0 with ramp := some 50, lease := some 3600, guards := [⟨18, .requireBelow, 32767, .freeze, 10000⟩] } ∧
    (∀ w a, running.binding w a ≠ some 4) ∧
    (let s := (withTemplate running).setBinding .halt 2 (some 4);
      s.binding .halt 2 = some 4 ∧ s.template 4 = some template0 ∧ template0.actuator ≠ 3) := by
  refine ⟨⟨by decide +kernel, ?_, fun n h => ?_, fun n h => ?_, by decide +kernel, ?_⟩, fun w => ?_, by decide +kernel⟩
  · unfold fits16; decide +kernel
  · cases h
    decide
  · cases h
    decide
  · intro g hg
    cases List.mem_singleton.mp hg
    decide +kernel
  · cases w <;> decide +kernel

theorem test_meets_HaltIssuesTheBoundTemplate :
    (let s := (withTemplate running).setBinding .halt 2 (some 4);
      s.mode = .run ∧ s.binding .halt 2 = some 4 ∧ (∀ b, b ≠ 2 → s.binding .halt b = none) ∧
        s.template 4 = some template0 ∧ (s.lane 2).state ≠ .down ∧ s.findOrder 2 .guard = none ∧
        s.freeSlot? = some 0 ∧ template0.guards = [] ∧ inRange ((s.lane 2).lo, (s.lane 2).hi) 100 = true ∧
        laneCheck s = true ∧ (s.mapAt 2).assigned = some 2) ∧
    (let s := (withTemplate (full running)).setBinding .halt 2 (some 4);
      s.freeSlot? = none ∧ s.findOrder 2 .guard = none) ∧
    inRange ((running.lane 2).lo, (running.lane 2).hi) 201 = false ∧
    (let s := (withTemplate downed).setBinding .halt 2 (some 4);
      (s.lane 2).state = .down ∧ s.binding .halt 2 = some 4 ∧ (s.mapAt 2).assigned = none) := by decide +kernel

theorem test_meets_StartTakesThePartIntoRun :
    settingUp.mode = .setup ∧ SetupLaw settingUp ∧ MapLaw settingUp ∧ CommandLaw settingUp ∧
      (∀ a, ∃ c, (settingUp.mapAt a).assigned = some c ∧ (settingUp.chan c).fault = none) ∧
      (∀ e, settingUp.entry settingUp.active e = none) :=
  ⟨rfl, setupLaw_of_check (by decide +kernel), mapLaw_of_check (by decide +kernel),
    commandLaw_of_check (by decide +kernel), by decide +kernel, by decide +kernel⟩

/-- In SETUP, the channel of actuator 2 faulted, and its spare `sp`. -/
def broken (sp : Option Chan) : State :=
  (settingUp.setChan 2 ⟨some .openLoad, .localDuty, 300, 300⟩).setMap 2 ⟨some 2, sp, false⟩

def usable (s : State) (a : Actuator) : Prop := ∃ c, (s.mapAt a).assigned = some c ∧ (s.chan c).fault = none

def startable (s : State) : Bool := s.mode = .setup && setupCheck s && mapCheck s && commandCheck s

theorem laws_of_startable {s : State} (h : startable s = true) :
    s.mode = .setup ∧ SetupLaw s ∧ MapLaw s ∧ CommandLaw s := by
  simp only [startable, Bool.and_eq_true, decide_eq_true_eq] at h
  exact ⟨h.1.1.1, setupLaw_of_check h.1.1.2, mapLaw_of_check h.1.2, commandLaw_of_check h.2⟩

/-- START with actuator 2 to move to its spare 12; to be left DOWN for want of a spare, for its frozen map and for a
spare in use; and with no channel assigned. -/
theorem test_meets_StartMovesOrTakesDown :
    (∀ sp ∈ [some 12, none], let s := broken sp; (s.mode = .setup ∧ SetupLaw s ∧ MapLaw s ∧ CommandLaw s) ∧
      ¬ usable s 2 ∧ (∀ b, b ≠ 2 → usable s b) ∧ ∀ e, s.entry s.active e = none) ∧
    (let s := broken (some 12);
      (s.mapAt 2).frozen = false ∧ (s.mapAt 2).spare = some 12 ∧ (s.chan 12).fault = none ∧
        (∀ b, (s.mapAt b).assigned ≠ some 12) ∧ (s.mapAt 2).assigned = some 2) ∧
    (((broken none).mapAt 2).spare = none ∧ ((settingUp.setMap 2 ⟨some 2, none, true⟩).mapAt 2).frozen = true ∧
      ((broken (some 3)).mapAt 2).spare = some 3 ∧ ((broken (some 3)).mapAt 3).assigned = some 3) ∧
    (let s := settingUp.setMap 2 ⟨none, some 12, false⟩;
      (s.mapAt 2).assigned = none ∧ startable s = true ∧ ∀ c, (s.chan c).output = s.outputOf c) := by
  refine ⟨fun sp h => ?_, by decide +kernel⟩
  simp only [List.mem_cons, List.not_mem_nil, or_false] at h
  rcases h with rfl | rfl <;>
    exact ⟨laws_of_startable (by decide +kernel), by unfold usable; decide +kernel, by unfold usable; decide +kernel,
      by decide +kernel⟩

/-- START with the plan's one entry, on actuator 2: the depth unknown; in band, its target within the limits and beyond
them; and its actuator left DOWN. -/
theorem test_meets_StartEvaluatesThePlan :
    (let s := withEntry 100 200 .dormant settingUp;
      startable s = true ∧ s.depth.value = none ∧ s.entry s.active 0 = some ⟨100, 200, 2, 100, none, .dormant⟩) ∧
    (let s : State := { withEntry 100 200 .dormant settingUp with depth := ⟨some 100, .valid, some 0, 5⟩ };
      startable s = true ∧ s.depth.value = some 100 ∧ (∀ e : EntryIx, e ≠ 0 → s.entry s.active e = none) ∧
        inRange ((s.lane 2).lo, (s.lane 2).hi) 100 = true ∧ s.handleAt 0 = ⟨0, 0⟩) ∧
    (let s := (withEntry 100 200 .dormant settingUp).updLane 2 fun l => { l with hi := 99 };
      startable s = true ∧ inRange ((s.lane 2).lo, (s.lane 2).hi) 100 = false ∧ s.noticeCount < 16) ∧
    (∀ c, ((withEntry 100 200 .dormant settingUp).lane 2).orderSet.get c = none) ∧
    (let s := withEntry 100 200 .dormant (broken none);
      startable s = true ∧ (s.mapAt 2).spare = none ∧ s.noticeCount + 2 ≤ 16) := by
  refine ⟨by decide +kernel, by decide +kernel, by decide +kernel, fun c => ?_, by decide +kernel⟩
  cases c <;> decide +kernel

theorem test_meets_RestartReturnsThePartToSetup :
    running.mode = .run ∧ running.orderAt 0 = none ∧ (governed plateOrder).orderAt 0 = some plateOrder := by
  decide +kernel

/-- A state in which every law holds, with a governing order, its LIVE entry, a binding and a command waiting. -/
def busy : State :=
  { (withTemplate planned).setBinding .fallback 2 (some 4) with
    depth := ⟨some 150, .valid, some 0, 5⟩, pending := [.withdraw (op body0)] }

theorem test_meets_the_invariants :
    (∃ t, step busy = .next t) ∧ SetupLaw busy ∧ PositionLaw busy ∧ LaneLaw busy ∧ MapLaw busy ∧ DriveLaw busy ∧
      OutputLaw busy ∧ NoticeLaw busy ∧ BandLaw busy ∧ GuardLaw busy ∧ CommandLaw busy ∧ RankLaw busy ∧ GateLaw busy ∧
      PlanLaw busy ∧ BindLaw busy := by
  refine ⟨exists_of_stepsOn (by decide +kernel), setupLaw_of_check (by decide +kernel),
    positionLaw_of_check (by decide +kernel), laneLaw_of_check (by decide +kernel), mapLaw_of_check (by decide +kernel),
    driveLaw_of_check (by decide +kernel), ?_, ?_, bandLaw_of_check (by decide +kernel),
    guardLaw_of_check (by decide +kernel), commandLaw_of_check (by decide +kernel), rankLaw_of_check (by decide +kernel),
    gateLaw_of_check (by decide +kernel), planLaw_of_check (by decide +kernel), bindLaw_of_check (by decide +kernel)⟩
  · unfold OutputLaw; decide +kernel
  · unfold NoticeLaw; decide +kernel

end Sys2Proof.Tests
end

section
/-! The bytes of a request body read back: fields, codes and handles, and the bodies of PLACE, ISSUE, AMEND, RENEW and
WITHDRAW. -/

namespace Sys2Proof.Machine

/-! ### Fields -/

theorem toNat_byte {n : Nat} (h : n < 256) : (BitVec.ofNat 8 n).toNat = n := by
  simp only [BitVec.toNat_ofNat]; omega

theorem u16_bytes {n : Nat} (h : n < 65536) : u16 (BitVec.ofNat 8 (n / 256)) (BitVec.ofNat 8 n) = n := by
  simp only [u16, BitVec.toNat_ofNat]; omega

theorem s16_bytes {i : Int} (h : fits16 i) :
    s16 (BitVec.ofNat 8 ((i % 65536).toNat / 256)) (BitVec.ofNat 8 (i % 65536).toNat) = i := by
  unfold fits16 at h
  unfold s16
  rw [u16_bytes (by omega)]
  split <;> omega

theorem completion?_code (c : Completion) : completion? (BitVec.ofNat 8 c.code) = some c := by cases c <;> rfl

theorem relation?_code (r : Relation) : relation? (BitVec.ofNat 8 r.code) = some r := by cases r <;> rfl

theorem guardAction?_code (a : GuardAction) : guardAction? (BitVec.ofNat 8 a.code) = some a := by cases a <;> rfl

theorem cls?_code (c : Cls) : cls? (BitVec.ofNat 8 c.code) = some c := by cases c <;> rfl

/-- The byte of a flag. -/
def flagByte (b : Bool) : Byte := if b then 1 else 0

theorem putFlag_eq (b : Bool) : putFlag b = [flagByte b] := by cases b <;> rfl

theorem flag?_flagByte (b : Bool) : flag? (flagByte b) = some b := by cases b <;> rfl

/-! ### Bodies -/

theorem formGuards_bytes : ∀ gs : List GuardForm, (∀ g ∈ gs, guardFits g) →
    formGuards gs.length (gs.flatMap guardBytes) = some gs
  | [], _ => rfl
  | g :: gs, fits => by
    obtain ⟨hp, ht, hd⟩ := fits g (by simp)
    have ih := formGuards_bytes gs fun q hq => fits q (List.mem_cons_of_mem g hq)
    simp [guardBytes, putByte, putS16, putU16, formGuards, relation?_code, guardAction?_code, ih, s16_bytes ht,
      u16_bytes hd, Nat.mod_eq_of_lt hp]

theorem formPlace_placeBody (f : PlaceForm) (fits : placeFits f) : formPlace (placeBody f) = some f := by
  obtain ⟨ha, ht, hr, hp, hl, hn, hg⟩ := fits
  have guards := formGuards_bytes f.guards hg
  simp [placeBody, handleBytes, putByte, putS16, putU16, putFlag_eq, formPlace, completion?_code, flag?_flagByte,
    s16_bytes ht, u16_bytes hr, u16_bytes hl]
  rw [Nat.mod_eq_of_lt (by omega : f.guards.length < 256), Nat.mod_eq_of_lt ha, Nat.mod_eq_of_lt hp, guards]
  exact ⟨hn, rfl⟩

theorem formIssue_issueBody (f : IssueForm) (hi : f.index < 256) (hp : f.prereq.slot < 256)
    (ht : fits16 (f.target.getD 0)) : formIssue (issueBody f) = some f := by
  simp [issueBody, handleBytes, putByte, putS16, putU16, putFlag_eq, formIssue, flag?_flagByte, s16_bytes ht,
    Nat.mod_eq_of_lt hi, Nat.mod_eq_of_lt hp]
  cases f with
  | mk index target prereq => cases target <;> simp

theorem formAmend_amendBody (f : AmendForm) (fits : amendFits f) : formAmend (amendBody f) = some f := by
  obtain ⟨hs, ht, hr, hl, some_given⟩ := fits
  obtain ⟨⟨slot, gen⟩, target, ramp, lease⟩ := f
  have slot_byte := Nat.mod_eq_of_lt hs
  cases target <;> cases ramp <;> cases lease <;>
    simp_all [amendBody, handleBytes, putByte, putS16, putU16, formAmend] <;>
    simp_all [s16_bytes, u16_bytes]

theorem formHandle_putHandle (h : Handle) : formHandle (putHandle (some h)) = some ⟨h.slot.val, h.gen⟩ := by
  simp [putHandle, formHandle, Nat.mod_eq_of_lt (by omega : h.slot.val < 256)]

theorem formRenew_bytes (h : Handle) {n : Nat} (hn : n < 65536) :
    formRenew (putHandle (some h) ++ putU16 n) = some (⟨h.slot.val, h.gen⟩, n) := by
  simp [putHandle, putU16, formRenew, u16_bytes hn, Nat.mod_eq_of_lt (by omega : h.slot.val < 256)]

/-! ### Field checks -/

@[simp] theorem actuatorField_val (a : Actuator) : actuatorField a.val = .ok a := by simp [actuatorField]
@[simp] theorem chanField_val (c : Chan) : chanField c.val = .ok c := by simp [chanField]
@[simp] theorem slotField_val (i : Slot) : slotField i.val = .ok i := by simp [slotField]
@[simp] theorem entryField_val (e : EntryIx) : entryField e.val = .ok e := by simp [entryField]
@[simp] theorem templateField_val (t : TemplateIx) : templateField t.val = .ok t := by simp [templateField]
@[simp] theorem pointField_val (p : Point) : pointField p.val = .ok p := by simp [pointField]

@[simp] theorem handleField_handle (h : Handle) : handleField ⟨h.slot.val, h.gen⟩ = .ok h := by
  simp only [handleField, slotField_val]; rfl

@[simp] theorem require_true (c : Code) : require true c = .ok () := rfl
@[simp] theorem require_false (c : Code) : require false c = .error c := rfl

/-- Settles O7: the bytes of each field and of each guard record are read as the field they were laid out from. -/
theorem placeBodyReadsBack : Obligations.PlaceBodyReadsBack := formPlace_placeBody

end Sys2Proof.Machine
end

section
/-! The course of a request: the frame received, the five steps of R170 passed, the answer queued; and the first
requests settled by it. -/

namespace Sys2Proof.Machine

/-! ### The frame received -/

@[simp] theorem received_leaves (s : State) :
    (received s).mode = s.mode ∧ (received s).slots = s.slots ∧ (received s).lanes = s.lanes ∧
    (received s).travel = s.travel ∧ (received s).interlocks = s.interlocks ∧ (received s).banks = s.banks ∧
    (received s).active = s.active ∧ (received s).txQueue = s.txQueue ∧ (received s).noticesLost = s.noticesLost ∧
    (received s).depth = s.depth ∧ (received s).map = s.map ∧ (received s).chans = s.chans ∧
    (received s).templates = s.templates ∧
    (∀ i, (received s).slot i = s.slot i) ∧ (∀ i, (received s).orderAt i = s.orderAt i) ∧
    (∀ i, (received s).handleAt i = s.handleAt i) ∧ (∀ h, (received s).order? h = s.order? h) ∧
    (∀ a, (received s).lane a = s.lane a) ∧ (∀ b e, (received s).entry b e = s.entry b e) ∧
    (∀ x, (received s).template x = s.template x) ∧ (∀ a c, (received s).findOrder a c = s.findOrder a c) ∧
    (received s).freeSlot? = s.freeSlot? ∧ (∀ i h, (received s).waitsOn i h = s.waitsOn i h) ∧
    (received s).gateSettles = s.gateSettles ∧ (received s).noticeCount = s.noticeCount := by
  and_intros <;> intros <;> rfl

theorem takeValidFrame_eq (s : State) : takeValidFrame s = received s := rfl

/-- A request of a body a frame can carry is answered with what its block says of the state the frame leaves. -/
theorem request_eq {kind : Byte} {r : Req} {s : State} {block : State → Reply} (h : r.body.length ≤ 120) :
    request kind r s block =
      .next (answered kind r (block (received s)).code (block (received s)).body (block (received s)).st) := by
  unfold request; rw [if_pos h]; rfl

/-! ### The five steps of R170, passed and failed -/

theorem inRun_run {s : State} (h : s.mode = .run) (k : Reply) : inRun s k = k := by simp [inRun, h]

theorem inRun_setup {s : State} (h : s.mode = .setup) (k : Reply) : inRun s k = refuse s .notRunning := by
  simp [inRun, h]

@[simp] theorem admitting_true (s : State) (k : Reply) : admitting true s k = k := rfl
@[simp] theorem formed_some {α : Type} (x : α) (s : State) (k : α → Reply) : formed (some x) s k = k x := rfl
@[simp] theorem formed_none {α : Type} (s : State) (k : α → Reply) : formed none s k = refuse s .badField := rfl
@[simp] theorem checked_ok {α : Type} (x : α) (s : State) (k : α → Reply) : checked (.ok x) s k = k x := rfl
@[simp] theorem checked_error {α : Type} (c : Code) (s : State) (k : α → Reply) :
    checked (.error c) s k = refuse s c := rfl

theorem reached_some {h : Handle} {s : State} {o : Order} (e : s.order? h = some o) (k : Order → Reply) :
    reached h s k = k o := by simp [reached, e]

theorem reached_none {h : Handle} {s : State} (e : s.order? h = none) (k : Order → Reply) :
    reached h s k = refuse s .staleHandle := by simp [reached, e]

@[simp] theorem refuse_parts (s : State) (c : Code) :
    (refuse s c).st = s ∧ (refuse s c).code = c ∧ (refuse s c).body = [] := ⟨rfl, rfl, rfl⟩

@[simp] theorem done_parts (s : State) (b : List Byte) :
    (done s b).st = s ∧ (done s b).code = .done ∧ (done s b).body = b := ⟨rfl, rfl, rfl⟩

theorem leaseField_le {n : Nat} (h : n ≤ 3600) : leaseField n = .ok (if n = 0 then none else some n) := by
  unfold leaseField; split <;> simp_all

theorem putU16_length (n : Nat) : (putU16 n).length = 2 := rfl
theorem putHandle_length (h : Option Handle) : (putHandle h).length = 2 := by cases h <;> rfl

/-- Writing the record of the order a handle reaches. -/
theorem updOrder_eq {s : State} {h : Handle} {o : Order} (e : s.order? h = some o) (f : Order → Order) :
    s.updOrder h.slot f = s.setSlot h.slot ⟨h.gen, some (f o)⟩ := by
  obtain ⟨hh, ho⟩ := order?_eq_some e
  have gen : (s.slot h.slot).gen = h.gen := congrArg Handle.gen hh
  simp [State.updOrder, ho, gen]

/-! ### The first statements -/

/-- Settles O14: `order?` compares the generations and then reads the slot. -/
theorem aHandleReachesOnlyItsOwnOrder : Obligations.AHandleReachesOnlyItsOwnOrder := by
  intro s h o
  unfold State.order? State.orderAt
  split <;> simp [*]

/-- Settles O52: each law's check, computed on the state at reset. -/
theorem lawsHoldAtReset : Obligations.LawsHoldAtReset :=
  ⟨setupLaw_of_check (by decide +kernel), positionLaw_of_check (by decide +kernel),
    laneLaw_of_check (by decide +kernel), mapLaw_of_check (by decide +kernel), driveLaw_of_check (by decide +kernel),
    by unfold OutputLaw; decide +kernel, by unfold NoticeLaw; decide +kernel, bandLaw_of_check (by decide +kernel),
    guardLaw_of_check (by decide +kernel), commandLaw_of_check (by decide +kernel), rankLaw_of_check (by decide +kernel),
    gateLaw_of_check (by decide +kernel), planLaw_of_check (by decide +kernel), bindLaw_of_check (by decide +kernel)⟩

theorem reset_lanes : ∀ a : Actuator, (State.reset.lane a).state = .off ∧ (State.reset.lane a).gov = none ∧
    (∀ c, (State.reset.lane a).orderSet.get c = none) ∧
    (State.reset.lane a).precedence = defaultPrecedence a ∧ (∀ c, (State.reset.lane a).mask.get c = false) ∧
    (State.reset.lane a).yield = false ∧ (State.reset.lane a).maskHold = false ∧
    (State.reset.lane a).guardHold = false ∧ (State.reset.lane a).command = none ∧
    (State.reset.lane a).interval = none ∧ (State.reset.lane a).detector = .idle ∧
    ((State.reset.lane a).lo, (State.reset.lane a).hi) = fullRange a ∧
    (a.val < 2 → (State.reset.lane a).band = 5 ∧ (State.reset.lane a).dwell = 500) ∧
    (2 ≤ a.val → a.val < 10 → (State.reset.lane a).band = 2 ∧ (State.reset.lane a).dwell = 300) ∧
    (a.val = 10 → (State.reset.lane a).band = 20 ∧ (State.reset.lane a).dwell = 1000) := by
  intro a
  have classes : ∀ p : Cls → Prop, (∀ c, p c) ↔ p .guard ∧ p .operator ∧ p .verticality ∧ p .plan ∧ p .plant :=
    fun p => ⟨fun h => ⟨h _, h _, h _, h _, h _⟩, fun ⟨h1, h2, h3, h4, h5⟩ c => by cases c <;> assumption⟩
  simp only [classes]
  revert a
  decide +kernel

/-- Settles O4: POWER_ON writes the reset state, of which every table is a list of literals. -/
theorem powerOnGivesEveryBlockItsPowerOnValues : Obligations.PowerOnGivesEveryBlockItsPowerOnValues := by
  intro s
  have modules : ∀ m, State.reset.module m = ⟨.stale, 0, 0, none, 5, 1000⟩ := by intro m; cases m <;> rfl
  have bindings : ∀ w a, State.reset.binding w a = none := by intro w; cases w <;> decide +kernel
  refine ⟨_, rfl, rfl, ?slots, reset_lanes, rfl, rfl, ?interlocks, ?direct, modules, ?values, rfl, rfl, ?entries, rfl,
    ?chans, ?map, ?cals, ?templates, bindings, rfl, rfl, rfl, rfl⟩
  case slots => show ∀ i, State.reset.slot i = _; decide +kernel
  case interlocks => show ∀ w, State.reset.interlock w = _; decide +kernel
  case direct => show ∀ p, State.reset.directAt p = _; decide +kernel
  case values => show ∀ k, State.reset.modValue k = _; decide +kernel
  case entries => show ∀ b e, State.reset.entry b e = _; decide +kernel
  case chans => show ∀ c, State.reset.chan c = _; decide +kernel
  case map => show ∀ a, State.reset.mapAt a = _; decide +kernel
  case cals => show ∀ a, a ≠ gate → State.reset.cal a = _; decide +kernel
  case templates => show ∀ x, State.reset.template x = _; decide +kernel

/-- An accepted RENEW. -/
theorem execRenew_eq {n : Nat} {h : Handle} {o : Order} {g : Origin} {tag : Word} {s : State} (hn : n ≤ 3600)
    (run : s.mode = .run) (live : s.order? h = some o) (own : o.cls = classOf g) :
    exec (.renew ⟨g, tag, putHandle (some h) ++ putU16 n⟩) s =
      .next (answered 0x13 ⟨g, tag, putHandle (some h) ++ putU16 n⟩ .done (putLease (renewed n o.lease))
        ((received s).setSlot h.slot ⟨h.gen, some { o with lease := renewed n o.lease }⟩)) := by
  have field : checkRenew (⟨h.slot.val, h.gen⟩, n) = .ok h := by
    simp only [checkRenew, handleField_handle, leaseField_le hn]; rfl
  show execRenew _ s = _
  unfold execRenew
  rw [request_eq (by simp [putHandle_length, putU16_length])]
  simp only [inRun_run (s := received s) run, formRenew_bytes h (by omega : n < 65536), formed_some, field, checked_ok,
    reached_some (s := received s) live, own, if_true, done_parts, updOrder_eq (s := received s) live]

/-- Settles O20: the lease written is `renewed`, by the value given and the lease there is. -/
theorem renewReloadsTheLease : Obligations.RenewReloadsTheLease := by
  intro n h o g tag s hn run live own
  have remaining : ∀ k : Nat, (1000 * k + 999) / 1000 = k := by intro k; omega
  refine ⟨fun pos => ?_, fun l zero lease => ?_, fun zero lease => ?_⟩
  · rw [execRenew_eq hn run live own]
    simp [renewed, Nat.pos_iff_ne_zero.mp pos, putLease, Lease.remainingS, remaining]
  · subst zero
    rw [execRenew_eq hn run live own]
    simp [renewed, lease, putLease, Lease.remainingS, remaining]
  · subst zero
    rw [execRenew_eq hn run live own]
    have same : (received s).setSlot h.slot ⟨h.gen, some { o with lease := none }⟩ = received s := by
      obtain ⟨hh, ho⟩ := order?_eq_some live
      have slot : s.slot h.slot = ⟨h.gen, some o⟩ := by
        rw [← ho, ← congrArg Handle.gen hh]; rfl
      have : ({ o with lease := none } : Order) = o := by rw [← lease]
      rw [this, ← slot]
      simp [State.setSlot, State.slot, received]
    simp [renewed, lease, putLease, same]

end Sys2Proof.Machine
end

section
/-! What one resolution and one retirement do: to the orders, the lanes, the banks and the transmit queue. -/

namespace Sys2Proof.Machine

/-! ### Orders in another standing -/

/-- `p` is the order `o` with its state and settled field changed, and WAITING only if `o` was. -/
def Order.restands (o p : Order) : Prop :=
  p = { o with state := p.state, settled := p.settled } ∧ (p.state = .waiting → o.state = .waiting)

theorem Order.restands_refl (o : Order) : o.restands o := ⟨rfl, id⟩

theorem Order.restands_trans {o p q : Order} (h : o.restands p) (k : p.restands q) : o.restands q :=
  ⟨by rw [k.1, h.1], fun w => h.2 (k.2 w)⟩

theorem Order.restands_kept {o p : Order} (h : o.restands p) : o.kept p := by
  rw [h.1]; simp [Order.kept]

theorem Order.restands_guards {o p : Order} (h : o.restands p) : p.guards = o.guards := by rw [h.1]

/-- Every slot keeps its generation, and its order in some standing. -/
def Restood (s t : State) : Prop :=
  ∀ i, ∃ f : Order → Order, t.slot i = ⟨(s.slot i).gen, (s.orderAt i).map f⟩ ∧ ∀ o : Order, o.restands (f o)

theorem slot_eta (s : State) (i : Slot) : s.slot i = ⟨(s.slot i).gen, s.orderAt i⟩ := rfl

theorem Restood.of_slots {s t : State} (h : ∀ i, t.slot i = s.slot i) : Restood s t :=
  fun i => ⟨id, by rw [h, Option.map_id, id, ← slot_eta], Order.restands_refl⟩

theorem Restood.refl (s : State) : Restood s s := .of_slots fun _ => rfl

theorem Restood.trans {s t u : State} (h : Restood s t) (k : Restood t u) : Restood s u := by
  intro i
  obtain ⟨f, hf, hfo⟩ := h i
  obtain ⟨g, hg, hgo⟩ := k i
  refine ⟨g ∘ f, ?_, fun o => Order.restands_trans (hfo o) (hgo (f o))⟩
  rw [hg, show t.orderAt i = (s.orderAt i).map f from congrArg SlotState.order hf, hf, Option.map_map]

theorem Restood.gen {s t : State} (h : Restood s t) (i : Slot) : (t.slot i).gen = (s.slot i).gen := by
  obtain ⟨f, hf, -⟩ := h i; rw [hf]

theorem Restood.handleAt {s t : State} (h : Restood s t) (i : Slot) : t.handleAt i = s.handleAt i := by
  unfold State.handleAt; rw [h.gen]

theorem Restood.live {s t : State} (h : Restood s t) {i : Slot} {o : Order} (ho : s.orderAt i = some o) :
    ∃ p, t.orderAt i = some p ∧ o.restands p := by
  obtain ⟨f, hf, hfo⟩ := h i
  exact ⟨f o, by unfold State.orderAt; rw [hf, ho]; rfl, hfo o⟩

theorem Restood.was {s t : State} (h : Restood s t) {i : Slot} {p : Order} (hp : t.orderAt i = some p) :
    ∃ o, s.orderAt i = some o ∧ o.restands p := by
  obtain ⟨f, hf, hfo⟩ := h i
  unfold State.orderAt at hp
  rw [hf] at hp
  obtain ⟨o, ho, rfl⟩ := Option.map_eq_some_iff.1 hp
  exact ⟨o, ho, hfo o⟩

theorem Restood.reach {s t : State} (h : Restood s t) {k : Handle} {o : Order} (ho : s.order? k = some o) :
    ∃ p, t.order? k = some p ∧ o.restands p := by
  obtain ⟨e, ho'⟩ := order?_eq_some ho
  obtain ⟨p, hp, hop⟩ := h.live ho'
  refine ⟨p, ?_, hop⟩
  unfold State.order?
  rw [if_pos ((h.gen _).trans (congrArg Handle.gen e)), hp]

theorem Restood.reached {s t : State} (h : Restood s t) {k : Handle} {p : Order} (hp : t.order? k = some p) :
    ∃ o, s.order? k = some o ∧ o.restands p := by
  obtain ⟨e, hp'⟩ := order?_eq_some hp
  obtain ⟨o, ho, hop⟩ := h.was hp'
  refine ⟨o, ?_, hop⟩
  unfold State.order?
  rw [if_pos ((h.gen _).symm.trans (congrArg Handle.gen e)), ho]

theorem Restood.updOrder {s : State} {i : Slot} {f : Order → Order} (hf : ∀ o : Order, o.restands (f o)) :
    Restood s (s.updOrder i f) := by
  intro j
  rw [slot_updOrder]
  split
  · subst j; exact ⟨f, rfl, hf⟩
  · exact ⟨id, by rw [Option.map_id, id, ← slot_eta], Order.restands_refl⟩

/-- A live order's handle reaches it. -/
theorem order?_handleAt (s : State) (i : Slot) : s.order? (s.handleAt i) = s.orderAt i := by
  simp [State.order?, State.handleAt]

theorem order?_of_orderAt {s : State} {h : Handle} {o : Order} (hh : s.handleAt h.slot = h)
    (ho : s.orderAt h.slot = some o) : s.order? h = some o := by rw [← hh, order?_handleAt, ho]

/-! ### One resolution -/

/-- What a resolution of the lane of `a` leaves as it was. -/
structure ResolveFrame (a : Actuator) (s t : State) : Prop where
  slots : Restood s t
  lanes : ∀ b, b ≠ a → t.lane b = s.lane b
  orderSet : (t.lane a).orderSet = (s.lane a).orderSet
  banks : t.banks = s.banks
  queue : t.txQueue = s.txQueue
  lost : t.noticesLost = s.noticesLost
  travel : a ≠ gate → t.travel = s.travel
  running : s.travel ≠ .complete → t.travel ≠ .complete

theorem ResolveFrame.refl (a : Actuator) (s : State) : ResolveFrame a s s :=
  ⟨.refl s, fun _ _ => rfl, rfl, rfl, rfl, rfl, fun _ => rfl, id⟩

theorem ResolveFrame.trans {a : Actuator} {s t u : State} (h : ResolveFrame a s t) (k : ResolveFrame a t u) :
    ResolveFrame a s u :=
  ⟨h.slots.trans k.slots, fun b hb => (k.lanes b hb).trans (h.lanes b hb), k.orderSet.trans h.orderSet,
    k.banks.trans h.banks, k.queue.trans h.queue, k.lost.trans h.lost, fun ha => (k.travel ha).trans (h.travel ha),
    fun c => k.running (h.running c)⟩

theorem ResolveFrame.updLane {a : Actuator} {s : State} {f : Lane → Lane}
    (hf : (f (s.lane a)).orderSet = (s.lane a).orderSet) : ResolveFrame a s (s.updLane a f) where
  slots := .of_slots fun _ => rfl
  lanes b hb := by rw [lane_updLane, if_neg hb]
  orderSet := by rw [lane_updLane, if_pos rfl, hf]
  banks := rfl
  queue := rfl
  lost := rfl
  travel _ := rfl
  running := id

theorem ResolveFrame.updOrder {a : Actuator} {s : State} {i : Slot} {f : Order → Order}
    (hf : ∀ o : Order, o.restands (f o)) : ResolveFrame a s (s.updOrder i f) where
  slots := .updOrder hf
  lanes _ _ := by simp
  orderSet := by simp
  banks := by simp
  queue := by simp
  lost := by simp
  travel _ := by simp
  running := by simp

theorem refreshChan_leaves (c : Chan) (s : State) : (refreshChan c s).slots = s.slots ∧
    (refreshChan c s).lanes = s.lanes ∧ (refreshChan c s).banks = s.banks ∧ (refreshChan c s).txQueue = s.txQueue ∧
    (refreshChan c s).noticesLost = s.noticesLost ∧ (refreshChan c s).travel = s.travel := by
  and_intros <;> rfl

theorem handCommand_leaves (a : Actuator) (s : State) : (handCommand a s).slots = s.slots ∧
    (handCommand a s).lanes = s.lanes ∧ (handCommand a s).banks = s.banks ∧
    (handCommand a s).txQueue = s.txQueue ∧ (handCommand a s).noticesLost = s.noticesLost ∧
    (handCommand a s).travel = s.travel := by
  unfold handCommand
  split
  · split
    · exact refreshChan_leaves _ s
    · exact ⟨rfl, rfl, rfl, rfl, rfl, rfl⟩
  · exact ⟨rfl, rfl, rfl, rfl, rfl, rfl⟩

theorem slot_of_slots {s t : State} (h : t.slots = s.slots) (i : Slot) : t.slot i = s.slot i := by
  simp [State.slot, h]

theorem lane_of_lanes {s t : State} (h : t.lanes = s.lanes) (a : Actuator) : t.lane a = s.lane a := by
  simp [State.lane, h]

theorem entry_of_banks {s t : State} (h : t.banks = s.banks) (b : BankIx) (e : EntryIx) : t.entry b e = s.entry b e := by
  simp [State.entry, h]

/-- The lane the GATE's step leaves: the command is the one stepped to. -/
theorem setCommand_lane (a : Actuator) (v : Int) (s : State) (b : Actuator) :
    (setCommand a v s).lane b = if b = a then { s.lane a with command := some v } else s.lane b := by
  unfold setCommand
  rw [lane_of_lanes (handCommand_leaves _ _).2.1, lane_updLane]

theorem setCommand_resolves (a : Actuator) (v : Int) (s : State) : ResolveFrame a s (setCommand a v s) := by
  obtain ⟨hs, hl, hb, hq, hn, ht⟩ := handCommand_leaves a (s.updLane a fun l => { l with command := some v })
  exact (ResolveFrame.updLane rfl).trans ⟨.of_slots (slot_of_slots hs), fun b _ => lane_of_lanes hl b,
    by rw [setCommand, lane_of_lanes hl], hb, hq, hn, fun _ => ht, by rw [setCommand, ht]; exact id⟩

theorem gateStep_resolves (v : Int) (s : State) : ResolveFrame gate s (gateStep v s) := by
  unfold gateStep
  split
  · exact .refl gate s
  · refine ResolveFrame.trans ?_ (setCommand_resolves gate v _)
    exact ⟨.of_slots fun _ => rfl, fun _ _ => rfl, rfl, rfl, rfl, rfl, fun h => absurd rfl h, fun _ => by simp⟩

theorem demote_resolves (a : Actuator) (s : State) : ResolveFrame a s (demote a s) := by
  unfold demote
  split
  · exact (ResolveFrame.updOrder fun o => by simp [Order.restands]).trans (.updLane rfl)
  · exact .refl a s

theorem promote_resolves (a : Actuator) (h : Handle) (s : State) : ResolveFrame a s (promote a h s) :=
  (ResolveFrame.updOrder fun o => by simp [Order.restands]).trans (.updLane rfl)

theorem resolveYield_resolves (a : Actuator) (s : State) : ResolveFrame a s (resolveYield a s) := by
  unfold resolveYield
  split
  · split
    · exact demote_resolves a s
    · exact .refl a s
  · exact .refl a s

theorem resolveChoice_resolves (a : Actuator) (s : State) : ResolveFrame a s (resolveChoice a s) := by
  unfold resolveChoice
  split
  · exact promote_resolves _ _ _
  · split
    · exact (demote_resolves a s).trans (promote_resolves _ _ _)
    · exact .refl a s
  · exact .refl a s

theorem takeHolds_resolves (a : Actuator) (s : State) : ResolveFrame a s (takeHolds a s) := by
  have step : ∀ (v : Int) (t : State), ResolveFrame a s t → ResolveFrame a s (if a = gate then gateStep v t else t) := by
    intro v t h
    split
    · next e => subst e; exact h.trans (gateStep_resolves v t)
    · exact h
  unfold takeHolds
  split
  · exact step 0 _ (.updLane rfl)
  · next h o _ =>
    dsimp only
    split
    · exact (ResolveFrame.updOrder fun o => by simp [Order.restands]).trans (.updLane rfl)
    · exact step o.target _ (.updLane rfl)

theorem resolve_resolves (a : Actuator) (s : State) : ResolveFrame a s (resolve a s) := by
  unfold resolve
  split
  · exact .refl a s
  · exact ((resolveYield_resolves a s).trans (resolveChoice_resolves a _)).trans (takeHolds_resolves a _)

/-! ### Whom a lane names -/

/-- The lane of `a` names `h`: as its governing order or in a position. -/
def State.names (s : State) (a : Actuator) (h : Handle) : Prop :=
  (s.lane a).gov = some h ∨ ∃ c, (s.lane a).orderSet.get c = some h

/-- What a lane names is of its actuator, where it is live. -/
def NamesOwn (s : State) : Prop := ∀ a h o, s.names a h → s.order? h = some o → o.actuator = a

theorem LaneLaw.namesOwn {s : State} (l : LaneLaw s) : NamesOwn s := by
  rintro a h o (hg | ⟨c, hc⟩) ho
  · obtain ⟨o', ho', ha, -⟩ := l.governs a h hg
    rw [ho'] at ho; cases ho; exact ha
  · obtain ⟨o', ho', ha, -⟩ := l.positions a c h hc
    rw [ho'] at ho; cases ho; exact ha

theorem candidate_eq_some {s : State} {a : Actuator} {c : Cls} {h : Handle} (e : s.candidate a = some (c, h)) :
    (s.lane a).orderSet.get c = some h ∧ (s.lane a).masked c = false ∧ c ∈ (s.lane a).precedence ∧
      ∃ o, s.order? h = some o ∧ o.state ≠ .waiting := by
  unfold State.candidate at e
  obtain ⟨d, hd, hm⟩ := List.exists_of_findSome?_eq_some e
  split at hm
  · cases hm
  · next unmasked =>
    obtain ⟨k, hk, he⟩ := Option.map_eq_some_iff.1 hm
    cases he
    unfold State.eligible at hk
    split at hk
    · next h' hset =>
      split at hk
      · next o ho =>
        split at hk
        · cases hk
        · next w => cases hk; exact ⟨hset, by simpa using unmasked, hd, o, ho, w⟩
      · cases hk
    · cases hk

theorem governing_eq_some {s : State} {a : Actuator} {h : Handle} {o : Order} :
    s.governing a = some (h, o) ↔ (s.lane a).gov = some h ∧ s.order? h = some o := by
  unfold State.governing
  cases hg : (s.lane a).gov with
  | none => simp
  | some k =>
    simp only [Option.map_eq_some_iff, Prod.mk.injEq, Option.some.injEq]
    constructor
    · rintro ⟨q, hq, rfl, rfl⟩; exact ⟨rfl, hq⟩
    · rintro ⟨rfl, hq⟩; exact ⟨o, hq, rfl, rfl⟩

theorem OrdersKept.reached {s t : State} (k : OrdersKept s t) {h : Handle} {p : Order} (hp : t.order? h = some p) :
    ∃ o, s.order? h = some o ∧ o.kept p := by
  obtain ⟨e, hp'⟩ := order?_eq_some hp
  obtain ⟨o, ho, hop, hg⟩ := k _ p hp'
  refine ⟨o, order?_of_orderAt ?_ ho, hop⟩
  rw [← e, State.handleAt, State.handleAt, hg]

theorem NamesOwn.mono {s t : State} (own : NamesOwn s) (k : OrdersKept s t) (n : ∀ a h, t.names a h → s.names a h) :
    NamesOwn t := by
  intro a h p hn hp
  obtain ⟨o, ho, hop⟩ := k.reached hp
  rw [hop.2.1]
  exact own a h o (n a h hn) ho

theorem names_of_lane {s t : State} {a : Actuator} (h : t.lane a = s.lane a) {k : Handle} : t.names a k ↔ s.names a k := by
  simp [State.names, h]

theorem demote_gov (a : Actuator) (s : State) : ((demote a s).lane a).gov = none := by
  unfold demote
  split
  · simp [lane_updLane]
  · assumption

theorem promote_gov (a : Actuator) (h : Handle) (s : State) : ((promote a h s).lane a).gov = some h := by
  simp [promote, lane_updLane]

/-- A write to the lane of `a` that keeps its order set names no other order, where its governing order is named. -/
theorem ResolveFrame.names {a : Actuator} {s t : State} (r : ResolveFrame a s t)
    (g : ∀ k, (t.lane a).gov = some k → s.names a k) (b : Actuator) (k : Handle) (n : t.names b k) : s.names b k := by
  by_cases hb : b = a
  · subst hb
    rcases n with n | ⟨c, n⟩
    · exact g k n
    · exact .inr ⟨c, by rw [← r.orderSet]; exact n⟩
  · exact (names_of_lane (r.lanes b hb)).1 n

theorem resolveYield_gov (a : Actuator) (s : State) {k : Handle} (h : ((resolveYield a s).lane a).gov = some k) :
    (s.lane a).gov = some k := by
  unfold resolveYield at h
  split at h
  · split at h
    · rw [demote_gov] at h; cases h
    · exact h
  · exact h

theorem resolveChoice_gov (a : Actuator) (s : State) {k : Handle} (h : ((resolveChoice a s).lane a).gov = some k) :
    s.names a k := by
  unfold resolveChoice at h
  split at h
  · next c k' _ hc =>
    rw [promote_gov] at h; cases h
    exact .inr ⟨c, (candidate_eq_some hc).1⟩
  · next c k' _ hc =>
    split at h
    · rw [promote_gov] at h; cases h
      exact .inr ⟨c, (candidate_eq_some hc).1⟩
    · exact .inl h
  · exact .inl h

theorem gateStep_gov (v : Int) (s : State) (b : Actuator) : ((gateStep v s).lane b).gov = (s.lane b).gov := by
  unfold gateStep
  split
  · rfl
  · rw [setCommand_lane]; split
    · next h => subst h; rfl
    · rfl

theorem takeHolds_gov (a : Actuator) (s : State) {k : Handle} (h : ((takeHolds a s).lane a).gov = some k) :
    (s.lane a).gov = some k := by
  unfold takeHolds at h
  split at h
  · dsimp only at h
    split at h
    · rw [gateStep_gov, lane_updLane, if_pos rfl] at h; cases h
    · rw [lane_updLane, if_pos rfl] at h; cases h
  · dsimp only at h
    split at h
    · simpa [lane_updLane] using h
    · split at h
      · rwa [gateStep_gov, lane_updLane, if_pos rfl] at h
      · rwa [lane_updLane, if_pos rfl] at h

theorem takeHolds_names (a : Actuator) (s : State) (b : Actuator) (k : Handle) (n : (takeHolds a s).names b k) :
    s.names b k := (takeHolds_resolves a s).names (fun _ h => .inl (takeHolds_gov a s h)) b k n

theorem resolve_names (a : Actuator) (s : State) (b : Actuator) (k : Handle) (n : (resolve a s).names b k) :
    s.names b k := by
  unfold resolve at n
  split at n
  · exact n
  · have n1 := (resolveChoice_resolves a _).names (fun _ h => resolveChoice_gov a _ h) b k (takeHolds_names a _ b k n)
    exact (resolveYield_resolves a s).names (fun _ h => .inl (resolveYield_gov a s h)) b k n1

/-! ### One retirement -/

theorem retireOne_dead {lane : Bool} {i : Slot} {c : Cause} {s : State} (h : s.orderAt i = none) :
    retireOne lane i c s = s := by simp [retireOne, h]

theorem dropFromLane_lane (a : Actuator) (c : Cls) (h : Handle) (s : State) {b : Actuator} (hb : b ≠ a) :
    (dropFromLane a c h s).lane b = s.lane b := by rw [dropFromLane, lane_updLane, if_neg hb]

theorem PerClass.get_set {α : Type} (p : PerClass α) (c d : Cls) (x : α) :
    (p.set c x).get d = if d = c then x else p.get d := by cases c <;> cases d <;> rfl

theorem dropFromLane_names (a : Actuator) (c : Cls) (h : Handle) (s : State) (b : Actuator) (k : Handle)
    (n : (dropFromLane a c h s).names b k) : s.names b k := by
  by_cases hb : b = a
  · subst hb
    simp only [State.names, dropFromLane, lane_updLane, if_true] at n
    rcases n with n | ⟨d, n⟩
    · split at n
      · cases n
      · exact .inl n
    · split at n
      · rw [PerClass.get_set] at n
        split at n
        · cases n
        · exact .inr ⟨d, n⟩
      · exact .inr ⟨d, n⟩
  · exact (names_of_lane (dropFromLane_lane a c h s hb)).1 n

/-- The state in which a retirement reports to the plan store: the order has left its lane, which has resolved if it
does. -/
def leaveLane (lane : Bool) (o : Order) (h : Handle) (s : State) : State :=
  if lane && o.state ≠ .waiting then resolve o.actuator (dropFromLane o.actuator o.cls h s)
  else dropFromLane o.actuator o.cls h s

/-- The end of a retirement: the plan store's report, the slot freed, the notice. -/
def freeSlot (o : Order) (i : Slot) (h : Handle) (c : Cause) (s : State) : State :=
  let t := (planReport o c s).setSlot i ⟨h.gen + 1, none⟩
  if c = .restart then t else queueNotice (addressee o.cls) (.retired h o.actuator c) t

theorem retireOne_live {lane : Bool} {i : Slot} {c : Cause} {s : State} {o : Order} (h : s.orderAt i = some o) :
    retireOne lane i c s = freeSlot o i (s.handleAt i) c (leaveLane lane o (s.handleAt i) s) := by
  simp only [retireOne, h]; rfl

theorem leaveLane_restood (lane : Bool) (o : Order) (h : Handle) (s : State) : Restood s (leaveLane lane o h s) := by
  unfold leaveLane
  split
  · exact (Restood.of_slots fun _ => rfl).trans (resolve_resolves _ _).slots
  · exact .of_slots fun _ => rfl

theorem leaveLane_leaves (lane : Bool) (o : Order) (h : Handle) (s : State) :
    (leaveLane lane o h s).banks = s.banks ∧ (leaveLane lane o h s).txQueue = s.txQueue ∧
    (leaveLane lane o h s).noticesLost = s.noticesLost ∧
    (∀ b, b ≠ o.actuator → (leaveLane lane o h s).lane b = s.lane b) ∧
    (o.actuator ≠ gate → (leaveLane lane o h s).travel = s.travel) ∧
    (s.travel ≠ .complete → (leaveLane lane o h s).travel ≠ .complete) := by
  unfold leaveLane
  split
  · have r := resolve_resolves o.actuator (dropFromLane o.actuator o.cls h s)
    exact ⟨r.banks, r.queue, r.lost, fun b hb => (r.lanes b hb).trans (dropFromLane_lane _ _ _ s hb), r.travel, r.running⟩
  · exact ⟨rfl, rfl, rfl, fun b hb => dropFromLane_lane _ _ _ s hb, fun _ => rfl, id⟩

theorem leaveLane_names (lane : Bool) (o : Order) (h : Handle) (s : State) (b : Actuator) (k : Handle)
    (n : (leaveLane lane o h s).names b k) : s.names b k := by
  unfold leaveLane at n
  split at n
  · exact dropFromLane_names _ _ _ s b k (resolve_names _ _ b k n)
  · exact dropFromLane_names _ _ _ s b k n

theorem planReport_leaves (o : Order) (c : Cause) (s : State) : (planReport o c s).slots = s.slots ∧
    (planReport o c s).lanes = s.lanes ∧ (planReport o c s).txQueue = s.txQueue ∧
    (planReport o c s).noticesLost = s.noticesLost ∧ (planReport o c s).travel = s.travel := by
  unfold planReport
  split
  · exact ⟨rfl, rfl, rfl, rfl, rfl⟩
  · split
    · exact ⟨rfl, rfl, rfl, rfl, rfl⟩
    · simp

/-- The causes the plan store takes no action on: its own, and RESTART. -/
def Cause.silent (c : Cause) : Prop := c = .outOfBand ∨ c = .planSwap ∨ c = .restart

theorem planReport_entry {o : Order} {c : Cause} (hc : ¬ c.silent) (s : State) (b : BankIx) (e : EntryIx) :
    (planReport o c s).entry b e =
      if o.planEntry = some (b, e) then (s.entry b e).map fun x => { x with state := .cleared } else s.entry b e := by
  unfold Cause.silent at hc
  unfold planReport
  split
  · next h => simp [h]
  · next b' e' h =>
    rw [if_neg hc, entry_setEntryState, h]
    by_cases hb : b = b' ∧ e = e'
    · obtain ⟨rfl, rfl⟩ := hb; simp
    · rw [if_neg hb, if_neg]; rintro ⟨⟩; exact hb ⟨rfl, rfl⟩

theorem freeSlot_leaves (o : Order) (i : Slot) (h : Handle) (c : Cause) (s : State) :
    (freeSlot o i h c s).slots = (s.setSlot i ⟨h.gen + 1, none⟩).slots ∧ (freeSlot o i h c s).lanes = s.lanes ∧
    (freeSlot o i h c s).banks = (planReport o c s).banks ∧ (freeSlot o i h c s).travel = s.travel := by
  have slots : ((planReport o c s).setSlot i ⟨h.gen + 1, none⟩).slots = (s.setSlot i ⟨h.gen + 1, none⟩).slots := by
    simp [State.setSlot, (planReport_leaves o c s).1]
  obtain ⟨-, lanes, -, -, travel⟩ := planReport_leaves o c s
  unfold freeSlot
  dsimp only
  split
  · exact ⟨slots, lanes, rfl, travel⟩
  · simp only [queueNotice_leaves, setSlot_leaves]; exact ⟨slots, lanes, trivial, travel⟩

theorem freeSlot_slot (o : Order) (i : Slot) (h : Handle) (c : Cause) (s : State) (j : Slot) :
    (freeSlot o i h c s).slot j = if j = i then ⟨h.gen + 1, none⟩ else s.slot j := by
  rw [slot_of_slots (freeSlot_leaves o i h c s).1, slot_setSlot]

/-- The slot of a retired order is free under its next generation (R7). -/
theorem retireOne_self {lane : Bool} {i : Slot} {c : Cause} {s : State} {o : Order} (h : s.orderAt i = some o) :
    (retireOne lane i c s).slot i = ⟨(s.slot i).gen + 1, none⟩ := by
  rw [retireOne_live h, freeSlot_slot, if_pos rfl]; rfl

/-- The other slots after a retirement. -/
theorem retireOne_others (lane : Bool) {i : Slot} (c : Cause) (s : State) {j : Slot} (hj : j ≠ i) :
    ∃ f : Order → Order, (retireOne lane i c s).slot j = ⟨(s.slot j).gen, (s.orderAt j).map f⟩ ∧
      ∀ o : Order, o.restands (f o) := by
  cases h : s.orderAt i with
  | none => rw [retireOne_dead h]; exact Restood.refl s j
  | some o =>
    rw [retireOne_live h, freeSlot_slot, if_neg hj]
    exact leaveLane_restood _ _ _ s j

/-- Where the lane does not resolve, the other slots are untouched. -/
theorem retireOne_slot {i : Slot} (c : Cause) (s : State) {j : Slot} (hj : j ≠ i) :
    (retireOne false i c s).slot j = s.slot j := by
  cases h : s.orderAt i with
  | none => rw [retireOne_dead h]
  | some o => rw [retireOne_live h, freeSlot_slot, if_neg hj]; rfl

theorem retireOne_lane {lane : Bool} {i : Slot} {c : Cause} {s : State} {o : Order} (h : s.orderAt i = some o)
    {b : Actuator} (hb : b ≠ o.actuator) : (retireOne lane i c s).lane b = s.lane b := by
  rw [retireOne_live h, lane_of_lanes (freeSlot_leaves _ _ _ _ _).2.1]
  exact (leaveLane_leaves _ _ _ s).2.2.2.1 b hb

theorem retireOne_names (lane : Bool) (i : Slot) (c : Cause) (s : State) (b : Actuator) (k : Handle)
    (n : (retireOne lane i c s).names b k) : s.names b k := by
  cases h : s.orderAt i with
  | none => rwa [retireOne_dead h] at n
  | some o =>
    rw [retireOne_live h, names_of_lane (lane_of_lanes (freeSlot_leaves _ _ _ _ _).2.1 b)] at n
    exact leaveLane_names _ _ _ s b k n

theorem retireOne_running (lane : Bool) (i : Slot) (c : Cause) (s : State) (h : s.travel ≠ .complete) :
    (retireOne lane i c s).travel ≠ .complete := by
  cases ho : s.orderAt i with
  | none => rwa [retireOne_dead ho]
  | some o =>
    rw [retireOne_live ho, (freeSlot_leaves _ _ _ _ _).2.2.2]
    exact (leaveLane_leaves _ _ _ s).2.2.2.2.2 h

/-- The entry a retired PLAN order names is CLEARED, unless the plan store retired it (R120). -/
theorem retireOne_entry {lane : Bool} {i : Slot} {c : Cause} {s : State} {o : Order} (h : s.orderAt i = some o)
    (hc : ¬ c.silent) (b : BankIx) (e : EntryIx) :
    (retireOne lane i c s).entry b e =
      if o.planEntry = some (b, e) then (s.entry b e).map fun x => { x with state := .cleared } else s.entry b e := by
  rw [retireOne_live h, entry_of_banks (freeSlot_leaves _ _ _ _ _).2.2.1, planReport_entry hc,
    entry_of_banks (leaveLane_leaves _ _ _ s).1]

/-- Otherwise the entries stay. -/
theorem retireOne_entry_silent {lane : Bool} {i : Slot} {c : Cause} {s : State} (hc : c.silent) (b : BankIx)
    (e : EntryIx) : (retireOne lane i c s).entry b e = s.entry b e := by
  unfold Cause.silent at hc
  cases h : s.orderAt i with
  | none => rw [retireOne_dead h]
  | some o =>
    rw [retireOne_live h, entry_of_banks (freeSlot_leaves _ _ _ _ _).2.2.1]
    unfold planReport
    split
    · exact entry_of_banks (leaveLane_leaves _ _ _ s).1 b e
    · rw [if_pos hc]; exact entry_of_banks (leaveLane_leaves _ _ _ s).1 b e

/-- A retirement queues its notice, where there is room (R9, R175). -/
theorem retireOne_queue {lane : Bool} {i : Slot} {c : Cause} {s : State} {o : Order} (h : s.orderAt i = some o)
    (hc : c ≠ .restart) : (retireOne lane i c s).txQueue =
      s.txQueue ++ if s.noticeCount < 16 then [.notice (addressee o.cls) (.retired (s.handleAt i) o.actuator c)] else [] := by
  have queue := (leaveLane_leaves lane o (s.handleAt i) s).2.1
  rw [retireOne_live h]
  simp only [freeSlot, if_neg hc, (queueNotice_queue _ _ _).1, State.noticeCount, setSlot_leaves,
    (planReport_leaves _ _ _).2.2.1, queue]
  rfl

end Sys2Proof.Machine
end

section
/-! One induction over the order engine: a property that each write of a cascade, a release and a settle keeps holds
after the settle whole. -/

namespace Sys2Proof.Machine

/-! ### Folds -/

/-- What one turn of a fold establishes and every turn keeps holds of each item after the fold. -/
theorem foldl_establishes {α σ : Type} {f : σ → α → σ} {P : σ → Prop} {R : α → σ → Prop}
    (pres : ∀ s x, P s → P (f s x)) (est : ∀ s x, P s → R x (f s x)) (keep : ∀ s x y, P s → R y s → R y (f s x)) :
    ∀ (l : List α) (s : σ), P s → ∀ x ∈ l, R x (l.foldl f s)
  | [], _, _, _, hx => by cases hx
  | y :: l, s, hs, x, hx => by
    rcases List.mem_cons.1 hx with rfl | hx
    · have kept : ∀ (l : List α) s, P s ∧ R x s → P (l.foldl f s) ∧ R x (l.foldl f s) := fun l s h =>
        List.foldlRecOn (motive := fun t => P t ∧ R x t) l f h fun s h y _ => ⟨pres s y h.1, keep s y x h.1 h.2⟩
      exact (kept l _ ⟨pres s x hs, est s x hs⟩).2
    · exact foldl_establishes pres est keep l _ (pres s y hs) x hx

theorem mem_allSlots (i : Slot) : i ∈ allSlots := by simp [allSlots]

/-! ### Waiting orders only go -/

theorem waitsOn_iff {s : State} {i : Slot} {h : Handle} :
    s.waitsOn i h = true ↔ ∃ o, s.orderAt i = some o ∧ o.state = .waiting ∧ o.prereq = some h := by
  unfold State.waitsOn
  cases s.orderAt i <;> simp

/-- Every order WAITING in `t` waited in `s`, on the same order. -/
def WaitsOnly (s t : State) : Prop := ∀ i h, t.waitsOn i h = true → s.waitsOn i h = true

theorem WaitsOnly.refl (s : State) : WaitsOnly s s := fun _ _ => id

theorem WaitsOnly.trans {s t u : State} (h : WaitsOnly s t) (k : WaitsOnly t u) : WaitsOnly s u :=
  fun i x w => h i x (k i x w)

theorem Restood.waits {s t : State} (r : Restood s t) : WaitsOnly s t := by
  intro i h w
  obtain ⟨p, hp, hw, hpre⟩ := waitsOn_iff.1 w
  obtain ⟨o, ho, hop, hs⟩ := r.was hp
  rw [hop] at hpre
  exact waitsOn_iff.2 ⟨o, ho, hs hw, hpre⟩

theorem updOrder_waits {s : State} {i : Slot} {f : Order → Order}
    (hf : ∀ o : Order, (f o).state = .waiting → o.state = .waiting ∧ (f o).prereq = o.prereq) :
    WaitsOnly s (s.updOrder i f) := by
  intro j h w
  obtain ⟨p, hp, hw, hpre⟩ := waitsOn_iff.1 w
  rw [orderAt_updOrder] at hp
  split at hp
  · subst j
    obtain ⟨o, ho, rfl⟩ := Option.map_eq_some_iff.1 hp
    exact waitsOn_iff.2 ⟨o, ho, (hf o hw).1, (hf o hw).2 ▸ hpre⟩
  · exact waitsOn_iff.2 ⟨p, hp, hw, hpre⟩

theorem retireOne_waits (lane : Bool) (i : Slot) (c : Cause) (s : State) : WaitsOnly s (retireOne lane i c s) := by
  intro j h w
  cases ho : s.orderAt i with
  | none => rwa [retireOne_dead ho] at w
  | some o =>
    rw [retireOne_live ho] at w
    refine (leaveLane_restood lane o (s.handleAt i) s).waits j h ?_
    obtain ⟨p, hp, hw, hpre⟩ := waitsOn_iff.1 w
    unfold State.orderAt at hp
    rw [freeSlot_slot] at hp
    split at hp
    · cases hp
    · exact waitsOn_iff.2 ⟨p, hp, hw, hpre⟩

theorem cascade_waits (n : Nat) (h : Handle) (s : State) : WaitsOnly s (cascade n h s) := by
  induction n generalizing h s with
  | zero => exact .refl s
  | succ n ih =>
    refine List.foldlRecOn allSlots _ (WaitsOnly.refl s) fun t ht i _ => ?_
    split
    · exact (ht.trans (retireOne_waits _ _ _ _)).trans (ih _ _)
    · exact ht

theorem retireCore_waits (lane : Bool) (i : Slot) (c : Cause) (s : State) : WaitsOnly s (retireCore lane i c s) := by
  unfold retireCore
  split
  · exact (retireOne_waits _ _ _ _).trans (cascade_waits _ _ _)
  · exact .refl s

theorem setCond_waits (h : Handle) (g : Nat) (c : Cond) (s : State) : WaitsOnly s (setCond h g c s) :=
  updOrder_waits fun _ w => ⟨w, rfl⟩

theorem armGuard_waits (g : Nat) (h : Handle) (s : State) : WaitsOnly s (armGuard g h s) := by
  unfold armGuard
  split
  · exact .refl s
  · split
    · exact .refl s
    · split
      · split
        · split
          · exact retireCore_waits _ _ _ _
          · exact setCond_waits _ _ _ _
        · exact setCond_waits _ _ _ _
      · exact setCond_waits _ _ _ _

/-- The order in a slot taken to PENDING, the first write of its release. -/
def readied (i : Slot) (s : State) : State := s.updOrder i fun o => { o with state := .pending }

theorem readied_waits (i : Slot) (s : State) : WaitsOnly s (readied i s) := updOrder_waits fun _ w => by cases w

theorem readied_self (i : Slot) (s : State) (h : Handle) : (readied i s).waitsOn i h = false := by
  rw [Bool.eq_false_iff]
  intro w
  obtain ⟨p, hp, hw, -⟩ := waitsOn_iff.1 w
  rw [readied, orderAt_updOrder, if_pos rfl] at hp
  obtain ⟨o, -, rfl⟩ := Option.map_eq_some_iff.1 hp
  cases hw

theorem release_eq (i : Slot) (s : State) : release i s =
    match (armGuards (s.handleAt i) (readied i s)).order? (s.handleAt i) with
    | some o => resolve o.actuator (armGuards (s.handleAt i) (readied i s))
    | none => armGuards (s.handleAt i) (readied i s) := by
  unfold release
  dsimp only [readied] <;> generalize armGuards _ _ = t <;> rfl

theorem release_waits_readied (i : Slot) (s : State) : WaitsOnly (readied i s) (release i s) := by
  have armed := (armGuard_waits 0 (s.handleAt i) (readied i s)).trans (armGuard_waits 1 (s.handleAt i) _)
  rw [release_eq]
  split
  · exact armed.trans (resolve_resolves _ _).slots.waits
  · exact armed

theorem release_waits (i : Slot) (s : State) : WaitsOnly s (release i s) :=
  (readied_waits i s).trans (release_waits_readied i s)

/-- A released order waits no more. -/
theorem release_self (i : Slot) (s : State) (h : Handle) : (release i s).waitsOn i h = false := by
  rw [Bool.eq_false_iff]
  intro w
  have := release_waits_readied i s i h w
  rw [readied_self] at this; cases this

section
variable {f : Handle → State → State}

theorem settleGateBy_waits (hf : ∀ h s, WaitsOnly s (f h s)) (s : State) : WaitsOnly s (settleGateBy f s) := by
  unfold settleGateBy
  split
  · exact hf _ s
  · exact .refl s

/-- One turn of the releases of a settle. -/
def releaseTurn (f : Handle → State → State) (h : Handle) : State → Slot → State := fun s i =>
  if s.waitsOn i h then settleGateBy f (release i s) else s

theorem releaseTurn_waits (hf : ∀ h s, WaitsOnly s (f h s)) (h : Handle) (s : State) (i : Slot) :
    WaitsOnly s (releaseTurn f h s i) := by
  unfold releaseTurn
  split
  · exact (release_waits i s).trans (settleGateBy_waits hf _)
  · exact .refl s

/-- The state once a settle is reported and the dependents are released. -/
def reported (f : Handle → State → State) (h : Handle) (s : State) : State :=
  allSlots.foldl (releaseTurn f h) (s.updOrder h.slot fun o => { o with settled := true })

theorem settleBy_eq (h : Handle) (s : State) : settleBy f h s =
    match (reported f h s).order? h with
    | some o => if o.completion = .settle then settleGateBy f (retireCore true h.slot .completed (reported f h s))
        else reported f h s
    | none => reported f h s := by
  unfold settleBy reported releaseTurn
  dsimp only <;> generalize List.foldl _ _ allSlots = t <;> rfl

theorem reported_waits (hf : ∀ h s, WaitsOnly s (f h s)) (h : Handle) (s : State) : WaitsOnly s (reported f h s) := by
  unfold reported
  exact List.foldlRecOn allSlots _ (updOrder_waits fun _ w => ⟨w, rfl⟩)
    fun _ ht i _ => ht.trans (releaseTurn_waits hf h _ i)

/-- When the dependents have been released, nothing waits on the order settled (R16). -/
theorem reported_none (hf : ∀ h s, WaitsOnly s (f h s)) (h : Handle) (s : State) (i : Slot) :
    (reported f h s).waitsOn i h = false := by
  unfold reported
  refine foldl_establishes (P := fun _ => True) (R := fun i (t : State) => t.waitsOn i h = false)
    (fun _ _ _ => trivial) (fun s i _ => ?_) (fun s i j _ w => ?_) allSlots _ trivial i (mem_allSlots i)
  · unfold releaseTurn
    split
    · rw [Bool.eq_false_iff]
      intro w
      have := settleGateBy_waits hf _ i h w
      rw [release_self] at this; cases this
    · next w => simpa using w
  · rw [Bool.eq_false_iff] at w ⊢
    exact fun w' => w (releaseTurn_waits hf h s i j h w')

theorem settleBy_waits (hf : ∀ h s, WaitsOnly s (f h s)) (h : Handle) (s : State) : WaitsOnly s (settleBy f h s) := by
  rw [settleBy_eq]
  have h1 := reported_waits hf h s
  split
  · split
    · exact (h1.trans (retireCore_waits _ _ _ _)).trans (settleGateBy_waits hf _)
    · exact h1
  · exact h1

end

theorem settleFor_waits (n : Nat) : ∀ h s, WaitsOnly s (settleFor n h s) := by
  induction n with
  | zero => exact fun _ s => .refl s
  | succ n ih => exact settleBy_waits ih

/-! ### The induction -/

theorem OrdersKept.unreached {s t : State} (k : OrdersKept s t) {h : Handle} (e : s.order? h = none) :
    t.order? h = none := by
  cases ho : t.order? h with
  | none => rfl
  | some p =>
    obtain ⟨o, ho', -⟩ := k.reached ho
    rw [e] at ho'; cases ho'

/-- A retired order is out of reach. -/
theorem retireOne_unreached (lane : Bool) (i : Slot) (c : Cause) (s : State) :
    (retireOne lane i c s).order? (s.handleAt i) = none := by
  cases h : s.orderAt i with
  | none => rw [retireOne_dead h, order?_handleAt, h]
  | some o =>
    unfold State.order? State.orderAt
    rw [show (s.handleAt i).slot = i from rfl, retireOne_self h]
    simp

/-- `P` is kept by every write of a release, its cascades and resolutions, where the slots that may be released are
among those of `W`. -/
structure ReleaseKeeps (P : State → Prop) (W : Slot → Prop) : Prop where
  resolved : ∀ {s h o}, P s → W h.slot → s.order? h = some o → P (resolve o.actuator s)
  lose : ∀ {s i h}, P s → s.waitsOn i h = true → s.order? h = none → P (retireOne false i .prereqLost s)
  cond : ∀ {s h} g c, P s → W h.slot → P (setCond h g c s)
  trip : ∀ {s h o e}, P s → W h.slot → s.order? h = some o → e ∈ o.guards → violated s e.guard = true →
    e.guard.dwell = 0 → e.guard.action = .retire → P (retireOne false h.slot .guardTrip s)
  ready : ∀ {s i h}, P s → W i → s.waitsOn i h = true → P (readied i s)

/-- `P` is kept by every write of the engine, where the orders that may settle are among those of `Q` and the slots that
may be released among those of `W`. -/
structure EngineKeeps (P : State → Prop) (Q : Handle → Prop) (W : Slot → Prop) : Prop extends ReleaseKeeps P W where
  waits : ∀ {s i h}, P s → Q h → s.waitsOn i h = true → W i
  settles : ∀ {s h}, P s → s.gateSettles = some h → Q h
  settled : ∀ {s h}, P s → Q h → P (s.updOrder h.slot fun o => { o with settled := true })
  complete : ∀ {s h o}, P s → Q h → s.order? h = some o → o.completion = .settle →
    (∀ i, s.waitsOn i h = false) → P (retireOne true h.slot .completed s)

namespace ReleaseKeeps

variable {P : State → Prop} {W : Slot → Prop}

theorem cascade (K : ReleaseKeeps P W) (n : Nat) : ∀ {h s}, s.order? h = none → P s → P (cascade n h s) := by
  induction n with
  | zero => exact fun _ h => h
  | succ n ih =>
    intro h s dead hs
    refine (List.foldlRecOn (motive := fun t => t.order? h = none ∧ P t) allSlots _ ⟨dead, hs⟩
      fun t ⟨dead, ht⟩ i _ => ?_).2
    split
    · next w =>
      have gone := K.lose ht w dead
      refine ⟨?_, ih (retireOne_unreached _ _ _ _) gone⟩
      exact OrdersKept.unreached ((retireOne_frame _ _ _ _).trans (cascade_frame _ _ _)).orders dead
    · exact ⟨dead, ht⟩

/-- The cascade of a retirement keeps what the retirement itself keeps. -/
theorem retireCore (K : ReleaseKeeps P W) {lane : Bool} {i : Slot} {c : Cause} {s : State} (hs : P s)
    (h : ∀ o, s.orderAt i = some o → P (retireOne lane i c s)) : P (retireCore lane i c s) := by
  unfold Machine.retireCore
  split
  · next o ho => exact K.cascade 40 (retireOne_unreached _ _ _ _) (h o ho)
  · exact hs

theorem armGuard (K : ReleaseKeeps P W) (g : Nat) {h : Handle} {s : State} (hw : W h.slot) (hs : P s) :
    P (armGuard g h s) := by
  unfold Machine.armGuard
  split
  · exact hs
  · next o ho =>
    split
    · exact hs
    · next e he =>
      split
      · next bad =>
        split
        · next zero =>
          split
          · next act => exact K.retireCore hs fun _ _ => K.trip hs hw ho (List.mem_of_getElem? he) bad zero act
          · exact K.cond _ _ hs hw
        · exact K.cond _ _ hs hw
      · exact K.cond _ _ hs hw

theorem armGuards (K : ReleaseKeeps P W) {h : Handle} {s : State} (hw : W h.slot) (hs : P s) : P (armGuards h s) :=
  K.armGuard 1 hw (K.armGuard 0 hw hs)

theorem release (K : ReleaseKeeps P W) {i : Slot} {h : Handle} {s : State} (hs : P s) (may : W i)
    (w : s.waitsOn i h = true) : P (release i s) := by
  have armed := K.armGuards (h := s.handleAt i) may (K.ready hs may w)
  rw [release_eq]
  split
  · next ho => exact K.resolved (h := s.handleAt i) armed may ho
  · exact armed

end ReleaseKeeps

namespace EngineKeeps

variable {P : State → Prop} {Q : Handle → Prop} {W : Slot → Prop}

section
variable {f : Handle → State → State} (hf : ∀ h s, P s → Q h → P (f h s)) (fw : ∀ h s, WaitsOnly s (f h s))
include hf

theorem settleGateBy (K : EngineKeeps P Q W) {s : State} (hs : P s) : P (settleGateBy f s) := by
  unfold Machine.settleGateBy
  split
  · next h hg => exact hf h s hs (K.settles hs hg)
  · exact hs

theorem releaseTurn (K : EngineKeeps P Q W) {h : Handle} (hq : Q h) {s : State} (hs : P s) (i : Slot) :
    P (releaseTurn f h s i) := by
  unfold Machine.releaseTurn
  split
  · next w => exact K.settleGateBy hf (K.release hs (K.waits hs hq w) w)
  · exact hs

theorem reported (K : EngineKeeps P Q W) {h : Handle} {s : State} (hs : P s) (hq : Q h) : P (reported f h s) := by
  unfold Machine.reported
  exact List.foldlRecOn allSlots _ (K.settled hs hq) fun _ ht i _ => K.releaseTurn hf hq ht i

include fw

theorem settleBy (K : EngineKeeps P Q W) {h : Handle} {s : State} (hs : P s) (hq : Q h) : P (settleBy f h s) := by
  have h1 := K.reported hf hs hq
  rw [settleBy_eq]
  split
  · next o ho =>
    split
    · next c =>
      exact K.settleGateBy hf (K.retireCore h1 fun _ _ => K.complete h1 hq ho c (reported_none fw h s))
    · exact h1
  · exact h1

end

theorem settleFor (K : EngineKeeps P Q W) (n : Nat) : ∀ h s, P s → Q h → P (settleFor n h s) := by
  induction n with
  | zero => exact fun _ _ hs _ => hs
  | succ n ih => exact fun _ _ hs hq => K.settleBy ih (settleFor_waits n) hs hq

theorem settleOrder (K : EngineKeeps P Q W) {h : Handle} {s : State} (hs : P s) (hq : Q h) : P (settleOrder h s) := by
  unfold Machine.settleOrder; exact K.settleFor 81 h s hs hq

theorem settleGate (K : EngineKeeps P Q W) {s : State} (hs : P s) : P (settleGate s) := by
  unfold Machine.settleGate
  exact K.settleGateBy (f := Machine.settleOrder) (fun _ _ hs hq => K.settleOrder hs hq) hs

theorem retire (K : EngineKeeps P Q W) {i : Slot} {c : Cause} {s : State} (hs : P s)
    (h : ∀ o, s.orderAt i = some o → P (retireOne true i c s)) : P (retire i c s) := by
  unfold Machine.retire
  exact K.settleGate (K.retireCore hs h)

end EngineKeeps

end Sys2Proof.Machine
end

section
/-! The steady operations: those that place no order and edit no plan, template or binding. An order they end has its
entry CLEARED, and they change no other entry. -/

namespace Sys2Proof.Machine

/-! ### The relation -/

/-- `p` is the order `o` in its seat: of its class, actuator and plan entry, with as many guards. -/
def Order.sameSeat (o p : Order) : Prop :=
  p.cls = o.cls ∧ p.actuator = o.actuator ∧ p.planEntry = o.planEntry ∧ p.guards.length = o.guards.length

theorem Order.kept_sameSeat {o p : Order} (h : o.kept p) : o.sameSeat p := by
  obtain ⟨hc, ha, -, -, -, -, -, -, he, -, hg⟩ := h
  exact ⟨hc, ha, he, by simpa using congrArg List.length hg⟩

/-- The blocks a steady operation never writes. -/
def sameStore (s t : State) : Prop :=
  t.mode = s.mode ∧ t.active = s.active ∧ t.depth.value = s.depth.value ∧ t.templates = s.templates ∧
    t.fallback = s.fallback ∧ t.halt = s.halt

theorem BlocksKept.sameStore {s t : State} (h : BlocksKept s t) : sameStore s t :=
  ⟨h.mode, h.active, by rw [h.depth], h.templates, h.fallback, h.halt⟩

structure Steady (s t : State) : Prop where
  store : sameStore s t
  orders : ∀ i p, t.orderAt i = some p → ∃ o, s.orderAt i = some o ∧ o.sameSeat p ∧ (t.slot i).gen = (s.slot i).gen
  fields : ∀ b e, (t.entry b e).map PlanEntry.fields = (s.entry b e).map PlanEntry.fields
  ended : ∀ i o b e x, s.orderAt i = some o → t.orderAt i = none → o.planEntry = some (b, e) → t.entry b e = some x →
    x.state = .cleared
  changed : ∀ b e x, t.entry b e ≠ s.entry b e → t.entry b e = some x →
    x.state = .cleared ∧ ∃ i o, s.orderAt i = some o ∧ t.orderAt i = none ∧ o.planEntry = some (b, e)

theorem Steady.trans {s t u : State} (h : Steady s t) (k : Steady t u) : Steady s u where
  store := by
    obtain ⟨h1, h2, h3, h4, h5, h6⟩ := h.store
    obtain ⟨k1, k2, k3, k4, k5, k6⟩ := k.store
    exact ⟨k1.trans h1, k2.trans h2, k3.trans h3, k4.trans h4, k5.trans h5, k6.trans h6⟩
  orders i q hq := by
    obtain ⟨p, hp, ⟨c, a, e, n⟩, g⟩ := k.orders i q hq
    obtain ⟨o, ho, ⟨c', a', e', n'⟩, g'⟩ := h.orders i p hp
    exact ⟨o, ho, ⟨c.trans c', a.trans a', e.trans e', n.trans n'⟩, g.trans g'⟩
  fields b e := (k.fields b e).trans (h.fields b e)
  ended i o b e x ho hu he hx := by
    by_cases same : u.entry b e = t.entry b e
    · cases ht : t.orderAt i with
      | none => exact h.ended i o b e x ho ht he (same ▸ hx)
      | some p =>
        obtain ⟨o', ho', seat, -⟩ := h.orders i p ht
        rw [ho] at ho'; cases ho'
        exact k.ended i p b e x ht hu (seat.2.2.1.trans he) hx
    · exact (k.changed b e x same hx).1
  changed b e x ne hx := by
    by_cases same : u.entry b e = t.entry b e
    · rw [same] at ne hx
      obtain ⟨c, i, o, ho, ht, he⟩ := h.changed b e x ne hx
      refine ⟨c, i, o, ho, ?_, he⟩
      cases hu : u.orderAt i with
      | none => rfl
      | some p =>
        obtain ⟨q, hq, -⟩ := k.orders i p hu
        rw [ht] at hq; cases hq
    · obtain ⟨c, i, p, hp, hu, he⟩ := k.changed b e x same hx
      obtain ⟨o, ho, seat, -⟩ := h.orders i p hp
      exact ⟨c, i, o, ho, hu, seat.2.2.1.symm.trans he⟩

/-- An operation that ends no order and touches no entry is steady. -/
theorem Steady.of_seats {s t : State} (store : sameStore s t) (banks : t.banks = s.banks)
    (seats : ∀ i, ∃ f : Order → Order, t.slot i = ⟨(s.slot i).gen, (s.orderAt i).map f⟩ ∧ ∀ o : Order, o.sameSeat (f o)) :
    Steady s t where
  store := store
  orders i p hp := by
    obtain ⟨f, hf, seat⟩ := seats i
    unfold State.orderAt at hp
    rw [hf] at hp
    obtain ⟨o, ho, rfl⟩ := Option.map_eq_some_iff.1 hp
    exact ⟨o, ho, seat o, by rw [hf]⟩
  fields b e := by rw [entry_of_banks banks]
  ended i o b e x ho ht := by
    obtain ⟨f, hf, -⟩ := seats i
    unfold State.orderAt at ht
    rw [hf, ho] at ht; cases ht
  changed b e x ne := absurd (entry_of_banks banks b e) ne

theorem Steady.of_slots {s t : State} (store : sameStore s t) (banks : t.banks = s.banks) (slots : t.slots = s.slots) :
    Steady s t :=
  .of_seats store banks fun i => ⟨id, by rw [slot_of_slots slots, Option.map_id]; rfl, fun _ => ⟨rfl, rfl, rfl, rfl⟩⟩

theorem sameStore.refl (s : State) : sameStore s s := ⟨rfl, rfl, rfl, rfl, rfl, rfl⟩

theorem Steady.refl (s : State) : Steady s s := .of_slots ⟨rfl, rfl, rfl, rfl, rfl, rfl⟩ rfl rfl

theorem Steady.updOrder {s : State} {i : Slot} {f : Order → Order} (hf : ∀ o : Order, o.sameSeat (f o)) :
    Steady s (s.updOrder i f) := by
  refine .of_seats (by simp [sameStore]) (by simp) fun j => ?_
  rw [slot_updOrder]
  split
  · subst j; exact ⟨f, rfl, hf⟩
  · exact ⟨id, by rw [Option.map_id]; rfl, fun _ => ⟨rfl, rfl, rfl, rfl⟩⟩

theorem Steady.foldl {α : Type} {f : State → α → State} (hf : ∀ s x, Steady s (f s x)) (l : List α) (s : State) :
    Steady s (l.foldl f s) :=
  List.foldlRecOn l f (Steady.refl s) fun _ h x _ => h.trans (hf _ x)

/-! ### The engine is steady -/

theorem ResolveFrame.steady {a : Actuator} {s t : State} (r : ResolveFrame a s t) (e : EngineFrame s t) : Steady s t :=
  .of_seats e.blocks.sameStore r.banks fun i => by
    obtain ⟨f, hf, ho⟩ := r.slots i
    exact ⟨f, hf, fun o => Order.kept_sameSeat (Order.restands_kept (ho o))⟩

theorem resolve_steady (a : Actuator) (s : State) : Steady s (resolve a s) :=
  (resolve_resolves a s).steady (resolve_frame a s)

theorem takeHolds_steady (a : Actuator) (s : State) : Steady s (takeHolds a s) :=
  (takeHolds_resolves a s).steady (takeHolds_frame a s)

/-- A retirement of any cause but the plan store's own and RESTART is steady (R120). -/
theorem retireOne_steady (lane : Bool) (i : Slot) {c : Cause} (hc : ¬ c.silent) (s : State) :
    Steady s (retireOne lane i c s) := by
  cases ho : s.orderAt i with
  | none => rw [retireOne_dead ho]; exact .refl s
  | some o =>
    have frame := retireOne_frame lane i c s
    have gone : (retireOne lane i c s).orderAt i = none := by unfold State.orderAt; rw [retireOne_self ho]
    have others : ∀ {j}, (retireOne lane i c s).orderAt j = none → ∀ {q}, s.orderAt j = some q → j = i := by
      intro j hj q hq
      by_contra ne
      obtain ⟨f, hf, -⟩ := retireOne_others lane c s ne
      unfold State.orderAt at hj
      rw [hf, hq] at hj; cases hj
    refine ⟨frame.blocks.sameStore, fun j p hp => ?_, frame.tables.entries, fun j q b e x hq hj he hx => ?_,
      fun b e x ne hx => ?_⟩
    · obtain ⟨q, hq, kept, g⟩ := frame.orders j p hp
      exact ⟨q, hq, Order.kept_sameSeat kept, g⟩
    · obtain rfl := others hj hq
      rw [ho] at hq; cases hq
      rw [retireOne_entry ho hc, if_pos he] at hx
      obtain ⟨y, -, rfl⟩ := Option.map_eq_some_iff.1 hx
      rfl
    · rw [retireOne_entry ho hc] at ne hx
      split at hx
      · next he =>
        obtain ⟨y, -, rfl⟩ := Option.map_eq_some_iff.1 hx
        exact ⟨rfl, i, o, ho, gone, he⟩
      · next he => exact absurd (if_neg he) ne

theorem setCond_steady (h : Handle) (g : Nat) (c : Cond) (s : State) : Steady s (setCond h g c s) :=
  .updOrder fun _ => ⟨rfl, rfl, rfl, by simp⟩

theorem readied_steady (i : Slot) (s : State) : Steady s (readied i s) := .updOrder fun _ => ⟨rfl, rfl, rfl, rfl⟩

theorem not_silent {c : Cause} (h : c ≠ .outOfBand ∧ c ≠ .planSwap ∧ c ≠ .restart) : ¬ c.silent := by
  rintro (e | e | e) <;> simp [e] at h

/-- From any state on, the engine's writes are steady. -/
theorem steady_engine (s₀ : State) : EngineKeeps (Steady s₀) (fun _ => True) (fun _ => True) where
  resolved h _ _ := h.trans (resolve_steady _ _)
  waits _ _ _ := trivial
  settles _ _ := trivial
  lose h _ _ := h.trans (retireOne_steady _ _ (not_silent (by decide)) _)
  cond g c h _ := h.trans (setCond_steady _ g c _)
  trip h _ _ _ _ _ _ := h.trans (retireOne_steady _ _ (not_silent (by decide)) _)
  ready h _ _ := h.trans (readied_steady _ _)
  settled h _ := h.trans (.updOrder fun _ => ⟨rfl, rfl, rfl, rfl⟩)
  complete h _ _ _ _ := h.trans (retireOne_steady _ _ (not_silent (by decide)) _)

theorem retireCore_steady (lane : Bool) (i : Slot) {c : Cause} (hc : ¬ c.silent) (s : State) :
    Steady s (retireCore lane i c s) :=
  (steady_engine s).retireCore (.refl s) fun _ _ => retireOne_steady lane i hc s

theorem settleGate_steady (s : State) : Steady s (settleGate s) := (steady_engine s).settleGate (.refl s)

theorem settleOrder_steady (h : Handle) (s : State) : Steady s (settleOrder h s) :=
  (steady_engine s).settleOrder (.refl s) trivial

theorem retire_steady (i : Slot) {c : Cause} (hc : ¬ c.silent) (s : State) : Steady s (retire i c s) :=
  (steady_engine s).retire (.refl s) fun _ _ => retireOne_steady true i hc s

/-! ### The users of a reading are steady -/

theorem guardAct_steady (h : Handle) (g : Nat) (a : GuardAction) (s : State) : Steady s (guardAct h g a s) := by
  unfold guardAct
  split
  · exact retire_steady _ (not_silent (by decide)) s
  · dsimp only
    have set := setCond_steady h g .active s
    split
    · split
      · exact set.trans (takeHolds_steady _ _)
      · exact set
    · exact set

theorem guardEnds_steady (h : Handle) (g : Nat) (s : State) : Steady s (guardEnds h g s) := by
  unfold guardEnds
  dsimp only
  have set := setCond_steady h g .satisfied s
  split
  · split
    · exact (set.trans (takeHolds_steady _ _)).trans (settleGate_steady _)
    · exact set
  · exact set

theorem evalGuard_steady (p : Point) (h : Handle) (g : Nat) (s : State) : Steady s (evalGuard p h g s) := by
  unfold evalGuard
  split
  · exact .refl s
  · split
    · exact .refl s
    · split
      · split
        · split
          · exact guardAct_steady _ _ _ s
          · exact setCond_steady _ _ _ s
        · exact setCond_steady _ _ _ s
        · exact guardEnds_steady _ _ s
        all_goals exact .refl s
      · exact .refl s

theorem guardUse_steady (p : Point) (s : State) : Steady s (guardUse p s) :=
  Steady.foldl (fun s _ => (evalGuard_steady p _ 0 s).trans (evalGuard_steady p _ 1 _)) _ s

theorem updLane_steady (s : State) (a : Actuator) (f : Lane → Lane) : Steady s (s.updLane a f) :=
  .of_slots ⟨rfl, rfl, rfl, rfl, rfl, rfl⟩ rfl rfl

theorem setCommand_steady (a : Actuator) (v : Int) (s : State) : Steady s (setCommand a v s) :=
  .of_slots (setCommand_frame a v s).blocks.sameStore (setCommand_resolves a v s).banks
    (handCommand_leaves a (s.updLane a fun l => { l with command := some v })).1

theorem gateStep_steady (v : Int) (s : State) : Steady s (gateStep v s) :=
  (gateStep_resolves v s).steady (gateStep_frame v s)

theorem clearSettled_steady (a : Actuator) (s : State) : Steady s (clearSettled a s) := by
  unfold clearSettled
  split
  · exact .updOrder fun _ => ⟨rfl, rfl, rfl, rfl⟩
  · exact .refl s

theorem restartDetector_steady (a : Actuator) (s : State) : Steady s (restartDetector a s) := by
  unfold restartDetector setDetector
  exact (clearSettled_steady a s).trans (updLane_steady _ a _)

theorem settleUse_steady (a : Actuator) (s : State) : Steady s (settleUse a s) := by
  unfold settleUse
  split
  · split
    · split
      · split
        · split
          · exact (updLane_steady s a _).trans (settleOrder_steady _ _)
          · exact updLane_steady s a _
        · exact .refl s
      all_goals exact .refl s
    · exact restartDetector_steady a s
  · exact .refl s

theorem setInterlock_steady (s : State) (w : Fin 2) (x : Interlock) : Steady s (s.setInterlock w x) :=
  .of_slots ⟨rfl, rfl, rfl, rfl, rfl, rfl⟩ rfl rfl

theorem interlockUse_steady (w : Fin 2) (s : State) : Steady s (interlockUse w s) := by
  have flag := setInterlock_steady s w { s.interlock w with engaged := s.interlockFlag (s.interlock w) }
  unfold interlockUse
  dsimp only
  split
  · split
    · split
      · exact flag
      · split
        · exact (flag.trans (setCommand_steady _ _ _)).trans (restartDetector_steady _ _)
        · exact flag.trans (setCommand_steady _ _ _)
    · exact flag
  · exact flag

theorem laneUse_steady (p : Point) (s : State) : Steady s (laneUse p s) := by
  have settle : Steady s (if h : p.val < 11 then settleUse ⟨p.val, by omega⟩ s else s) := by
    split
    · exact settleUse_steady _ s
    · exact .refl s
  unfold laneUse
  dsimp only
  split
  · exact settle.trans ((interlockUse_steady 0 _).trans (interlockUse_steady 1 _))
  · exact settle

theorem draws_steady (s : State) (n : Nat) : Steady s { s with draws := n } := .of_slots ⟨rfl, rfl, rfl, rfl, rfl, rfl⟩ rfl rfl

theorem handPoint_steady (p : Point) (s : State) : Steady s (handPoint p s) := by
  have guards := (guardUse_steady p s).trans (laneUse_steady p _)
  have lanes := (laneUse_steady p s).trans (guardUse_steady p _)
  unfold handPoint
  dsimp only
  split
  · exact guards
  · split
    · exact guards.trans (draws_steady _ _)
    · exact lanes.trans (draws_steady _ _)

end Sys2Proof.Machine
end

section
/-! The steady requests and events: each operation of the lanes, the points, the channels and the timers, and one
millisecond. -/

namespace Sys2Proof.Machine

/-! ### Channels and the map -/

theorem setMap_steady (s : State) (a : Actuator) (x : MapEntry) : Steady s (s.setMap a x) := .of_slots ⟨rfl, rfl, rfl, rfl, rfl, rfl⟩ rfl rfl

theorem setChan_steady (s : State) (c : Chan) (x : ChanState) : Steady s (s.setChan c x) := .of_slots ⟨rfl, rfl, rfl, rfl, rfl, rfl⟩ rfl rfl

theorem queueNotice_steady (o : Origin) (n : Notice) (s : State) : Steady s (queueNotice o n s) :=
  .of_slots (by simp [sameStore]) (by simp) (by simp)

theorem refreshChan_steady (c : Chan) (s : State) : Steady s (refreshChan c s) := setChan_steady s c _

theorem releaseChan_steady (c : Chan) (s : State) : Steady s (releaseChan c s) := setChan_steady s c _

theorem assign_steady (a : Actuator) (c : Option Chan) (s : State) : Steady s (assign a c s) := setMap_steady s a _

theorem moveActuator_steady (a : Actuator) (c : Chan) (s : State) : Steady s (moveActuator a c s) := by
  unfold moveActuator
  split
  · refine Steady.trans ?_ (refreshChan_steady _ _)
    refine Steady.trans ?_ (assign_steady _ _ _)
    exact (setChan_steady s c _).trans (releaseChan_steady _ _)
  · exact (assign_steady _ _ s).trans (refreshChan_steady _ _)

theorem handCommand_steady (a : Actuator) (s : State) : Steady s (handCommand a s) :=
  .of_slots (handCommand_frame a s).blocks.sameStore (handCommand_leaves a s).2.2.1 (handCommand_leaves a s).1

theorem laneRest_steady (a : Actuator) (s : State) : Steady s (laneRest a s) := by
  unfold laneRest
  dsimp only
  refine Steady.trans ?_ (handCommand_steady a _)
  split <;> exact .of_slots ⟨rfl, rfl, rfl, rfl, rfl, rfl⟩ rfl rfl

theorem laneDown_steady (a : Actuator) (s : State) : Steady s (laneDown a s) := by
  unfold laneDown
  dsimp only
  split <;> exact .of_slots ⟨rfl, rfl, rfl, rfl, rfl, rfl⟩ rfl rfl

theorem bringBack_steady (a : Actuator) (c : Chan) (s : State) : Steady s (bringBack a c s) := by
  unfold bringBack
  dsimp only
  refine Steady.trans ?_ (laneRest_steady a _)
  split <;> exact .of_slots ⟨rfl, rfl, rfl, rfl, rfl, rfl⟩ rfl rfl

theorem applyMap_steady (a : Actuator) (c : Chan) (s : State) : Steady s (applyMap a c s) := by
  unfold applyMap
  split
  · exact .refl s
  · split
    · exact setMap_steady s a _
    · split
      · exact bringBack_steady a c s
      · exact moveActuator_steady a c s

theorem setLocalDuty_steady (c : Chan) (n : Nat) (s : State) : Steady s (setLocalDuty c n s) := by
  unfold setLocalDuty
  dsimp only
  split <;> exact .of_slots ⟨rfl, rfl, rfl, rfl, rfl, rfl⟩ rfl rfl

theorem forceChan_steady (c : Chan) (s : State) : Steady s (forceChan c s) := .of_slots ⟨rfl, rfl, rfl, rfl, rfl, rfl⟩ rfl rfl

theorem forceActuator_steady (a : Actuator) (s : State) : Steady s (forceActuator a s) := by
  unfold forceActuator
  split
  · exact (forceChan_steady _ s).trans (queueNotice_steady _ _ _)
  · exact queueNotice_steady _ _ s

theorem restoreChan_steady (c : Chan) (s : State) : Steady s (restoreChan c s) := by
  unfold restoreChan
  split
  · split <;> exact .of_slots ⟨rfl, rfl, rfl, rfl, rfl, rfl⟩ rfl rfl
  · exact .refl s

theorem retireDriveLost_steady (a : Actuator) (s : State) : Steady s (retireDriveLost a s) := by
  unfold retireDriveLost
  refine Steady.foldl (f := fun (s : State) i => match s.orderAt i with
    | some o => if o.actuator = a then retireCore false i .driveLost s else s
    | none => s) (fun s i => ?_) allSlots s
  split
  · split
    · exact retireCore_steady _ _ (not_silent (by decide)) s
    · exact .refl s
  · exact .refl s

theorem actuatorDown_steady (a : Actuator) (c : Chan) (s : State) : Steady s (actuatorDown a c s) := by
  unfold actuatorDown
  dsimp only
  have start : Steady s (assign a none (releaseChan c (queueNotice .operator (.down a (some c)) s))) :=
    ((queueNotice_steady _ _ s).trans (releaseChan_steady c _)).trans (assign_steady a none _)
  exact (start.trans (retireDriveLost_steady a _)).trans (laneDown_steady a _)

/-! ### Points -/

theorem setModule_steady (s : State) (m : Module) (x : ModuleState) : Steady s (s.setModule m x) :=
  .of_slots ⟨rfl, rfl, rfl, rfl, rfl, rfl⟩ rfl rfl

theorem setDirect_steady (s : State) (p : DirectPoint) (x : DirectState) : Steady s (s.setDirect p x) :=
  .of_slots ⟨rfl, rfl, rfl, rfl, rfl, rfl⟩ rfl rfl

theorem handModule_steady (m : Module) (s : State) : Steady s (handModule m s) :=
  Steady.foldl (fun s _ => handPoint_steady _ s) _ s

theorem setModValue_steady (s : State) (k : Fin 5) (v : Int) : Steady s (s.setModValue k v) := .of_slots ⟨rfl, rfl, rfl, rfl, rfl, rfl⟩ rfl rfl

theorem setReadings_steady (m : Module) (vs : List Int) (s : State) : Steady s (setReadings m vs s) := by
  unfold setReadings
  exact Steady.foldl (fun s (kv : Fin 5 × Int) => setModValue_steady s kv.1 kv.2) _ s

theorem takeReadings_steady (m : Module) (vs : List Int) (s : State) : Steady s (takeReadings m vs s) :=
  ((setModule_steady s m _).trans (setReadings_steady m vs _)).trans (handModule_steady m _)

theorem goodFrame_steady (m : Module) (vs : List Int) (s : State) : Steady s (goodFrame m vs s) := by
  unfold goodFrame
  dsimp only
  split
  · exact takeReadings_steady m vs s
  · exact takeReadings_steady m vs s
  · split
    · exact takeReadings_steady m vs s
    · exact setModule_steady s m _

theorem staleModule_steady (m : Module) (s : State) : Steady s (staleModule m s) :=
  (setModule_steady s m _).trans (handModule_steady m _)

theorem superviseModule_steady (m : Module) (s : State) : Steady s (superviseModule m s) := by
  unfold superviseModule
  dsimp only
  split
  · exact ((setModule_steady s m _).trans (handModule_steady m _)).trans (queueNotice_steady _ _ _)
  · exact .refl s

theorem applyModule_steady (f : ModuleForm) (s : State) : Steady s (applyModule f s) := by
  have supervised := fun x => (setModule_steady s f.module x).trans (superviseModule_steady f.module _)
  unfold applyModule
  dsimp only
  split
  · exact (supervised _).trans (staleModule_steady _ _)
  · exact supervised _

theorem badModuleFrame_steady (m : Module) (s : State) : Steady s (badModuleFrame m s) :=
  (setModule_steady s m _).trans (superviseModule_steady m _)

theorem takeDirect_steady (p : DirectPoint) (v : Int) (s : State) : Steady s (takeDirect p v s) :=
  (setDirect_steady s p _).trans (handPoint_steady _ _)

theorem faultDirect_steady (p : DirectPoint) (s : State) : Steady s (faultDirect p s) :=
  ((setDirect_steady s p _).trans (handPoint_steady _ _)).trans (queueNotice_steady _ _ _)

theorem recoverDirect_steady (p : DirectPoint) (v : Int) (s : State) : Steady s (recoverDirect p v s) := by
  unfold recoverDirect
  dsimp only
  split
  · exact setDirect_steady s p _
  · split
    · exact takeDirect_steady p v s
    · exact setDirect_steady s p _

theorem handDrift_steady (s : State) : Steady s (handDrift s) := (handPoint_steady _ s).trans (handPoint_steady _ _)

theorem drift_steady (s : State) (d : DriftState) : Steady s { s with drift := d } := .of_slots ⟨rfl, rfl, rfl, rfl, rfl, rfl⟩ rfl rfl

theorem driftNote_steady (d : Int) (s : State) : Steady s (driftNote d s) := by
  unfold driftNote
  split
  · exact .refl s
  · split
    · dsimp only
      split
      · exact (drift_steady s _).trans (handDrift_steady _)
      · exact drift_steady s _
    · split
      · exact (drift_steady s _).trans (handDrift_steady _)
      · exact .refl s

theorem seedDrift_steady (x y : Int) (s : State) : Steady s (seedDrift x y s) :=
  (drift_steady s _).trans (handDrift_steady _)

/-- A change of DEP that keeps its value. -/
theorem depth_steady (s : State) (d : DepthState) (h : d.value = s.depth.value) : Steady s { s with depth := d } :=
  .of_slots ⟨rfl, rfl, h, rfl, rfl, rfl⟩ rfl rfl

theorem staleDepth_steady (s : State) : Steady s (staleDepth s) :=
  (depth_steady s { s.depth with status := .stale, stale := none } rfl).trans (handPoint_steady _ _)

theorem applyDepthStale_steady (n : Nat) (s : State) : Steady s (applyDepthStale n s) := by
  have limit := depth_steady s { s.depth with staleLimit := n } rfl
  unfold applyDepthStale
  dsimp only
  split
  · exact limit.trans (staleDepth_steady _)
  · exact limit

/-! ### Orders and lanes -/

theorem amended_sameSeat (f : AmendForm) (o : Order) : o.sameSeat (amended f o) := ⟨rfl, rfl, rfl, rfl⟩

theorem amendOrder_steady (h : Handle) (o : Order) (f : AmendForm) (s : State) : Steady s (amendOrder h o f s) := by
  have record : Steady s (s.updOrder h.slot (amended f)) := .updOrder (amended_sameSeat f)
  unfold amendOrder
  dsimp only
  split
  · have restarted := record.trans (restartDetector_steady o.actuator _)
    split
    · exact restarted.trans (gateStep_steady _ _)
    · exact restarted
  · exact record

theorem resolveOn_steady (a : Actuator) (f : Lane → Lane) (s : State) :
    Steady s (settleGate (resolve a (s.updLane a f))) :=
  ((updLane_steady s a f).trans (resolve_steady a _)).trans (settleGate_steady _)

theorem setLowest_steady (a : Actuator) (c : Cls) (s : State) : Steady s (setLowest a c s) := by
  unfold setLowest
  split
  · exact .refl s
  · exact resolveOn_steady a _ s

theorem setMask_steady (a : Actuator) (c : Cls) (on : Bool) (s : State) : Steady s (setMask a c on s) := by
  unfold setMask
  split
  · exact .refl s
  · exact resolveOn_steady a _ s

theorem setYield_steady (a : Actuator) (on : Bool) (s : State) : Steady s (setYield a on s) := by
  unfold setYield
  split
  · exact .refl s
  · exact resolveOn_steady a _ s

theorem applySettle_steady (a : Actuator) (f : SettleForm) (s : State) : Steady s (applySettle a f s) :=
  .of_slots ⟨rfl, rfl, rfl, rfl, rfl, rfl⟩ rfl rfl

theorem moveCommand_steady (a : Actuator) (s : State) : Steady s (moveCommand a s) := by
  unfold moveCommand
  split
  · exact .refl s
  · split
    · split
      · exact .refl s
      · exact setCommand_steady _ _ s
    · exact .refl s

theorem travel_steady (s : State) (x : Travel) : Steady s { s with travel := x } := .of_slots ⟨rfl, rfl, rfl, rfl, rfl, rfl⟩ rfl rfl

theorem retireTethered_steady (s : State) : Steady s (allSlots.foldl (fun s i =>
    match s.orderAt i with
    | some o => if o.tethered then retire i .linkLost s else s
    | none => s) s) := by
  refine Steady.foldl (fun s i => ?_) allSlots s
  split
  · split
    · exact retire_steady _ (not_silent (by decide)) s
    · exact .refl s
  · exact .refl s

/-! ### One millisecond -/

theorem tick_slot (s : State) (i : Slot) : s.tick.slot i = (s.slot i).tick := by simp [State.tick, State.slot]

theorem tick_steady (s : State) : Steady s s.tick :=
  .of_seats ⟨rfl, rfl, rfl, rfl, rfl, rfl⟩ rfl fun i => ⟨Order.tick, tick_slot s i, fun o => ⟨rfl, rfl, rfl, by
    simp [Order.tick]⟩⟩

end Sys2Proof.Machine
end

section
/-! One traversal of the commands: a property that steady operations keep, and the operations that place orders or edit
the plan, the templates and the bindings, is kept by every step. -/

namespace Sys2Proof.Machine

/-! ### Replies -/

section
variable {P : State → Prop} {s : State}

theorem inRun_keeps {k : Reply} (h : s.mode = .run → P k.st) (hs : P s) : P (inRun s k).st := by
  unfold inRun
  split
  · exact h ‹_›
  · exact hs

theorem inSetup_keeps {k : Reply} (h : s.mode = .setup → P k.st) (hs : P s) : P (inSetup s k).st := by
  unfold inSetup
  split
  · exact h ‹_›
  · exact hs

theorem admitting_keeps {ok : Bool} {k : Reply} (h : P k.st) (hs : P s) : P (admitting ok s k).st := by
  cases ok
  · exact hs
  · exact h

theorem formed_keeps {α : Type} {f : Option α} {k : α → Reply} (h : ∀ x, f = some x → P (k x).st) (hs : P s) :
    P (formed f s k).st := by
  cases f with
  | none => exact hs
  | some x => exact h x rfl

theorem checked_keeps {α : Type} {e : Except Code α} {k : α → Reply} (h : ∀ x, e = .ok x → P (k x).st) (hs : P s) :
    P (checked e s k).st := by
  cases e with
  | error c => exact hs
  | ok x => exact h x rfl

theorem reached_keeps {h : Handle} {k : Order → Reply} (hk : ∀ o, s.order? h = some o → P (k o).st) (hs : P s) :
    P (reached h s k).st := by
  cases e : s.order? h with
  | none => rw [reached_none e]; exact hs
  | some o => rw [reached_some e]; exact hk o e

end

/-! ### The property -/

/-- What a property of the part has to be kept by, for every step to keep it. -/
structure StepKeeps (P : State → Prop) : Prop where
  steady : ∀ {s t}, Steady s t → P s → P t
  powerOn : ∀ s : State, P { State.reset with pending := s.pending, draws := s.draws }
  place : ∀ {s o}, P s → s.mode = .run → o.planEntry = none → o.cls ≠ .plan →
    (o.guards.length ≤ 2 ∨ ∃ x m, s.template x = some m ∧ o.guards.length = m.guards.length) → P (placeOrder o s).1
  note : ∀ {s} d, P s → P (planNote d (measureDepth d s))
  put : ∀ {s e x}, P s → x.state = .dormant → s.overlapping e x = none → P (s.setEntry s.shadow e (some x))
  drop : ∀ {s} e, P s → P (s.setEntry s.shadow e none)
  swap : ∀ {s}, P s → P (swapBanks s)
  start : ∀ {s}, P s → s.mode = .setup → P (startRun s).st
  restart : ∀ {s}, P s → P (restartRun s)
  template : ∀ {s b f t x}, P s → formTemplate b = some f → checkTemplate s f = .ok (t, x) → P (s.setTemplate t x)
  bind : ∀ {s f a t} w, P s → checkBinding s f = .ok (a, t) → P (s.setBinding w a t)

theorem Except.bind_eq_ok {ε α β : Type} {x : Except ε α} {f : α → Except ε β} {b : β} (h : (x >>= f) = .ok b) :
    ∃ a, x = .ok a ∧ f a = .ok b := by
  cases x with
  | error e => cases h
  | ok a => exact ⟨a, rfl, h⟩

theorem guardFields_length : ∀ {fs : List GuardForm} {gs : List Guard}, guardFields fs = .ok gs → gs.length = fs.length
  | [], _, h => by cases h; rfl
  | _ :: _, _, h => by
    obtain ⟨g, -, h⟩ := Except.bind_eq_ok h
    obtain ⟨gs, hgs, h⟩ := Except.bind_eq_ok h
    cases h
    simp [guardFields_length hgs]

theorem formGuards_length : ∀ {n : Nat} {b : List Byte} {gs : List GuardForm}, formGuards n b = some gs → gs.length = n
  | 0, [], _, h => by cases h; rfl
  | n + 1, p :: rel :: t1 :: t0 :: act :: d1 :: d0 :: rest, gs, h => by
    rw [formGuards] at h
    obtain ⟨_, -, h⟩ := Option.bind_eq_some_iff.1 h
    obtain ⟨_, -, h⟩ := Option.bind_eq_some_iff.1 h
    obtain ⟨fs, hfs, h⟩ := Option.bind_eq_some_iff.1 h
    cases h
    simp [formGuards_length hfs]

theorem formPlace_guards {b : List Byte} {f : PlaceForm} (h : formPlace b = some f) : f.guards.length ≤ 2 := by
  unfold formPlace at h
  split at h
  · obtain ⟨_, -, h⟩ := Option.bind_eq_some_iff.1 h
    obtain ⟨_, -, h⟩ := Option.bind_eq_some_iff.1 h
    split at h
    · obtain ⟨gs, hgs, h⟩ := Option.bind_eq_some_iff.1 h
      cases h
      simpa [formGuards_length hgs]
    · cases h
  · cases h

/-- The order a PLACE lets through: of the sender's class, from no entry, with the guards of its body. -/
theorem checkPlace_order {s : State} {c : Cls} {f : PlaceForm} {o : Order} (h : checkPlace s c f = .ok o) :
    o.cls = c ∧ o.planEntry = none ∧ o.guards.length = f.guards.length := by
  unfold checkPlace at h
  obtain ⟨a, -, h⟩ := Except.bind_eq_ok h
  obtain ⟨_, -, h⟩ := Except.bind_eq_ok h
  obtain ⟨_, -, h⟩ := Except.bind_eq_ok h
  obtain ⟨_, -, h⟩ := Except.bind_eq_ok h
  obtain ⟨_, -, h⟩ := Except.bind_eq_ok h
  obtain ⟨_, -, h⟩ := Except.bind_eq_ok h
  obtain ⟨gs, hgs, h⟩ := Except.bind_eq_ok h
  obtain ⟨_, -, h⟩ := Except.bind_eq_ok h
  cases h
  exact ⟨rfl, rfl, by simp [newOrder, guardFields_length hgs]⟩

/-- The order an ISSUE lets through: of the sender's class, from no entry, with the guards of its template. -/
theorem checkIssue_order {s : State} {c : Cls} {f : IssueForm} {o : Order} (h : checkIssue s c f = .ok o) :
    o.cls = c ∧ o.planEntry = none ∧ ∃ x m, s.template x = some m ∧ o.guards.length = m.guards.length := by
  unfold checkIssue at h
  obtain ⟨t, -, h⟩ := Except.bind_eq_ok h
  cases ht : s.template t with
  | none => rw [ht] at h; cases h
  | some m =>
    rw [ht] at h
    obtain ⟨_, -, h⟩ := Except.bind_eq_ok h
    obtain ⟨_, -, h⟩ := Except.bind_eq_ok h
    obtain ⟨_, -, h⟩ := Except.bind_eq_ok h
    obtain ⟨_, -, h⟩ := Except.bind_eq_ok h
    cases h
    exact ⟨rfl, rfl, t, m, ht, by simp [newOrder]⟩

theorem classOf_ne_plan (g : Origin) : classOf g ≠ .plan := by cases g <;> simp [classOf]

/-- A change of the link port, the receiver, the pair, the queue of frames and the commands waiting. -/
theorem port_steady {s t : State} (h : { s with
    link := t.link, rx := t.rx, finishing := t.finishing, collided := t.collided, pair := t.pair, line := t.line
    txQueue := t.txQueue, noticesLost := t.noticesLost, draws := t.draws, pending := t.pending } = t) : Steady s t := by
  rw [← h]
  exact .of_slots ⟨rfl, rfl, rfl, rfl, rfl, rfl⟩ rfl rfl

namespace StepKeeps

variable {P : State → Prop}

theorem placed (K : StepKeeps P) {s : State} {o : Order} (hs : P s) (run : s.mode = .run) (entry : o.planEntry = none)
    (cls : o.cls ≠ .plan)
    (guards : o.guards.length ≤ 2 ∨ ∃ x m, s.template x = some m ∧ o.guards.length = m.guards.length) :
    P (placed o s).st := by
  have := K.place hs run entry cls guards
  unfold Machine.placed
  split
  · next h => rw [h] at this; exact this
  · exact hs

theorem emptyBank (K : StepKeeps P) {s : State} (hs : P s) : P (emptyBank s.shadow s) := by
  unfold Machine.emptyBank
  refine (List.foldlRecOn (motive := fun t : State => t.shadow = s.shadow ∧ P t) allEntries _ ⟨rfl, hs⟩
    fun t ⟨same, ht⟩ e _ => ⟨by rw [← same]; rfl, ?_⟩).2
  rw [← same]
  exact K.drop e ht

theorem issueOne (K : StepKeeps P) (w : IssueSet) (r : IssueRun) (a : Actuator) (run : r.st.mode = .run) (hs : P r.st) :
    (issueOne w r a).st.mode = .run ∧ P (issueOne w r a).st := by
  unfold Machine.issueOne
  dsimp only
  split
  · exact ⟨run, hs⟩
  · split
    · exact ⟨run, hs⟩
    · split
      · exact ⟨run, hs⟩
      · next tm ht =>
        split
        · refine ⟨?_, K.place hs run rfl (by simp [newOrder]) (.inr ⟨_, tm, ht, by simp [newOrder]⟩)⟩
          rw [← run]
          generalize hp : placeOrder _ r.st = placed
          obtain ⟨t, _ | ⟨h, old⟩⟩ := placed
          · exact (placeOrder_none hp).blocks.mode
          · exact (placeOrder_frame hp).blocks.mode
        · exact ⟨(forceActuator_steady a r.st).store.1.trans run, K.steady (forceActuator_steady a r.st) hs⟩

theorem internalIssue (K : StepKeeps P) (w : IssueSet) {s : State} (run : s.mode = .run) (hs : P s) :
    P (internalIssue w s).st := by
  unfold Machine.internalIssue
  exact (List.foldlRecOn (motive := fun r : IssueRun => r.st.mode = .run ∧ P r.st) allActuators _ ⟨run, hs⟩
    fun r ⟨run, hr⟩ a _ => K.issueOne w r a run hr).2

theorem linkLoss (K : StepKeeps P) {s : State} (run : s.mode = .run) (hs : P s) : P (linkLoss s) := by
  have lost := retireTethered_steady s
  unfold Machine.linkLoss
  exact K.internalIssue _ (lost.store.1.trans run) (K.steady lost hs)

theorem enterLost (K : StepKeeps P) (sending : Bool) {s : State} (hs : P s) : P (enterLost sending s) := by
  have port := K.steady (port_steady (s := s) (t := { s with
    link := { s.link with state := .lost, silence := none }, pair := .free, finishing := sending }) rfl) hs
  unfold Machine.enterLost
  dsimp only
  split
  · exact K.linkLoss ‹_› port
  · exact port

theorem takeBadFrame (K : StepKeeps P) {s : State} (hs : P s) : P (takeBadFrame s) := by
  have port : ∀ (l : LinkPort) (p : Pair) (f : Bool),
      P { s with link := l, rx := .hunting, collided := false, pair := p, finishing := f } :=
    fun _ _ _ => K.steady (port_steady rfl) hs
  unfold Machine.takeBadFrame
  dsimp only
  generalize (if s.link.badCount < 255 then s.link.badCount + 1 else 255) = n
  split
  · split
    · exact K.enterLost _ (port _ _ _)
    · exact port _ _ _
  · exact port _ _ _

theorem request (K : StepKeeps P) {kind : Byte} {r : Req} {s t : State} {block : State → Reply}
    (h : ∀ s, P s → P (block s).st) (e : request kind r s block = .next t) (hs : P s) : P t := by
  unfold Machine.request at e
  split at e <;> cases e
  · exact K.steady (port_steady rfl) (h _ (K.steady (port_steady rfl) hs))
  · exact K.takeBadFrame hs

theorem listen (K : StepKeeps P) {s : State} (rx : Receiver) (hs : P s) : P (listen rx s) := by
  unfold Machine.listen
  split
  · exact K.steady (port_steady rfl) hs
  · exact K.steady (port_steady rfl) hs

end StepKeeps

end Sys2Proof.Machine
end

section
/-! The traversal, command by command. -/

namespace Sys2Proof.Machine.StepKeeps

variable {P : State → Prop}

theorem done_keeps {s : State} {b : List Byte} (h : P s) : P (done s b).st := h

theorem done_steady {s t : State} {b : List Byte} (h : Steady s t) : Steady s (done t b).st := h

/-! ### The requests, by the block that owns them -/

theorem execPlace (K : StepKeeps P) {r : Req} {s t : State} (e : execPlace r s = .next t) (hs : P s) : P t := by
  unfold Machine.execPlace at e
  exact K.request (fun _ hs => inRun_keeps (fun run => formed_keeps (fun f hf => checked_keeps (fun o ho => by
    obtain ⟨cls, entry, guards⟩ := checkPlace_order ho
    exact K.placed hs run entry (cls ▸ classOf_ne_plan _) (.inl (guards ▸ formPlace_guards hf))) hs) hs) hs) e hs

theorem execIssue (K : StepKeeps P) {r : Req} {s t : State} (e : execIssue r s = .next t) (hs : P s) : P t := by
  unfold Machine.execIssue at e
  exact K.request (fun _ hs => inRun_keeps (fun run => formed_keeps (fun f _ => checked_keeps (fun o ho => by
    obtain ⟨cls, entry, guards⟩ := checkIssue_order ho
    exact K.placed hs run entry (cls ▸ classOf_ne_plan _) (.inr guards)) hs) hs) hs) e hs

theorem execAmend (K : StepKeeps P) {r : Req} {s t : State} (e : execAmend r s = .next t) (hs : P s) : P t := by
  unfold Machine.execAmend at e
  exact K.request (fun _ hs => inRun_keeps (fun _ => formed_keeps (fun f _ => checked_keeps (fun h _ =>
    reached_keeps (fun o _ => by
      split
      · exact checked_keeps (fun _ _ => done_keeps (K.steady (amendOrder_steady h o f _) hs)) hs
      · exact hs) hs) hs) hs) hs) e hs

theorem execRenew (K : StepKeeps P) {r : Req} {s t : State} (e : execRenew r s = .next t) (hs : P s) : P t := by
  unfold Machine.execRenew at e
  exact K.request (fun _ hs => inRun_keeps (fun _ => formed_keeps (fun _ _ => checked_keeps (fun _ _ =>
    reached_keeps (fun _ _ => by
      split
      · exact done_keeps (K.steady (.updOrder fun _ => ⟨rfl, rfl, rfl, rfl⟩) hs)
      · exact hs) hs) hs) hs) hs) e hs

theorem execWithdraw (K : StepKeeps P) {r : Req} {s t : State} (e : execWithdraw r s = .next t) (hs : P s) : P t := by
  unfold Machine.execWithdraw at e
  exact K.request (fun _ hs => inRun_keeps (fun _ => formed_keeps (fun _ _ => checked_keeps (fun h _ =>
    reached_keeps (fun _ _ => by
      split
      · refine done_keeps (K.steady ?_ hs)
        exact (retireCore_steady true h.slot (not_silent (by decide)) _).trans (settleGate_steady _)
      · exact hs) hs) hs) hs) hs) e hs

/-- A request that reports and changes nothing. -/
theorem report (K : StepKeeps P) {kind : Byte} {r : Req} {s t : State} {block : State → Reply}
    (e : Machine.request kind r s block = .next t) (h : ∀ s, (block s).st = s) (hs : P s) : P t :=
  K.request (fun _ hs => by rw [h]; exact hs) e hs

theorem formed_reports {α : Type} {f : Option α} {s : State} {k : α → Reply} (h : ∀ x, (k x).st = s) :
    (formed f s k).st = s := by cases f <;> simp [h]

theorem checked_reports {α : Type} {x : Except Code α} {s : State} {k : α → Reply} (h : ∀ x, (k x).st = s) :
    (checked x s k).st = s := by cases x <;> simp [h]

theorem reached_reports {h : Handle} {s : State} {k : Order → Reply} (hk : ∀ o, (k o).st = s) :
    (reached h s k).st = s := by unfold reached; split <;> simp [hk]

theorem admitting_reports {ok : Bool} {s : State} {k : Reply} (h : k.st = s) : (admitting ok s k).st = s := by
  cases ok <;> simp [admitting, h]

/-- A request of the operator that is steady once its form and its values are accepted. -/
theorem steadyRequest (K : StepKeeps P) {kind : Byte} {r : Req} {s t : State} {block : State → Reply}
    (e : Machine.request kind r s block = .next t) (h : ∀ s, Steady s (block s).st) (hs : P s) : P t :=
  K.request (fun _ hs => K.steady (h _) hs) e hs

theorem formed_steady {α : Type} {f : Option α} {s : State} {k : α → Reply} (h : ∀ x, Steady s (k x).st) :
    Steady s (formed f s k).st := formed_keeps (fun x _ => h x) (.refl s)

theorem checked_steady {α : Type} {x : Except Code α} {s : State} {k : α → Reply} (h : ∀ x, Steady s (k x).st) :
    Steady s (checked x s k).st := checked_keeps (fun x _ => h x) (.refl s)

theorem admitting_steady {ok : Bool} {s : State} {k : Reply} (h : Steady s k.st) : Steady s (admitting ok s k).st :=
  admitting_keeps h (.refl s)

theorem inRun_steady {s : State} {k : Reply} (h : Steady s k.st) : Steady s (inRun s k).st :=
  inRun_keeps (fun _ => h) (.refl s)

theorem inSetup_steady {s : State} {k : Reply} (h : Steady s k.st) : Steady s (inSetup s k).st :=
  inSetup_keeps (fun _ => h) (.refl s)

theorem execDepth (K : StepKeeps P) {r : Req} {s t : State} (e : execDepth r s = .next t) (hs : P s) : P t := by
  unfold Machine.execDepth at e
  exact K.request (fun _ hs => admitting_keeps (formed_keeps (fun d _ => checked_keeps (fun _ _ => done_keeps (K.note d hs)) hs) hs) hs) e hs

theorem execPutEntry (K : StepKeeps P) {r : Req} {s t : State} (e : execPutEntry r s = .next t) (hs : P s) : P t := by
  unfold Machine.execPutEntry at e
  exact K.request (fun _ hs => admitting_keeps (formed_keeps (fun f _ => checked_keeps (fun (en, x) hx => by
    dsimp only
    split
    · exact hs
    · next apart =>
      refine done_keeps (K.put hs ?_ apart)
      unfold checkEntry at hx
      obtain ⟨_, -, hx⟩ := Except.bind_eq_ok hx
      obtain ⟨_, -, hx⟩ := Except.bind_eq_ok hx
      obtain ⟨_, -, hx⟩ := Except.bind_eq_ok hx
      obtain ⟨_, -, hx⟩ := Except.bind_eq_ok hx
      obtain ⟨_, -, hx⟩ := Except.bind_eq_ok hx
      obtain ⟨_, -, hx⟩ := Except.bind_eq_ok hx
      obtain ⟨_, -, hx⟩ := Except.bind_eq_ok hx
      cases hx
      rfl) hs) hs) hs) e hs

theorem execDropEntry (K : StepKeeps P) {r : Req} {s t : State} (e : execDropEntry r s = .next t) (hs : P s) : P t := by
  unfold Machine.execDropEntry at e
  exact K.request (fun _ hs => admitting_keeps (formed_keeps (fun _ _ => checked_keeps (fun en _ => done_keeps (K.drop en hs)) hs) hs) hs)
    e hs

theorem execClearShadow (K : StepKeeps P) {r : Req} {s t : State} (e : execClearShadow r s = .next t) (hs : P s) : P t := by
  unfold Machine.execClearShadow at e
  exact K.request (fun _ hs => admitting_keeps (formed_keeps (fun _ _ => done_keeps (K.emptyBank hs)) hs) hs) e hs

theorem execSwap (K : StepKeeps P) {r : Req} {s t : State} (e : execSwap r s = .next t) (hs : P s) : P t := by
  unfold Machine.execSwap at e
  exact K.request (fun _ hs => admitting_keeps (formed_keeps (fun _ _ => done_keeps (K.swap hs)) hs) hs) e hs

theorem execPutTemplate (K : StepKeeps P) {r : Req} {s t : State} (e : execPutTemplate r s = .next t) (hs : P s) : P t := by
  unfold Machine.execPutTemplate at e
  exact K.request (fun _ hs => admitting_keeps (formed_keeps (fun _ hf => checked_keeps (fun (_, _) hx =>
    done_keeps (K.template hs hf hx)) hs) hs) hs) e hs

theorem bindRequest (K : StepKeeps P) (w : IssueSet) {kind : Byte} {r : Req} {s t : State}
    (e : Machine.request kind r s (Machine.bind w r) = .next t) (hs : P s) : P t :=
  K.request (fun _ hs => admitting_keeps (formed_keeps (fun _ _ => checked_keeps (fun (_, _) hx =>
    done_keeps (K.bind w hs hx)) hs) hs) hs) e hs

theorem execHalt (K : StepKeeps P) {r : Req} {s t : State} (e : execHalt r s = .next t) (hs : P s) : P t := by
  unfold Machine.execHalt at e
  exact K.request (fun _ hs => inRun_keeps (fun run => admitting_keeps (formed_keeps (fun _ _ =>
    done_keeps (K.internalIssue .halt run hs)) hs) hs) hs) e hs

theorem execStart (K : StepKeeps P) {r : Req} {s t : State} (e : execStart r s = .next t) (hs : P s) : P t := by
  unfold Machine.execStart at e
  exact K.request (fun _ hs => inSetup_keeps (fun setup => admitting_keeps (formed_keeps (fun _ _ =>
    done_keeps (K.start hs setup)) hs) hs) hs) e hs

theorem execRestart (K : StepKeeps P) {r : Req} {s t : State} (e : execRestart r s = .next t) (hs : P s) : P t := by
  unfold Machine.execRestart at e
  exact K.request (fun _ hs => inRun_keeps (fun _ => admitting_keeps (formed_keeps (fun _ _ => done_keeps (K.restart hs)) hs) hs) hs) e hs

theorem setFrozen_steady (r : Req) (on : Bool) (s : State) : Steady s (setFrozen r on s).st :=
  admitting_steady (formed_steady fun _ => checked_steady fun a => done_steady (setMap_steady s a _))

/-- Every request keeps the property. -/
theorem requests (K : StepKeeps P) : ∀ c r k s t, frameOf c = some (r, k) → exec c s = .next t → P s → P t := by
  intro c r k s t f e hs
  cases c with
  | place r => exact K.execPlace e hs
  | issue r => exact K.execIssue e hs
  | amend r => exact K.execAmend e hs
  | renew r => exact K.execRenew e hs
  | withdraw r => exact K.execWithdraw e hs
  | query r =>
    unfold exec Machine.execQuery at e
    exact K.report e (fun _ => formed_reports fun _ => checked_reports fun _ => reached_reports fun _ => rfl) hs
  | list r =>
    unfold exec Machine.execList at e
    exact K.report e (fun _ => formed_reports fun _ => checked_reports fun (_, _) => rfl) hs
  | lowest r =>
    unfold exec Machine.execLowest at e
    exact K.steadyRequest e (fun s => inRun_steady (admitting_steady (formed_steady fun f => checked_steady fun a =>
      done_steady (setLowest_steady a f.2 s)))) hs
  | mask r =>
    unfold exec Machine.execMask at e
    exact K.steadyRequest e (fun s => inRun_steady (admitting_steady (formed_steady fun f => checked_steady fun a =>
      done_steady (setMask_steady a f.2 true s)))) hs
  | unmask r =>
    unfold exec Machine.execUnmask at e
    exact K.steadyRequest e (fun s => inRun_steady (admitting_steady (formed_steady fun f => checked_steady fun a =>
      done_steady (setMask_steady a f.2 false s)))) hs
  | yield r =>
    unfold exec Machine.execYield at e
    exact K.steadyRequest e (fun s => inRun_steady (admitting_steady (formed_steady fun f => checked_steady fun a =>
      done_steady (setYield_steady a f.2 s)))) hs
  | view r =>
    unfold exec Machine.execView at e
    exact K.report e (fun _ => formed_reports fun _ => checked_reports fun _ => rfl) hs
  | setLimits r =>
    unfold exec Machine.execSetLimits at e
    exact K.steadyRequest e (fun s => inSetup_steady (admitting_steady (formed_steady fun _ => checked_steady fun a =>
      done_steady (updLane_steady s a _)))) hs
  | setSettle r =>
    unfold exec Machine.execSetSettle at e
    exact K.steadyRequest e (fun s => inSetup_steady (admitting_steady (formed_steady fun f => checked_steady fun a =>
      done_steady (applySettle_steady a f s)))) hs
  | setInterlock r =>
    unfold exec Machine.execSetInterlock at e
    exact K.steadyRequest e (fun s => inSetup_steady (admitting_steady (formed_steady fun _ => checked_steady fun w =>
      done_steady (setInterlock_steady s w _)))) hs
  | depth r => exact K.execDepth e hs
  | setDrift r =>
    unfold exec Machine.execSetDrift at e
    exact K.steadyRequest e (fun s => admitting_steady (formed_steady fun f => checked_steady fun _ =>
      done_steady (seedDrift_steady f.1 f.2 s))) hs
  | readPoints r =>
    unfold exec Machine.execReadPoints at e
    exact K.report e (fun _ => formed_reports fun _ => checked_reports fun _ => rfl) hs
  | setModule r =>
    unfold exec Machine.execSetModule at e
    exact K.steadyRequest e (fun s => inSetup_steady (admitting_steady (formed_steady fun f => checked_steady fun _ =>
      done_steady (applyModule_steady f s)))) hs
  | setDepthStale r =>
    unfold exec Machine.execSetDepthStale at e
    exact K.steadyRequest e (fun s => inSetup_steady (admitting_steady (formed_steady fun n => checked_steady fun _ =>
      done_steady (applyDepthStale_steady n s)))) hs
  | putEntry r => exact K.execPutEntry e hs
  | dropEntry r => exact K.execDropEntry e hs
  | clearShadow r => exact K.execClearShadow e hs
  | readEntry r =>
    unfold exec Machine.execReadEntry at e
    exact K.report e (fun _ => admitting_reports (formed_reports fun _ => checked_reports fun _ => rfl)) hs
  | swap r => exact K.execSwap e hs
  | mapActuator r =>
    unfold exec Machine.execMapActuator at e
    exact K.steadyRequest e (fun s => admitting_steady (formed_steady fun _ => checked_steady fun (a, c) =>
      done_steady (applyMap_steady a c s))) hs
  | spare r =>
    unfold exec Machine.execSpare at e
    exact K.steadyRequest e (fun s => admitting_steady (formed_steady fun _ => checked_steady fun (a, _) =>
      done_steady (setMap_steady s a _))) hs
  | freezeMap r =>
    unfold exec Machine.execFreezeMap at e
    exact K.steadyRequest e (setFrozen_steady r true) hs
  | thaw r =>
    unfold exec Machine.execThaw at e
    exact K.steadyRequest e (setFrozen_steady r false) hs
  | clearFault r =>
    unfold exec Machine.execClearFault at e
    exact K.steadyRequest e (fun s => admitting_steady (formed_steady fun _ => checked_steady fun c =>
      done_steady (setChan_steady s c _))) hs
  | setLocal r =>
    unfold exec Machine.execSetLocal at e
    exact K.steadyRequest e (fun s => admitting_steady (formed_steady fun f => checked_steady fun c =>
      done_steady (setLocalDuty_steady c f.2 s))) hs
  | forceLocal r =>
    unfold exec Machine.execForceLocal at e
    exact K.steadyRequest e (fun s => admitting_steady (formed_steady fun _ => checked_steady fun c =>
      done_steady (forceChan_steady c s))) hs
  | restore r =>
    unfold exec Machine.execRestore at e
    exact K.steadyRequest e (fun s => admitting_steady (formed_steady fun _ => checked_steady fun c =>
      done_steady (restoreChan_steady c s))) hs
  | readChannel r =>
    unfold exec Machine.execReadChannel at e
    exact K.report e (fun _ => formed_reports fun _ => checked_reports fun _ => rfl) hs
  | setCalibration r =>
    unfold exec Machine.execSetCalibration at e
    exact K.steadyRequest e (fun s => inSetup_steady (admitting_steady (formed_steady fun _ => checked_steady fun _ =>
      done_steady (.of_slots ⟨rfl, rfl, rfl, rfl, rfl, rfl⟩ rfl rfl)))) hs
  | putTemplate r => exact K.execPutTemplate e hs
  | readTemplate r =>
    unfold exec Machine.execReadTemplate at e
    exact K.report e (fun _ => formed_reports fun _ => checked_reports fun _ => rfl) hs
  | setFallback r =>
    unfold exec Machine.execSetFallback at e
    exact K.bindRequest .fallback e hs
  | setHalt r =>
    unfold exec Machine.execSetHalt at e
    exact K.bindRequest .halt e hs
  | halt r => exact K.execHalt e hs
  | setLink r =>
    unfold exec Machine.execSetLink at e
    exact K.steadyRequest e (fun s => inSetup_steady (admitting_steady (formed_steady fun _ => checked_steady fun _ =>
      done_steady (port_steady rfl)))) hs
  | start r => exact K.execStart e hs
  | restart r => exact K.execRestart e hs
  | status r =>
    unfold exec Machine.execStatus at e
    exact K.steadyRequest e (fun s => formed_steady fun _ => done_steady (port_steady rfl)) hs
  | unknownRequest r kind =>
    change Machine.execUnknownRequest r kind s = _ at e
    unfold Machine.execUnknownRequest at e
    split at e
    · cases e; exact hs
    · exact K.report e (fun _ => rfl) hs
  | _ => cases f

end Sys2Proof.Machine.StepKeeps
end

section
/-! The traversal: the events, and the step. -/

namespace Sys2Proof.Machine.StepKeeps

variable {P : State → Prop}

theorem setDetector_steady (s : State) (a : Actuator) (d : Detector) : Steady s (setDetector a d s) :=
  updLane_steady s a _

theorem takeBytes (K : StepKeeps P) {bytes : List Byte} {s t : State} (e : takeBytes bytes s = .next t) (hs : P s) : P t :=
  takeBytes_keeps (P := P) (fun _ _ => K.listen _) (fun _ => K.takeBadFrame) K.requests bytes s t e hs

theorem execInterByteTimeout (K : StepKeeps P) {bytes : List Byte} {s t : State}
    (e : execInterByteTimeout bytes s = .next t) (hs : P s) : P t := by
  unfold Machine.execInterByteTimeout at e
  split at e
  · next u hu =>
    have taken := K.takeBytes hu hs
    split at e <;> obtain rfl := Host.Outcome.next.inj e
    · exact taken
    · exact K.takeBadFrame taken
  · next o ho => exact absurd e (ho t)

theorem execSilenceExpiry (K : StepKeeps P) {s t : State} (e : execSilenceExpiry s = .next t) (hs : P s) : P t := by
  unfold Machine.execSilenceExpiry at e
  split at e <;> obtain rfl := Host.Outcome.next.inj e
  · exact K.enterLost _ hs
  · exact hs

theorem execFrameSent (K : StepKeeps P) {s t : State} (e : execFrameSent s = .next t) (hs : P s) : P t := by
  unfold Machine.execFrameSent at e
  split at e
  · cases e; exact hs
  · split at e <;> obtain rfl := Host.Outcome.next.inj e
    · exact K.steady (port_steady rfl) hs
    · exact hs

theorem execLeaseExpiry (K : StepKeeps P) {h : Handle} {s t : State} (e : execLeaseExpiry h s = .next t) (hs : P s) :
    P t := by
  unfold Machine.execLeaseExpiry at e
  split at e
  · split at e <;> obtain rfl := Host.Outcome.next.inj e
    · exact K.steady (retire_steady _ (not_silent (by decide)) s) hs
    · exact hs
  · cases e; exact hs

theorem execControlInterval (K : StepKeeps P) {a : Actuator} {s t : State} (e : execControlInterval a s = .next t)
    (hs : P s) : P t := by
  unfold Machine.execControlInterval at e
  split at e <;> obtain rfl := Host.Outcome.next.inj e
  · exact K.steady ((updLane_steady s a _).trans (moveCommand_steady a _)) hs
  · exact hs

theorem execSettleDwellExpiry (K : StepKeeps P) {a : Actuator} {s t : State} (e : execSettleDwellExpiry a s = .next t)
    (hs : P s) : P t := by
  unfold Machine.execSettleDwellExpiry at e
  split at e
  · split at e <;> obtain rfl := Host.Outcome.next.inj e
    · exact K.steady ((setDetector_steady s a _).trans (settleOrder_steady _ _)) hs
    · exact hs
  · cases e; exact hs

theorem execGateTravelComplete (K : StepKeeps P) {s t : State} (e : execGateTravelComplete s = .next t) (hs : P s) :
    P t := by
  unfold Machine.execGateTravelComplete at e
  split at e <;> obtain rfl := Host.Outcome.next.inj e
  · exact K.steady ((travel_steady s .complete).trans (settleGate_steady _)) hs
  · exact hs

theorem execGuardDwellExpiry (K : StepKeeps P) {h : Handle} {g : Fin 2} {s t : State}
    (e : execGuardDwellExpiry h g s = .next t) (hs : P s) : P t := by
  unfold Machine.execGuardDwellExpiry at e
  split at e
  · cases e; exact hs
  · split at e
    · cases e; exact hs
    · split at e <;> obtain rfl := Host.Outcome.next.inj e
      · exact K.steady (guardAct_steady _ _ _ s) hs
      · exact hs

theorem execModuleStaleExpiry (K : StepKeeps P) {m : Module} {s t : State} (e : execModuleStaleExpiry m s = .next t)
    (hs : P s) : P t := by
  unfold Machine.execModuleStaleExpiry at e
  split at e <;> obtain rfl := Host.Outcome.next.inj e
  · exact K.steady (staleModule_steady m s) hs
  · exact hs

theorem execDepthStaleExpiry (K : StepKeeps P) {s t : State} (e : execDepthStaleExpiry s = .next t) (hs : P s) : P t := by
  unfold Machine.execDepthStaleExpiry at e
  split at e <;> obtain rfl := Host.Outcome.next.inj e
  · exact K.steady (staleDepth_steady s) hs
  · exact hs

theorem execDirectSample (K : StepKeeps P) {p : DirectPoint} {i : Nat} {v : Int} {s t : State}
    (e : execDirectSample p i v s = .next t) (hs : P s) : P t := by
  unfold Machine.execDirectSample at e
  split at e <;> obtain rfl := Host.Outcome.next.inj e
  · exact K.steady (takeDirect_steady p _ s) hs
  · exact K.steady (takeDirect_steady p _ s) hs
  · exact K.steady (recoverDirect_steady p _ s) hs
  · exact K.steady (faultDirect_steady p s) hs
  · exact K.steady (faultDirect_steady p s) hs
  · exact K.steady (setDirect_steady s p _) hs

theorem execModuleReadingFrame (K : StepKeeps P) {bytes : List Byte} {s t : State}
    (e : execModuleReadingFrame bytes s = .next t) (hs : P s) : P t := by
  unfold Machine.execModuleReadingFrame at e
  split at e
  · cases e; exact hs
  · split at e
    · cases e; exact hs
    · split at e <;> obtain rfl := Host.Outcome.next.inj e
      · exact K.steady (goodFrame_steady _ _ s) hs
      · exact K.steady (badModuleFrame_steady _ s) hs

theorem execChannelFaultReport (K : StepKeeps P) {c : Chan} {k : FaultKind} {s t : State}
    (e : execChannelFaultReport c k s = .next t) (hs : P s) : P t := by
  have health := setChan_steady s c { s.chan c with fault := some k }
  unfold Machine.execChannelFaultReport at e
  dsimp only at e
  split at e
  · split at e
    · cases e; exact K.steady health hs
    · split at e <;> obtain rfl := Host.Outcome.next.inj e
      · exact K.steady ((health.trans (moveActuator_steady _ _ _)).trans (queueNotice_steady _ _ _)) hs
      · exact K.steady (health.trans (actuatorDown_steady _ _ _)) hs
  · cases e; exact K.steady health hs

/-- Every command keeps the property. -/
theorem exec (K : StepKeeps P) : ∀ c s t, exec c s = .next t → P s → P t := by
  intro c s t e hs
  cases c with
  | powerOn => cases e; exact K.powerOn s
  | badFrame bytes => exact K.takeBytes e hs
  | interByteTimeout bytes => exact K.execInterByteTimeout e hs
  | silenceExpiry => exact K.execSilenceExpiry e hs
  | frameSent => exact K.execFrameSent e hs
  | leaseExpiry h => exact K.execLeaseExpiry e hs
  | controlInterval a => exact K.execControlInterval e hs
  | settleDwellExpiry a => exact K.execSettleDwellExpiry e hs
  | gateTravelComplete => exact K.execGateTravelComplete e hs
  | guardDwellExpiry h g => exact K.execGuardDwellExpiry e hs
  | moduleStaleExpiry m => exact K.execModuleStaleExpiry e hs
  | depthStaleExpiry => exact K.execDepthStaleExpiry e hs
  | directSample p i v => exact K.execDirectSample e hs
  | moduleReadingFrame bytes => exact K.execModuleReadingFrame e hs
  | channelFaultReport c k => exact K.execChannelFaultReport e hs
  | unknownRequest r kind =>
    change Machine.execUnknownRequest r kind s = _ at e
    unfold Machine.execUnknownRequest at e
    split at e
    · cases e; exact hs
    · exact K.report e (fun _ => rfl) hs
  | _ => exact K.requests _ _ _ s t rfl e hs

/-- Every step keeps the property: a command of the queue, an expiry that is due, or one millisecond. -/
theorem step (K : StepKeeps P) {s t : State} (e : step s = .next t) (hs : P s) : P t := by
  unfold Machine.step at e
  split at e
  · exact K.exec _ _ _ e (K.steady (port_steady rfl) hs)
  · unfold idle at e
    split at e
    · cases e; exact K.steady (tick_steady s) hs
    · exact K.exec _ _ _ e hs
    · exact K.exec _ _ _ e hs
    · exact K.exec _ _ _ e (K.steady (draws_steady s _) hs)

end Sys2Proof.Machine.StepKeeps
end

section
/-! Laws of the tables taken one by one: what keeps one under every step, whatever the plan store does. -/

namespace Sys2Proof.Machine

/-! ### Loose operations -/

/-- No order is created or leaves its seat, entries keep their fields, and templates and bindings stay. -/
structure Loose (s t : State) : Prop where
  orders : ∀ i p, t.orderAt i = some p → ∃ o, s.orderAt i = some o ∧ o.sameSeat p
  fields : ∀ b e, (t.entry b e).map PlanEntry.fields = (s.entry b e).map PlanEntry.fields
  templates : t.templates = s.templates
  fallback : t.fallback = s.fallback
  halt : t.halt = s.halt

theorem Steady.loose {s t : State} (h : Steady s t) : Loose s t :=
  ⟨fun i p hp => (h.orders i p hp).imp fun _ k => ⟨k.1, k.2.1⟩, h.fields, h.store.2.2.2.1, h.store.2.2.2.2.1,
    h.store.2.2.2.2.2⟩

theorem EngineFrame.loose {s t : State} (h : EngineFrame s t) : Loose s t :=
  ⟨fun i p hp => (h.orders i p hp).imp fun _ k => ⟨k.1, Order.kept_sameSeat k.2.1⟩, h.tables.entries,
    h.blocks.templates, h.blocks.fallback, h.blocks.halt⟩

theorem Loose.refl (s : State) : Loose s s := (Steady.refl s).loose

theorem Loose.trans {s t u : State} (h : Loose s t) (k : Loose t u) : Loose s u where
  orders i q hq := by
    obtain ⟨p, hp, c, a, e, n⟩ := k.orders i q hq
    obtain ⟨o, ho, c', a', e', n'⟩ := h.orders i p hp
    exact ⟨o, ho, c.trans c', a.trans a', e.trans e', n.trans n'⟩
  fields b e := (k.fields b e).trans (h.fields b e)
  templates := k.templates.trans h.templates
  fallback := k.fallback.trans h.fallback
  halt := k.halt.trans h.halt

/-- A write outside orders, entries, templates and bindings. -/
theorem Loose.of_tables {s t : State} (slots : t.slots = s.slots) (banks : t.banks = s.banks)
    (templates : t.templates = s.templates) (fallback : t.fallback = s.fallback) (halt : t.halt = s.halt) : Loose s t :=
  ⟨fun i p hp => ⟨p, by rw [← hp, State.orderAt, State.orderAt, slot_of_slots slots], rfl, rfl, rfl, rfl⟩,
    fun b e => by rw [entry_of_banks banks], templates, fallback, halt⟩

theorem setEntryState_loose (s : State) (b : BankIx) (e : EntryIx) (x : EntryState) :
    Loose s (s.setEntryState b e x) := (setEntryState_frame s b e x).loose

theorem foldl_loose {α : Type} {f : State → α → State} (hf : ∀ s x, Loose s (f s x)) (l : List α) (s : State) :
    Loose s (l.foldl f s) :=
  List.foldlRecOn l f (Loose.refl s) fun _ h x _ => h.trans (hf _ x)

theorem sleepBank_loose (b : BankIx) (s : State) : Loose s (sleepBank b s) := by
  unfold sleepBank
  exact foldl_loose (fun s e => setEntryState_loose s b e _) allEntries s

theorem placeEntries_loose (d : Option Int) (s : State) : Loose s (placeEntries d s) := by
  unfold placeEntries overEntries
  refine foldl_loose (fun s e => ?_) allEntries s
  split
  · exact setEntryState_loose s _ e _
  · exact .refl s

theorem depth_loose (s : State) (d : DepthState) : Loose s { s with depth := d } := .of_tables rfl rfl rfl rfl rfl

/-- DEP's value is written, the rest of a depth note is steady. -/
theorem measureDepth_loose (d : Int) (s : State) : Loose s (measureDepth d s) := by
  unfold measureDepth takeDepth
  refine Loose.trans ?_ (handPoint_steady _ _).loose
  exact (driftNote_steady d s).loose.trans (depth_loose _ _)

theorem testActuator_steady (r : StartRun) (a : Actuator) : Steady r.st (testActuator r a).st := by
  unfold testActuator
  dsimp only
  split
  · exact .refl _
  · split
    · exact (moveActuator_steady a _ r.st).trans (queueNotice_steady _ _ _)
    · refine Steady.trans ?_ (queueNotice_steady _ _ _)
      unfold leaveDown
      split
      · exact (releaseChan_steady _ r.st).trans (assign_steady a none _)
      · exact .refl _

theorem enterOrder_steady (s : State) (a : Actuator) : Steady s (enterOrder s a) := by
  unfold enterOrder
  split
  · split
    · exact .refl s
    · exact setChan_steady s _ _
  · exact .refl s

theorem leaveOff_steady (s : State) (a : Actuator) : Steady s (leaveOff s a) := by
  unfold leaveOff
  split
  · exact laneRest_steady a s
  · exact laneDown_steady a s

theorem refreshFlags_steady (s : State) : Steady s (refreshFlags s) :=
  (setInterlock_steady s 0 _).trans (setInterlock_steady _ 1 _)

theorem laneOff_steady (s : State) (a : Actuator) : Steady s (laneOff s a) := updLane_steady s a _

theorem restartChan_steady (s : State) (c : Chan) : Steady s (restartChan s c) := by
  unfold restartChan
  split
  · exact releaseChan_steady c s
  · exact .refl s

theorem mode_loose (s : State) (m : Mode) : Loose s { s with mode := m } := .of_tables rfl rfl rfl rfl rfl

theorem active_loose (s : State) (b : BankIx) : Loose s { s with active := b } := .of_tables rfl rfl rfl rfl rfl

theorem restartRun_loose (s : State) : Loose s (restartRun s) := by
  unfold restartRun
  dsimp only
  refine Loose.trans ?_ (refreshFlags_steady _).loose
  refine Loose.trans ?_ (mode_loose _ _)
  refine Loose.trans ?_ (sleepBank_loose 1 _)
  refine Loose.trans ?_ (sleepBank_loose 0 _)
  refine Loose.trans ?_ (foldl_loose (fun s c => (restartChan_steady s c).loose) allChans _)
  refine Loose.trans ?_ (travel_steady _ _).loose
  refine Loose.trans ?_ (foldl_loose (fun s a => (laneOff_steady s a).loose) allActuators _)
  exact foldl_loose (fun s i => (retireOne_frame false i .restart s).loose) allSlots s

/-- START before its evaluation of the active bank is steady, once the mode is RUN. -/
theorem startLanes_steady (s : State) :
    Steady s (allActuators.foldl leaveOff (refreshFlags (allActuators.foldl enterOrder
      (allActuators.foldl testActuator ⟨s, 0, 0⟩).st))) := by
  have tested : Steady s (allActuators.foldl testActuator ⟨s, 0, 0⟩).st :=
    List.foldlRecOn (motive := fun r : StartRun => Steady s r.st) allActuators _ (Steady.refl s)
      fun r h a _ => h.trans (testActuator_steady r a)
  refine Steady.trans ?_ (Steady.foldl leaveOff_steady allActuators _)
  refine Steady.trans ?_ (refreshFlags_steady _)
  exact tested.trans (Steady.foldl enterOrder_steady allActuators _)

/-! ### A law of the tables -/

/-- What keeps a law of the tables, of orders, entries, templates or bindings, under every step. -/
structure TableLaw (P : State → Prop) : Prop where
  reset : P State.reset
  loose : ∀ {s t}, Loose s t → P s → P t
  place : ∀ {s o}, P s → (o.guards.length ≤ 2 ∨ ∃ x m, s.template x = some m ∧ o.guards.length = m.guards.length) →
    P (placeOrder o s).1
  put : ∀ {s e x}, P s → s.overlapping e x = none → P (s.setEntry s.shadow e (some x))
  drop : ∀ {s} e, P s → P (s.setEntry s.shadow e none)
  template : ∀ {s b f t x}, P s → formTemplate b = some f → checkTemplate s f = .ok (t, x) → P (s.setTemplate t x)
  bind : ∀ {s f a t} w, P s → checkBinding s f = .ok (a, t) → P (s.setBinding w a t)

namespace TableLaw

variable {P : State → Prop}

theorem overEntries {f : EntryIx → PlanEntry → State → State}
    (hf : ∀ e x s, P s → P (f e x s)) {s : State} (hs : P s) : P (overEntries f s) := by
  unfold Machine.overEntries
  refine List.foldlRecOn allEntries _ hs fun t ht e _ => ?_
  split
  · exact hf e _ t ht
  · exact ht

theorem spawn (K : TableLaw P) (e : EntryIx) {s : State} (hs : P s) : P (spawn e s) := by
  unfold Machine.spawn
  split
  · exact hs
  · next x _ =>
    split
    · exact K.loose ((setEntryState_loose s _ _ _).trans (queueNotice_steady _ _ _).loose) hs
    · have placed := K.place (o := planOrder s.active e x) hs (.inl (by simp [planOrder, newOrder]))
      split
      · next t h old hp => rw [hp] at placed; exact K.loose (setEntryState_loose t _ _ _) placed
      · next t hp => rw [hp] at placed; exact placed

theorem evaluateBank (K : TableLaw P) {s : State} (hs : P s) : P (evaluateBank s) := by
  have hp := K.loose (placeEntries_loose s.depth.value s) hs
  unfold Machine.evaluateBank spawnEntries
  split
  · exact hp
  · refine TableLaw.overEntries (fun e x t ht => ?_) hp
    split
    · exact K.spawn e ht
    · exact ht

theorem noteRetire (K : TableLaw P) (d : Int) (e : EntryIx) (x : PlanEntry) {s : State} (hs : P s) :
    P (noteRetire d e x s) := by
  unfold Machine.noteRetire
  split
  · split
    · exact hs
    · refine K.loose (setEntryState_loose _ _ _ _) ?_
      split
      · exact K.loose (retire_frame _ _ s).loose hs
      · exact hs
  · exact hs

theorem noteRearm (K : TableLaw P) (d : Int) (e : EntryIx) (x : PlanEntry) {s : State} (hs : P s) :
    P (noteRearm d e x s) := by
  unfold Machine.noteRearm
  split
  · split
    · exact hs
    · exact K.loose (setEntryState_loose _ _ _ _) hs
  · split
    · exact hs
    · exact K.loose (setEntryState_loose _ _ _ _) hs
  · exact hs

theorem noteSpawn (K : TableLaw P) (d : Int) (e : EntryIx) (x : PlanEntry) {s : State} (hs : P s) :
    P (noteSpawn d e x s) := by
  unfold Machine.noteSpawn
  split
  · split
    · exact K.spawn e hs
    · exact K.loose (setEntryState_loose _ _ _ _) hs
  · split
    · exact K.spawn e hs
    · exact K.loose (setEntryState_loose _ _ _ _) hs
  · exact hs

theorem planNote (K : TableLaw P) (d : Int) {s : State} (hs : P s) : P (planNote d s) := by
  unfold Machine.planNote
  split
  · exact TableLaw.overEntries (fun e x _ => K.noteSpawn d e x) (TableLaw.overEntries (fun e x _ => K.noteRearm d e x)
      (TableLaw.overEntries (fun e x _ => K.noteRetire d e x) hs))
  · exact hs

theorem swapRetire (K : TableLaw P) (e : EntryIx) (x : PlanEntry) {s : State} (hs : P s) : P (swapRetire e x s) := by
  unfold Machine.swapRetire
  split
  · split
    · exact K.loose (retire_frame _ _ s).loose hs
    · exact hs
  · exact hs

theorem swapBanks (K : TableLaw P) {s : State} (hs : P s) : P (swapBanks s) := by
  unfold Machine.swapBanks
  dsimp only
  split
  · refine K.evaluateBank (K.loose (active_loose _ _) (K.loose (sleepBank_loose _ _) ?_))
    exact TableLaw.overEntries (fun e x _ => K.swapRetire e x) hs
  · exact K.loose (active_loose s _) hs

theorem startRun (K : TableLaw P) {s : State} (hs : P s) : P (startRun s).st := by
  unfold Machine.startRun
  dsimp only
  exact K.evaluateBank (K.loose ((mode_loose s .run).trans (startLanes_steady _).loose) hs)

theorem stepKeeps (K : TableLaw P) : StepKeeps P where
  steady h := K.loose h.loose
  powerOn _ := K.loose (port_steady rfl).loose K.reset
  place hs _ _ _ hg := K.place hs hg
  note d hs := K.planNote d (K.loose (measureDepth_loose d _) hs)
  put hs _ h := K.put hs h
  drop e hs := K.drop e hs
  swap hs := K.swapBanks hs
  start hs _ := K.startRun hs
  restart hs := K.loose (restartRun_loose _) hs
  template hs hf hx := K.template hs hf hx
  bind w hs hx := K.bind w hs hx

end TableLaw

end Sys2Proof.Machine
end

section
/-! Positions, bands, guards and bindings: four laws of the tables, kept by every step. -/

namespace Sys2Proof.Machine

/-! ### The order of a position -/

theorem findOrder_some {s : State} {a : Actuator} {c : Cls} {i : Slot} (h : s.findOrder a c = some i) :
    ∃ o, s.orderAt i = some o ∧ o.actuator = a ∧ o.cls = c := by
  have := List.find?_some h
  cases ho : s.orderAt i with
  | none => simp [ho] at this
  | some o => exact ⟨o, rfl, by simpa [ho] using this⟩

theorem findOrder_none {s : State} {a : Actuator} {c : Cls} (h : s.findOrder a c = none) {i : Slot} {o : Order}
    (ho : s.orderAt i = some o) : ¬ (o.actuator = a ∧ o.cls = c) := by
  have := List.find?_eq_none.1 h i (mem_allSlots i)
  simpa [ho] using this

/-- A freed slot stays free. -/
theorem EngineFrame.stays_free {s t : State} (h : EngineFrame s t) {i : Slot} {g : BitVec 8}
    (e : s.slot i = ⟨g, none⟩) : t.slot i = ⟨g, none⟩ := by
  rw [h.free i (by rw [State.orderAt, e]), e]

/-- The slot of a retired order is free under its next generation, after its cascade too. -/
theorem retireCore_self {lane : Bool} {i : Slot} {c : Cause} {s : State} {o : Order} (h : s.orderAt i = some o) :
    (retireCore lane i c s).slot i = ⟨(s.slot i).gen + 1, none⟩ := by
  simp only [retireCore, h]
  exact (cascade_frame _ _ _).stays_free (retireOne_self h)

/-- Where positions are held once, a supersede leaves the position empty. -/
theorem supersede_vacates {s : State} (law : PositionLaw s) (a : Actuator) (c : Cls) {i : Slot} {p : Order}
    (hp : (supersede a c s).orderAt i = some p) : ¬ (p.actuator = a ∧ p.cls = c) := by
  rintro ⟨ha, hc⟩
  obtain ⟨o, ho, kept, -⟩ := (supersede_frame a c s).orders i p hp
  have seat := Order.kept_sameSeat kept
  rw [seat.2.1] at ha
  rw [seat.1] at hc
  cases hf : s.findOrder a c with
  | none => exact findOrder_none hf ho ⟨ha, hc⟩
  | some j =>
    obtain ⟨q, hq, qa, qc⟩ := findOrder_some hf
    obtain rfl := law i j o q ho hq (hc.trans qc.symm) (ha.trans qa.symm)
    simp only [supersede, hf, State.orderAt, retireCore_self hq] at hp
    cases hp

/-- A placement in the slot `i`, from the state its supersede leaves. -/
theorem placeOrder_cases (o : Order) (s : State) :
    (placeOrder o s).1 = supersede o.actuator o.cls s ∨
      ∃ i, PlaceFrame (supersede o.actuator o.cls s) (placeOrder o s).1 i o := by
  unfold placeOrder
  dsimp only
  split
  · exact .inl rfl
  · exact .inr ⟨_, installOrder_frame _ _ _ _⟩

/-- Every order after a placement is one of before in its seat, or the order placed. -/
theorem placeOrder_orders (o : Order) (s : State) {i : Slot} {p : Order} (hp : (placeOrder o s).1.orderAt i = some p) :
    (∃ q, s.orderAt i = some q ∧ q.sameSeat p) ∨ o.sameSeat p := by
  have superseded := (supersede_frame o.actuator o.cls s).loose
  rcases placeOrder_cases o s with h | ⟨k, h⟩
  · rw [h] at hp; exact .inl (superseded.orders i p hp)
  · rcases h.orders i p hp with ⟨q, hq, kept, -⟩ | ⟨-, kept⟩
    · obtain ⟨r, hr, c, a, e, n⟩ := superseded.orders i q hq
      obtain ⟨c', a', e', n'⟩ := Order.kept_sameSeat kept
      exact .inl ⟨r, hr, c'.trans c, a'.trans a, e'.trans e, n'.trans n⟩
    · exact .inr (Order.kept_sameSeat kept)

theorem placeOrder_tables (o : Order) (s : State) : TablesKept s (placeOrder o s).1 ∧ BlocksKept s (placeOrder o s).1 := by
  have superseded := supersede_frame o.actuator o.cls s
  rcases placeOrder_cases o s with h | ⟨k, h⟩
  · rw [h]; exact ⟨superseded.tables, superseded.blocks⟩
  · exact ⟨superseded.tables.trans h.tables, superseded.blocks.trans h.blocks⟩

/-! ### Positions (R11, R36) -/

theorem PositionLaw.loose {s t : State} (l : ∀ i p, t.orderAt i = some p → ∃ o, s.orderAt i = some o ∧ o.sameSeat p)
    (law : PositionLaw s) : PositionLaw t := by
  intro i j p q hp hq hc ha
  obtain ⟨o, ho, seat⟩ := l i p hp
  obtain ⟨o', ho', seat'⟩ := l j q hq
  exact law i j o o' ho ho' (by rw [← seat.1, hc, seat'.1]) (by rw [← seat.2.1, ha, seat'.2.1])

theorem PositionLaw.place {s t : State} {i : Slot} {o : Order} (f : PlaceFrame s t i o) (law : PositionLaw s)
    (vacant : ∀ j p, s.orderAt j = some p → ¬ (p.actuator = o.actuator ∧ p.cls = o.cls)) : PositionLaw t := by
  intro j k p q hp hq hc ha
  rcases f.orders j p hp with ⟨p', hp', kp, -⟩ | ⟨rfl, kp⟩ <;> rcases f.orders k q hq with ⟨q', hq', kq, -⟩ | ⟨rfl, kq⟩ <;>
    obtain ⟨pc, pa, -⟩ := kp <;> obtain ⟨qc, qa, -⟩ := kq
  · exact law j k p' q' hp' hq' (by rw [← pc, hc, qc]) (by rw [← pa, ha, qa])
  · exact absurd ⟨by rw [← pa, ha, qa], by rw [← pc, hc, qc]⟩ (vacant j p' hp')
  · exact absurd ⟨by rw [← qa, ← ha, pa], by rw [← qc, ← hc, pc]⟩ (vacant k q' hq')
  · rfl

theorem positionLaw_table : TableLaw PositionLaw where
  reset := lawsHoldAtReset.2.1
  loose h := PositionLaw.loose h.orders
  place {s o} law _ := by
    have superseded := PositionLaw.loose (supersede_frame o.actuator o.cls s).loose.orders law
    rcases placeOrder_cases o s with h | ⟨i, h⟩
    · rw [h]; exact superseded
    · exact superseded.place h fun j p hp => supersede_vacates law _ _ hp
  put law _ := law
  drop _ law := law
  template law _ _ := law
  bind w law _ := by cases w <;> exact law

/-- Settles O54: by the traversal of the commands; a placement keeps the law since its supersede empties the position. -/
theorem everyStepKeepsPositionLaw : Obligations.EveryStepKeepsPositionLaw :=
  fun _ _ e law => positionLaw_table.stepKeeps.step e law

/-! ### Bands (R113) -/

theorem entry_of_fields {s t : State} {b : BankIx} {e : EntryIx} {x : PlanEntry}
    (h : (t.entry b e).map PlanEntry.fields = (s.entry b e).map PlanEntry.fields) (hx : t.entry b e = some x) :
    ∃ y, s.entry b e = some y ∧ y.fields = x.fields := by
  rw [hx] at h
  exact Option.map_eq_some_iff.1 h.symm

theorem BandLaw.fields {s t : State}
    (f : ∀ b e, (t.entry b e).map PlanEntry.fields = (s.entry b e).map PlanEntry.fields) (law : BandLaw s) : BandLaw t := by
  intro b e e' x y ne hx hy ha
  obtain ⟨x', hx', fx⟩ := entry_of_fields (f b e) hx
  obtain ⟨y', hy', fy⟩ := entry_of_fields (f b e') hy
  simp only [PlanEntry.fields, Prod.mk.injEq] at fx fy
  obtain ⟨x1, x2, x3, -⟩ := fx
  obtain ⟨y1, y2, y3, -⟩ := fy
  have := law b e e' x' y' ne hx' hy' (by rw [x3, ha, y3])
  rwa [x1, x2, y1, y2] at this

theorem bandsOverlap_comm (a b c d : Int) : bandsOverlap a b c d = bandsOverlap c d a b := by
  unfold bandsOverlap; exact Bool.and_comm _ _

theorem overlapping_none {s : State} {e : EntryIx} {x : PlanEntry} (h : s.overlapping e x = none) {e' : EntryIx}
    {y : PlanEntry} (ne : e' ≠ e) (hy : s.entry s.shadow e' = some y) (ha : y.actuator = x.actuator) :
    bandsOverlap x.depthFrom x.depthTo y.depthFrom y.depthTo = false := by
  have := List.find?_eq_none.1 h e' (by simp [allEntries])
  simpa [hy, ne, ha] using this

theorem bandLaw_table : TableLaw BandLaw where
  reset := by intro b e e' x y _ hx; revert hx; simp [State.entry, State.reset]
  loose h := BandLaw.fields h.fields
  place law _ := law.fields (placeOrder_tables _ _).1.entries
  put {s e x} law apart := by
    intro b e₁ e₂ y z ne hy hz ha
    rw [entry_setEntry] at hy hz
    split at hy <;> split at hz
    · next h₁ h₂ => exact absurd (h₁.2.trans h₂.2.symm) ne
    · next h₁ _ => cases hy; obtain ⟨rfl, rfl⟩ := h₁; exact overlapping_none apart ne.symm hz ha.symm
    · next _ h₂ =>
      cases hz; obtain ⟨rfl, rfl⟩ := h₂
      rw [bandsOverlap_comm]; exact overlapping_none apart ne hy ha
    · exact law b e₁ e₂ y z ne hy hz ha
  drop {s} e law := by
    intro b e₁ e₂ y z ne hy hz ha
    rw [entry_setEntry] at hy hz
    split at hy
    · cases hy
    · split at hz
      · cases hz
      · exact law b e₁ e₂ y z ne hy hz ha
  template law _ _ := law
  bind w law _ := by cases w <;> exact law

/-! ### Guards (R14, R155) -/

theorem template_of_templates {s t : State} (h : t.templates = s.templates) (x : TemplateIx) :
    t.template x = s.template x := by simp [State.template, h]

theorem formTemplate_guards {b : List Byte} {n : Nat} {g : TemplateForm} (h : formTemplate b = some (n, some g)) :
    g.guards.length ≤ 2 := by
  unfold formTemplate at h
  split at h
  · split at h <;> cases h
  · split at h
    · obtain ⟨_, -, h⟩ := Option.bind_eq_some_iff.1 h
      obtain ⟨_, -, h⟩ := Option.bind_eq_some_iff.1 h
      split at h
      · obtain ⟨gs, hgs, h⟩ := Option.bind_eq_some_iff.1 h
        cases h
        simpa [formGuards_length hgs]
      · cases h
    · cases h
  · cases h

theorem checkFields_guards {s : State} {f : TemplateForm} {x : Template} (h : checkFields s f = .ok x) :
    x.guards.length = f.guards.length := by
  unfold checkFields at h
  obtain ⟨_, -, h⟩ := Except.bind_eq_ok h
  obtain ⟨_, -, h⟩ := Except.bind_eq_ok h
  obtain ⟨_, -, h⟩ := Except.bind_eq_ok h
  obtain ⟨_, -, h⟩ := Except.bind_eq_ok h
  obtain ⟨gs, hgs, h⟩ := Except.bind_eq_ok h
  cases h
  exact guardFields_length hgs

theorem require_ok {b : Bool} {c : Code} {u : Unit} (h : require b c = .ok u) : b = true := by
  cases b <;> simp_all

/-- The template an accepted PUT TEMPLATE writes: none into one that is not in use, or one that fits the use. -/
theorem checkTemplate_ok {s : State} {f : Nat × Option TemplateForm} {t : TemplateIx} {x : Option Template}
    (h : checkTemplate s f = .ok (t, x)) :
    (x = none ∧ s.inUse t = false) ∨ ∃ g y, f.2 = some g ∧ x = some y ∧ y.guards.length = g.guards.length ∧
      (s.inUse t = true → ∃ z, s.template t = some z ∧ z.actuator = y.actuator) := by
  unfold checkTemplate at h
  obtain ⟨t', -, h⟩ := Except.bind_eq_ok h
  split at h
  · obtain ⟨u, hu, h⟩ := Except.bind_eq_ok h
    cases h
    exact .inl ⟨rfl, by simpa using require_ok hu⟩
  · next g hg =>
    obtain ⟨y, hy, h⟩ := Except.bind_eq_ok h
    obtain ⟨u, hu, h⟩ := Except.bind_eq_ok h
    cases h
    refine .inr ⟨g, y, hg, rfl, checkFields_guards hy, fun used => ?_⟩
    have := require_ok hu
    rw [used] at this
    cases ht : s.template t with
    | none => simp [ht] at this
    | some z => exact ⟨z, rfl, by simpa [ht] using this⟩

theorem guardLaw_table : TableLaw GuardLaw where
  reset := lawsHoldAtReset.2.2.2.2.2.2.2.2.1
  loose h law := by
    refine ⟨fun i p hp => ?_, fun x m hm => law.2 x m (by rwa [template_of_templates h.templates] at hm)⟩
    obtain ⟨o, ho, seat⟩ := h.orders i p hp
    rw [seat.2.2.2]
    exact law.1 i o ho
  place {s o} law few := by
    have count : o.guards.length ≤ 2 := by
      rcases few with h | ⟨x, m, hm, h⟩
      · exact h
      · rw [h]; exact law.2 x m hm
    refine ⟨fun i p hp => ?_, fun x m hm => law.2 x m ?_⟩
    · rcases placeOrder_orders o s hp with ⟨q, hq, seat⟩ | seat <;> rw [seat.2.2.2]
      · exact law.1 i q hq
      · exact count
    · rwa [template_of_templates (placeOrder_tables o s).2.templates] at hm
  put law _ := law
  drop _ law := law
  template {s b f t x} law hf hx := by
    refine ⟨law.1, fun u m hm => ?_⟩
    rw [template_setTemplate] at hm
    split at hm
    · subst hm
      rcases checkTemplate_ok hx with ⟨h, -⟩ | ⟨g, y, hg, hy, count, -⟩
      · cases h
      · cases hy
        obtain ⟨n, f'⟩ := f
        cases hg
        rw [count]; exact formTemplate_guards hf
    · exact law.2 u m hm
  bind w law _ := by cases w <;> exact law

/-! ### Bindings (R159) -/

theorem binding_of_blocks {s t : State} (fallback : t.fallback = s.fallback) (halt : t.halt = s.halt) (w : IssueSet)
    (a : Actuator) : t.binding w a = s.binding w a := by cases w <;> simp [State.binding, fallback, halt]

theorem BindLaw.blocks {s t : State} (fallback : t.fallback = s.fallback) (halt : t.halt = s.halt)
    (templates : t.templates = s.templates) (law : BindLaw s) : BindLaw t := by
  intro w a x h
  rw [binding_of_blocks fallback halt] at h
  rw [template_of_templates templates]
  exact law w a x h

/-- A bound template is in use. -/
theorem inUse_of_binding {s : State} {w : IssueSet} {a : Actuator} {x : TemplateIx} (h : s.binding w a = some x) :
    s.inUse x = true := by
  have bound : ∀ w, s.binding w a = some x → (s.boundFor w x).isSome = true := by
    intro w hw
    rw [State.boundFor, List.find?_isSome]
    exact ⟨a, by simp [allActuators], by simpa using hw⟩
  unfold State.inUse
  cases w
  · simp [bound _ h]
  · simp [bound _ h]

theorem bindLaw_table : TableLaw BindLaw where
  reset := lawsHoldAtReset.2.2.2.2.2.2.2.2.2.2.2.2.2
  loose h := BindLaw.blocks h.fallback h.halt h.templates
  place {s o} law _ := by
    have blocks := (placeOrder_tables o s).2
    exact law.blocks blocks.fallback blocks.halt blocks.templates
  put law _ := law
  drop _ law := law
  template {s b f t x} law _ hx := by
    intro w a y h
    have bound : s.binding w a = some y := h
    obtain ⟨m, hm, ha⟩ := law w a y bound
    rw [template_setTemplate]
    split
    · next same =>
      subst same
      rcases checkTemplate_ok hx with ⟨-, free⟩ | ⟨g, z, -, hz, -, fits⟩
      · rw [inUse_of_binding bound] at free; cases free
      · obtain ⟨m', hm', ha'⟩ := fits (inUse_of_binding bound)
        rw [hm] at hm'; cases hm'
        exact ⟨z, hz, by rw [← ha', ha]⟩
    · exact ⟨m, hm, ha⟩
  bind {s f a t} w law h := by
    intro v b y hy
    rw [binding_setBinding] at hy
    rw [template_of_templates (s := s) (by simp)]
    split at hy
    · next hv =>
      subst hy
      unfold checkBinding at h
      obtain ⟨a', -, h⟩ := Except.bind_eq_ok h
      split at h
      · cases h
      · obtain ⟨t', -, h⟩ := Except.bind_eq_ok h
        obtain ⟨u, hu, h⟩ := Except.bind_eq_ok h
        cases h
        have := require_ok hu
        rw [Option.any_eq_true] at this
        obtain ⟨m, hm, ha⟩ := this
        exact ⟨m, hm, by rw [hv.2]; simpa using ha⟩
    · exact law v b y hy

end Sys2Proof.Machine
end

section
/-! Which orders outlive the engine: one that is not WAITING, has no entry to lose and cannot complete. -/

namespace Sys2Proof.Machine

/-- The order `o` is live under `h`, not WAITING, in some standing. -/
def Stays (h : Handle) (o : Order) (s : State) : Prop := ∃ p, s.order? h = some p ∧ o.restands p ∧ p.state ≠ .waiting

theorem Stays.restood {h : Handle} {o : Order} {s t : State} (r : Restood s t) (k : Stays h o s) : Stays h o t := by
  obtain ⟨p, hp, hop, hw⟩ := k
  obtain ⟨q, hq, hpq⟩ := r.reach hp
  exact ⟨q, hq, Order.restands_trans hop hpq, fun w => hw (hpq.2 w)⟩

theorem order?_of_slot {s t : State} {h : Handle} (e : t.slot h.slot = s.slot h.slot) : t.order? h = s.order? h := by
  simp [State.order?, State.orderAt, e]

theorem Stays.of_slot {h : Handle} {o : Order} {s t : State} (e : t.slot h.slot = s.slot h.slot) (k : Stays h o s) :
    Stays h o t := by
  obtain ⟨p, hp, hop, hw⟩ := k
  exact ⟨p, by rw [order?_of_slot e, hp], hop, hw⟩

/-- A slot reached under two handles is reached under one. -/
theorem handle_eq {s : State} {h k : Handle} {o p : Order} (hh : s.order? h = some o) (hk : s.order? k = some p)
    (e : h.slot = k.slot) : h = k ∧ o = p := by
  obtain ⟨h1, h2⟩ := order?_eq_some hh
  obtain ⟨k1, k2⟩ := order?_eq_some hk
  rw [e] at h1 h2
  exact ⟨h1.symm.trans k1, by rw [h2] at k2; exact Option.some.inj k2⟩

/-- An order that is not WAITING waits on none. -/
theorem Stays.not_waiting {h : Handle} {o : Order} {s : State} (k : Stays h o s) {i : Slot} {x : Handle}
    (w : s.waitsOn i x = true) : i ≠ h.slot := by
  rintro rfl
  obtain ⟨p, hp, -, hw⟩ := k
  obtain ⟨q, hq, hs, -⟩ := waitsOn_iff.1 w
  rw [(order?_eq_some hp).2] at hq
  cases hq
  exact hw hs

theorem gateSettles_eq_some {s : State} {h : Handle} (e : s.gateSettles = some h) :
    ∃ o, (s.lane gate).gov = some h ∧ s.order? h = some o ∧ (s.lane gate).state = .driven ∧ o.settled = false ∧
      s.travel = .complete ∧ s.atTarget gate o.target = true := by
  unfold State.gateSettles at e
  split at e
  · next k o hg =>
    split at e
    · next c =>
      cases e
      obtain ⟨hk, ho⟩ := governing_eq_some.1 hg
      exact ⟨o, hk, ho, c⟩
    · cases e
  · cases e

/-- The order is not one that a settle completes: it is STANDING, or not the GATE's. -/
def Incomplete (o : Order) (s : State) : Prop := o.completion = .standing ∨ (o.actuator ≠ gate ∧ NamesOwn s)

theorem Incomplete.engine {o : Order} {s t : State} (c : Incomplete o s) (k : OrdersKept s t)
    (n : ∀ a h, t.names a h → s.names a h) : Incomplete o t :=
  c.imp_right fun ⟨apart, own⟩ => ⟨apart, own.mono k n⟩

section
variable {s : State} {h x : Handle} {o p q : Order} (hp : s.order? h = some p) (hop : o.restands p)
include hp hop

/-- What settles on the GATE is another order, or does not complete. -/
theorem Incomplete.settles (c : Incomplete o s) (g : s.gateSettles = some x) : x ≠ h ∨ o.completion = .standing := by
  rcases c with c | ⟨apart, own⟩
  · exact .inr c
  · refine .inl ?_
    rintro rfl
    obtain ⟨q, hg, hq, -⟩ := gateSettles_eq_some g
    rw [hp] at hq; cases hq
    exact apart (by rw [← (Order.restands_kept hop).2.1]; exact own gate x p (.inl hg) hp)

/-- The order that completes stands in another slot. -/
theorem completes_apart (hx : x ≠ h ∨ o.completion = .standing) (hq : s.order? x = some q)
    (done : q.completion = .settle) : h.slot ≠ x.slot := by
  intro e
  obtain ⟨rfl, rfl⟩ := handle_eq hp hq e
  rcases hx with hx | hx
  · exact hx rfl
  · rw [(Order.restands_kept hop).2.2.2.2.1, hx] at done; cases done

end

theorem setCond_names (h : Handle) (g : Nat) (c : Cond) (s : State) (a : Actuator) (k : Handle)
    (n : (setCond h g c s).names a k) : s.names a k := by simpa [State.names, setCond] using n

theorem readied_names {i : Slot} {s : State} {a : Actuator} {h : Handle} :
    (readied i s).names a h ↔ s.names a h := by simp [State.names, readied]

theorem readied_restood (i : Slot) (s : State) : Restood s (readied i s) := .updOrder fun o => by simp [Order.restands]

theorem readied_frame (i : Slot) (s : State) : EngineFrame s (readied i s) := updOrder_frame fun o => by simp [Order.kept]

theorem settled_names (h : Handle) (s : State) (a : Actuator) (k : Handle)
    (n : (s.updOrder h.slot fun o => { o with settled := true }).names a k) : s.names a k := by
  simpa [State.names] using n

theorem settled_restood (h : Handle) (s : State) : Restood s (s.updOrder h.slot fun o => { o with settled := true }) :=
  .updOrder fun o => by simp [Order.restands]

theorem settled_frame (h : Handle) (s : State) :
    EngineFrame s (s.updOrder h.slot fun o => { o with settled := true }) := updOrder_frame fun o => by simp [Order.kept]

/-- What the engine does to other orders leaves one that cannot complete where it is. -/
theorem stays_engine (h : Handle) (o : Order) : EngineKeeps (fun s => Stays h o s ∧ Incomplete o s)
    (fun k => k ≠ h ∨ o.completion = .standing) (fun i => i ≠ h.slot) where
  resolved := fun ⟨k, c⟩ _ _ =>
    ⟨k.restood (resolve_resolves _ _).slots, c.engine (resolve_frame _ _).orders (resolve_names _ _)⟩
  waits := fun ⟨k, _⟩ _ w => k.not_waiting w
  settles := fun ⟨⟨_, hp, hop, _⟩, c⟩ g => c.settles hp hop g
  lose := fun ⟨k, c⟩ w _ => ⟨k.of_slot (retireOne_slot _ _ (k.not_waiting w).symm),
    c.engine (retireOne_frame _ _ _ _).orders (retireOne_names _ _ _ _)⟩
  cond g x := fun ⟨k, c⟩ hw => ⟨k.of_slot (by rw [setCond, slot_updOrder, if_neg (Ne.symm hw)]),
    c.engine (setCond_frame _ g x _).orders (setCond_names _ g x _)⟩
  trip := fun ⟨k, c⟩ hw _ _ _ _ _ => ⟨k.of_slot (retireOne_slot _ _ (Ne.symm hw)),
    c.engine (retireOne_frame _ _ _ _).orders (retireOne_names _ _ _ _)⟩
  ready := fun ⟨k, c⟩ _ w => ⟨k.of_slot (by rw [readied, slot_updOrder, if_neg (k.not_waiting w).symm]),
    c.engine (readied_frame _ _).orders fun _ _ => readied_names.1⟩
  settled := fun ⟨k, c⟩ _ => ⟨k.restood (settled_restood _ _), c.engine (settled_frame _ _).orders (settled_names _ _)⟩
  complete := fun {s x q} ⟨k, c⟩ hx hq done _ => by
    refine ⟨?_, c.engine (retireOne_frame _ _ _ _).orders (retireOne_names _ _ _ _)⟩
    obtain ⟨p, hp, hop, hw⟩ := k
    obtain ⟨f, hf, hr⟩ := retireOne_others true .completed s (completes_apart hp hop hx hq done)
    obtain ⟨e, ho⟩ := order?_eq_some hp
    refine ⟨f p, ?_, Order.restands_trans hop (hr p), fun w => hw ((hr p).2 w)⟩
    have gen : (s.slot h.slot).gen = h.gen := congrArg Handle.gen e
    simp [State.order?, State.orderAt, hf, gen, show (s.slot h.slot).order = some p from ho]

end Sys2Proof.Machine
end

section
/-! RESTART: every table it works through, item by item (R33, R141, R184). -/

namespace Sys2Proof.Machine

/-- A fold whose turns each rewrite one item of a table. -/
theorem foldl_items {σ α β : Type} [DecidableEq α] {f : σ → α → σ} (get : σ → α → β) (F : α → β → β)
    (hf : ∀ s x y, get (f s x) y = if y = x then F x (get s x) else get s y) :
    ∀ (l : List α) (s : σ) (y : α), l.Nodup → get (l.foldl f s) y = if y ∈ l then F y (get s y) else get s y
  | [], _, _, _ => by simp
  | x :: l, s, y, nodup => by
    obtain ⟨hx, hl⟩ := List.nodup_cons.1 nodup
    rw [List.foldl_cons, foldl_items get F hf l _ y hl, hf]
    by_cases e : y = x
    · subst e; simp [hx]
    · simp [e]

theorem nodup_allSlots : allSlots.Nodup := List.nodup_finRange 40
theorem nodup_allActuators : allActuators.Nodup := List.nodup_finRange 12
theorem nodup_allChans : allChans.Nodup := List.nodup_finRange 18
theorem nodup_allEntries : allEntries.Nodup := List.nodup_finRange 24
theorem mem_allActuators (a : Actuator) : a ∈ allActuators := by simp [allActuators]
theorem mem_allChans (c : Chan) : c ∈ allChans := by simp [allChans]
theorem mem_allEntries (e : EntryIx) : e ∈ allEntries := by simp [allEntries]

/-! ### The orders -/

/-- A slot whose order is retired, where it has one. -/
def SlotState.freed (x : SlotState) : SlotState := if x.order = none then x else ⟨x.gen + 1, none⟩

theorem freed_dead {s : State} {i : Slot} (h : s.orderAt i = none) : (s.slot i).freed = s.slot i := by
  have : (s.slot i).order = none := h
  simp [SlotState.freed, this]

theorem freed_live {s : State} {i : Slot} {o : Order} (h : s.orderAt i = some o) :
    (s.slot i).freed = ⟨(s.slot i).gen + 1, none⟩ := by
  have : (s.slot i).order = some o := h
  simp [SlotState.freed, this]

def retireAll (s : State) : State := allSlots.foldl (fun s i => retireOne false i .restart s) s

/-- A retirement at RESTART takes the order from its slot and its lane, and no more. -/
theorem retireOne_restart {s : State} {i : Slot} {o : Order} (h : s.orderAt i = some o) :
    retireOne false i .restart s =
      (dropFromLane o.actuator o.cls (s.handleAt i) s).setSlot i ⟨(s.slot i).gen + 1, none⟩ := by
  rw [retireOne_live h]
  have report : ∀ t, planReport o .restart t = t := by
    intro t; unfold planReport; split <;> simp
  simp [freeSlot, report, leaveLane, State.handleAt]

theorem retireAll_slot (s : State) (i : Slot) : (retireAll s).slot i = (s.slot i).freed := by
  have turn : ∀ (s : State) (x y : Slot),
      (retireOne false x .restart s).slot y = if y = x then (s.slot x).freed else s.slot y := by
    intro s x y
    split
    · next e =>
      subst e
      cases ho : s.orderAt y with
      | none => rw [retireOne_dead ho, freed_dead ho]
      | some o => rw [retireOne_self ho, freed_live ho]
    · next e => exact retireOne_slot _ s e
  have := foldl_items State.slot (fun _ => SlotState.freed) turn allSlots s i nodup_allSlots
  rwa [if_pos (mem_allSlots i)] at this

/-- The retirements of RESTART write slots and lanes alone, and keep the lanes' settings. -/
theorem retireAll_writes (s : State) : ∃ sl ln, retireAll s = { s with slots := sl, lanes := ln } := by
  unfold retireAll
  refine List.foldlRecOn (motive := fun t : State => ∃ sl ln, t = { s with slots := sl, lanes := ln }) allSlots _
    ⟨s.slots, s.lanes, rfl⟩ ?_
  rintro t ⟨sl, ln, rfl⟩ i _
  cases ho : State.orderAt { s with slots := sl, lanes := ln } i with
  | none => exact ⟨sl, ln, retireOne_dead ho⟩
  | some o => rw [retireOne_restart ho]; exact ⟨_, _, rfl⟩

theorem retireAll_lane (s : State) (a : Actuator) : (s.lane a).settingsKept ((retireAll s).lane a) :=
  (foldl_frame (fun s i => retireOne_frame false i .restart s) allSlots s).tables.lanes a

/-! ### Lanes, channels, banks, interlocks -/

theorem laneOff_lane (s : State) (a : Actuator) : (allActuators.foldl laneOff s).lane a =
    .reset (defaultPrecedence a) (s.lane a).lo (s.lane a).hi (s.lane a).band (s.lane a).dwell := by
  have := foldl_items State.lane
    (fun (x : Actuator) (l : Lane) => Lane.reset (defaultPrecedence x) l.lo l.hi l.band l.dwell)
    (f := laneOff) (fun s x y => by rw [laneOff, lane_updLane]; split <;> rfl) allActuators s a nodup_allActuators
  rwa [if_pos (mem_allActuators a)] at this

theorem laneOff_writes (s : State) : ∃ ln, allActuators.foldl laneOff s = { s with lanes := ln } :=
  List.foldlRecOn (motive := fun t : State => ∃ ln, t = { s with lanes := ln }) allActuators _ ⟨s.lanes, rfl⟩
    fun _ ⟨_, h⟩ _ _ => by rw [h]; exact ⟨_, rfl⟩

theorem restartChan_chan (s : State) (c : Chan) : (allChans.foldl restartChan s).chan c =
    if (s.chan c).mode = .order then { s.chan c with mode := .released, output := 0 } else s.chan c := by
  have := foldl_items State.chan
    (fun _ (x : ChanState) => if x.mode = .order then { x with mode := .released, output := 0 } else x)
    (f := restartChan) (fun s x y => by
      unfold restartChan
      split
      · rw [releaseChan, chan_setChan]
      · split
        · next e => rw [e]
        · rfl) allChans s c nodup_allChans
  rwa [if_pos (mem_allChans c)] at this

theorem restartChan_writes (s : State) : ∃ ch, allChans.foldl restartChan s = { s with chans := ch } := by
  refine List.foldlRecOn (motive := fun t : State => ∃ ch, t = { s with chans := ch }) allChans _ ⟨s.chans, rfl⟩ ?_
  rintro _ ⟨ch, rfl⟩ c _
  unfold restartChan
  split
  · exact ⟨_, rfl⟩
  · exact ⟨ch, rfl⟩

theorem sleepBank_entry (b : BankIx) (s : State) (b' : BankIx) (e : EntryIx) : (sleepBank b s).entry b' e =
    if b' = b then (s.entry b e).map fun x => { x with state := .dormant } else s.entry b' e := by
  have := foldl_items (fun (t : State) e => t.entry b' e)
    (fun _ x => if b' = b then x.map fun x => { x with state := .dormant } else x)
    (f := fun (s : State) e => s.setEntryState b e .dormant)
    (fun s x y => by
      rw [entry_setEntryState]
      by_cases hb : b' = b
      · subst hb; by_cases hy : y = x <;> simp [hy]
      · simp only [hb, false_and, if_false]; split <;> simp [*]) allEntries s e nodup_allEntries
  rw [if_pos (mem_allEntries e)] at this
  rw [sleepBank, this]
  split
  · next h => subst h; rfl
  · rfl

theorem setEntryState_writes (s : State) (b : BankIx) (e : EntryIx) (x : EntryState) :
    ∃ bk, s.setEntryState b e x = { s with banks := bk } := by
  unfold State.setEntryState
  split
  · exact ⟨_, rfl⟩
  · exact ⟨s.banks, rfl⟩

theorem sleepBank_writes (b : BankIx) (s : State) : ∃ bk, sleepBank b s = { s with banks := bk } := by
  unfold sleepBank
  refine List.foldlRecOn (motive := fun t : State => ∃ bk, t = { s with banks := bk }) allEntries _ ⟨s.banks, rfl⟩ ?_
  rintro _ ⟨bk, rfl⟩ e _
  obtain ⟨bk', h⟩ := setEntryState_writes { s with banks := bk } b e .dormant
  exact ⟨bk', h⟩

theorem refreshFlags_interlock (s : State) (w : Fin 2) :
    (refreshFlags s).interlock w = { s.interlock w with engaged := s.interlockFlag (s.interlock w) } := by
  have first : ∀ v x, (s.setInterlock v x).interlockFlag = s.interlockFlag := fun _ _ => rfl
  unfold refreshFlags refreshFlag
  rw [interlock_setInterlock, interlock_setInterlock, interlock_setInterlock, first]
  match w with
  | 0 => rfl
  | 1 => rfl

theorem refreshFlags_writes (s : State) : ∃ il, refreshFlags s = { s with interlocks := il } := ⟨_, rfl⟩

/-! ### RESTART whole -/

/-- The stages of RESTART: the orders gone and the lanes OFF, then the channels released, then the banks asleep. -/
def restartLanes (s : State) : State := allActuators.foldl laneOff (retireAll s)
def restartChans (s : State) : State := allChans.foldl restartChan { restartLanes s with travel := .cleared }
def restartBanks (s : State) : State := sleepBank 1 (sleepBank 0 (restartChans s))

theorem restartRun_eq (s : State) : restartRun s = refreshFlags { restartBanks s with mode := .setup } := by
  unfold restartRun restartBanks restartChans restartLanes retireAll
  dsimp only

theorem restartLanes_writes (s : State) : ∃ ln, restartLanes s = { retireAll s with lanes := ln } :=
  laneOff_writes (retireAll s)

theorem restartChans_writes (s : State) :
    ∃ ch, restartChans s = { restartLanes s with travel := .cleared, chans := ch } := by
  unfold restartChans
  generalize restartLanes s = t
  exact restartChan_writes { t with travel := .cleared }

theorem restartBanks_writes (s : State) : ∃ bk, restartBanks s = { restartChans s with banks := bk } := by
  obtain ⟨bk, h⟩ := sleepBank_writes 0 (restartChans s)
  obtain ⟨bk', h'⟩ := sleepBank_writes 1 (sleepBank 0 (restartChans s))
  exact ⟨bk', by rw [restartBanks, h', h]⟩

theorem restartRun_writes (s : State) : ∃ sl ln ch bk il, restartRun s = { s with
    mode := .setup, slots := sl, lanes := ln, travel := .cleared, chans := ch, banks := bk, interlocks := il } := by
  obtain ⟨sl, ln, h1⟩ := retireAll_writes s
  obtain ⟨ln', h2⟩ := restartLanes_writes s
  obtain ⟨ch, h3⟩ := restartChans_writes s
  obtain ⟨bk, h4⟩ := restartBanks_writes s
  obtain ⟨il, h5⟩ := refreshFlags_writes { restartBanks s with mode := .setup }
  exact ⟨sl, ln', ch, bk, il, by rw [restartRun_eq, h5, h4, h3, h2, h1]⟩

theorem restartRun_tables (s : State) : (restartRun s).slots = (retireAll s).slots ∧
    (restartRun s).lanes = (restartLanes s).lanes ∧ (restartRun s).chans = (restartChans s).chans ∧
    (restartRun s).banks = (restartBanks s).banks := by
  obtain ⟨ln, h2⟩ := restartLanes_writes s
  obtain ⟨ch, h3⟩ := restartChans_writes s
  obtain ⟨bk, h4⟩ := restartBanks_writes s
  obtain ⟨il, h5⟩ := refreshFlags_writes { restartBanks s with mode := .setup }
  rw [restartRun_eq, h5]
  refine ⟨?_, ?_, ?_, by dsimp only⟩
  · dsimp only; rw [h4, h3, h2]
  · dsimp only; rw [h4, h3]
  · dsimp only; rw [h4]

/-- Every live order is gone, its slot free under the next generation. -/
theorem restartRun_slot (s : State) (i : Slot) : (restartRun s).slot i = (s.slot i).freed := by
  rw [slot_of_slots (restartRun_tables s).1, retireAll_slot]

theorem restartRun_lane (s : State) (a : Actuator) : (restartRun s).lane a =
    .reset (defaultPrecedence a) (s.lane a).lo (s.lane a).hi (s.lane a).band (s.lane a).dwell := by
  obtain ⟨-, -, -, -, lo, hi, band, dwell⟩ := retireAll_lane s a
  rw [lane_of_lanes (restartRun_tables s).2.1, restartLanes, laneOff_lane, lo, hi, band, dwell]

theorem restartRun_chan (s : State) (c : Chan) : (restartRun s).chan c =
    if (s.chan c).mode = .order then { s.chan c with mode := .released, output := 0 } else s.chan c := by
  obtain ⟨sl, ln, h1⟩ := retireAll_writes s
  obtain ⟨ln', h2⟩ := restartLanes_writes s
  have same : ({ restartLanes s with travel := .cleared } : State).chan c = s.chan c := by rw [h2, h1]; rfl
  have := restartChan_chan { restartLanes s with travel := .cleared } c
  rw [same] at this
  rw [← this, State.chan, State.chan, (restartRun_tables s).2.2.1, restartChans]

/-- Every entry is DORMANT with its fields. -/
theorem restartRun_entry (s : State) (b : BankIx) (e : EntryIx) :
    (restartRun s).entry b e = (s.entry b e).map fun x => { x with state := .dormant } := by
  obtain ⟨sl, ln, h1⟩ := retireAll_writes s
  obtain ⟨ln', h2⟩ := restartLanes_writes s
  obtain ⟨ch, h3⟩ := restartChans_writes s
  have same : (restartChans s).entry b e = s.entry b e := by rw [h3, h2, h1]; rfl
  rw [entry_of_banks (restartRun_tables s).2.2.2, restartBanks, sleepBank_entry, sleepBank_entry, sleepBank_entry]
  rcases List.mem_pair.1 (mem_banks b) with rfl | rfl <;> simp [same]

theorem restartRun_interlock (s : State) (w : Fin 2) :
    (restartRun s).interlock w = { s.interlock w with engaged := s.interlockFlag (s.interlock w) } := by
  obtain ⟨sl, ln, h1⟩ := retireAll_writes s
  obtain ⟨ln', h2⟩ := restartLanes_writes s
  obtain ⟨ch, h3⟩ := restartChans_writes s
  obtain ⟨bk, h4⟩ := restartBanks_writes s
  rw [restartRun_eq, refreshFlags_interlock, h4, h3, h2, h1]
  rfl

/-- Settles O51: each table after its stage of RESTART, the other blocks unwritten. -/
theorem restartReturnsThePartToSetup : Obligations.RestartReturnsThePartToSetup := by
  intro tag s run r
  refine ⟨restartRun (received s), ?answer, fun i => ⟨fun free => ?_, fun o live => ?_⟩, restartRun_lane _,
    restartRun_chan _, restartRun_entry _, fun w => ⟨_, restartRun_interlock _ w, interlockFlag_iff s _⟩, ?_⟩
  case answer =>
    show execRestart r s = _
    unfold execRestart
    rw [request_eq (by simp [r])]
    obtain ⟨sl, ln, ch, bk, il, h⟩ := restartRun_writes (received s)
    have mode : (restartRun (received s)).mode = .setup := by rw [h]
    simp only [inRun_run (s := received s) run]
    simp only [r, isOperator, decide_true, admitting_true, formEmpty, formed_some, done_parts, mode]
    rfl
  · rw [restartRun_slot]; exact freed_dead (s := received s) free
  · rw [restartRun_slot]; exact freed_live (s := received s) live
  · obtain ⟨sl, ln, ch, bk, il, h⟩ := restartRun_writes (received s)
    rw [h]
    exact ⟨rfl, rfl, rfl, by constructor <;> rfl⟩

end Sys2Proof.Machine
end

section
/-! LIVE entries and their PLAN orders: the law of R120 and R114 with a spawn or a retirement of the plan store under
way, and the operations that keep it. -/

namespace Sys2Proof.Machine

/-! ### The links between entries and orders -/

theorem shadow_ne_active (s : State) : s.active ≠ s.shadow := by
  unfold State.shadow
  rcases List.mem_pair.1 (mem_banks s.active) with h | h <;> rw [h] <;> decide

theorem shadow_of_active {s t : State} (h : t.active = s.active) : t.shadow = s.shadow := by
  unfold State.shadow; rw [h]

/-- No entry of `x`'s slot is LIVE. -/
def PlanEntry.asleep (x : PlanEntry) : Prop := ∀ h, x.state ≠ .live h

/-- The law of LIVE entries and PLAN orders, but for the entries of `E` and the orders of the slots of `I`, each of which
names an entry of `E`. -/
structure PlanLinks (E : EntryIx → Prop) (I : Slot → Prop) (s : State) : Prop where
  live : ∀ e x h, ¬ E e → s.entry s.active e = some x → x.state = .live h → ∃ o, s.order? h = some o ∧ o.cls = .plan ∧
    o.actuator = x.actuator ∧ o.planEntry = some (s.active, e)
  named : ∀ i o, s.orderAt i = some o → o.cls = .plan ∨ o.planEntry ≠ none →
    ∃ e, o.planEntry = some (s.active, e) ∧
      ((I i ∧ E e) ∨ (¬ E e ∧ ∃ x, s.entry s.active e = some x ∧ x.state = .live (s.handleAt i)))
  asleep : ∀ e x, s.entry s.shadow e = some x → x.state = .dormant

/-- The band of a LIVE entry holds the depth. -/
def BandHolds (s : State) (e : EntryIx) : Prop :=
  ∀ x h, s.entry s.active e = some x → x.state = .live h → ∃ d, s.depth.value = some d ∧ x.depthFrom ≤ d ∧ d < x.depthTo

theorem planLaw_iff {s : State} :
    PlanLaw s ↔ PlanLinks (fun _ => False) (fun _ => False) s ∧ ∀ e, BandHolds s e := by
  constructor
  · intro l
    refine ⟨⟨fun e x h _ => l.live e x h, fun i o ho hp => ?_, l.asleep⟩, fun e x h => l.inBand e x h⟩
    obtain ⟨e, x, he, hx, hl⟩ := l.named i o ho hp
    exact ⟨e, he, .inr ⟨id, x, hx, hl⟩⟩
  · rintro ⟨l, b⟩
    refine ⟨fun e x h => l.live e x h id, fun i o ho hp => ?_, fun e x h => b e x h, l.asleep⟩
    obtain ⟨e, he, ⟨f, -⟩ | ⟨-, x, hx, hl⟩⟩ := l.named i o ho hp
    · exact f.elim
    · exact ⟨e, x, he, hx, hl⟩

section
variable {E : EntryIx → Prop} {I : Slot → Prop}

theorem Steady.active {s t : State} (h : Steady s t) : t.active = s.active := h.store.2.1

/-- An entry LIVE after a steady operation stood so before. -/
theorem Steady.was_live {s t : State} (h : Steady s t) {b : BankIx} {e : EntryIx} {x : PlanEntry} {k : Handle}
    (hx : t.entry b e = some x) (hl : x.state = .live k) : s.entry b e = some x := by
  by_contra ne
  have := (h.changed b e x (fun same => ne (same ▸ hx)) hx).1
  rw [hl] at this; cases this

theorem Steady.bandHolds {s t : State} (h : Steady s t) {e : EntryIx} (b : BandHolds s e) : BandHolds t e := by
  intro x k hx hl
  rw [h.active] at hx
  rw [h.store.2.2.1]
  exact b x k (h.was_live hx hl) hl

theorem handleAt_of_gen {s t : State} {i : Slot} (h : (t.slot i).gen = (s.slot i).gen) : t.handleAt i = s.handleAt i := by
  unfold State.handleAt; rw [h]

/-- A steady operation keeps the links: an order it ends takes its entry along. -/
theorem Steady.links {s t : State} (h : Steady s t) (l : PlanLinks E I s) : PlanLinks E I t where
  live e x k hE hx hl := by
    rw [h.active] at hx ⊢
    have before := h.was_live hx hl
    obtain ⟨o, ho, cls, act, entry⟩ := l.live e x k hE before hl
    obtain ⟨hk, live⟩ := order?_eq_some ho
    cases ht : t.orderAt k.slot with
    | none =>
      have := h.ended _ o _ e x live ht entry hx
      rw [hl] at this; cases this
    | some p =>
      obtain ⟨o', ho', seat, gen⟩ := h.orders _ p ht
      rw [live] at ho'; cases ho'
      exact ⟨p, order?_of_orderAt ((handleAt_of_gen gen).trans hk) ht, seat.1.trans cls, seat.2.1.trans act,
        seat.2.2.1.trans entry⟩
  named i p hp hn := by
    obtain ⟨o, ho, seat, gen⟩ := h.orders i p hp
    obtain ⟨e, he, part⟩ := l.named i o ho (by rw [← seat.1, ← seat.2.2.1]; exact hn)
    rw [h.active]
    refine ⟨e, seat.2.2.1.trans he, part.imp_right fun ⟨hE, x, hx, hl⟩ => ⟨hE, ?_⟩⟩
    rw [handleAt_of_gen gen]
    by_cases same : t.entry s.active e = s.entry s.active e
    · exact ⟨x, same.trans hx, hl⟩
    · obtain ⟨y, hy, -⟩ := entry_of_fields (h.fields s.active e).symm hx
      obtain ⟨-, j, q, hq, gone, hqe⟩ := h.changed _ e y same hy
      obtain ⟨e', he', ⟨-, hE'⟩ | ⟨-, x', hx', hl'⟩⟩ := l.named j q hq (.inr (by rw [hqe]; simp))
      · rw [hqe] at he'; cases he'; exact absurd hE' hE
      · rw [hqe] at he'; cases he'
        rw [hx] at hx'; cases hx'
        rw [hl] at hl'
        have : i = j := congrArg Handle.slot (EntryState.live.inj hl')
        rw [this, gone] at hp; cases hp
  asleep e x hx := by
    rw [shadow_of_active h.active] at hx
    by_cases same : t.entry s.shadow e = s.entry s.shadow e
    · exact l.asleep e x (same ▸ hx)
    · obtain ⟨-, j, q, hq, -, hqe⟩ := h.changed _ e x same hx
      obtain ⟨e', he', -⟩ := l.named j q hq (.inr (by rw [hqe]; simp))
      rw [hqe] at he'
      exact absurd (congrArg Prod.fst (Option.some.inj he')).symm (shadow_ne_active s)

/-- The links name no entry that is not LIVE. -/
theorem PlanLinks.unnamed {s : State} (l : PlanLinks E (fun _ => False) s) {e : EntryIx}
    (asleep : ∀ x, s.entry s.active e = some x → x.asleep) {i : Slot} {o : Order} (ho : s.orderAt i = some o) :
    o.planEntry ≠ some (s.active, e) := by
  intro he
  obtain ⟨e', he', ⟨f, -⟩ | ⟨-, x, hx, hl⟩⟩ := l.named i o ho (.inr (by rw [he]; simp))
  · exact f
  · rw [he] at he'; cases he'
    exact asleep x hx _ hl

/-- An entry that is not LIVE takes any state but LIVE. -/
theorem PlanLinks.setEntryState {s : State} (l : PlanLinks E (fun _ => False) s) {e : EntryIx} {st : EntryState}
    (asleep : E e ∨ ∀ x, s.entry s.active e = some x → x.asleep) (stays : ∀ h, st ≠ .live h) :
    PlanLinks E (fun _ => False) (s.setEntryState s.active e st) where
  live e' x h hE hx hl := by
    simp only [setEntryState_leaves, entry_setEntryState, true_and] at hx ⊢
    split at hx
    · obtain ⟨y, -, rfl⟩ := Option.map_eq_some_iff.1 hx
      exact absurd hl (stays h)
    · exact l.live e' x h hE hx hl
  named i o ho hp := by
    simp only [setEntryState_leaves, entry_setEntryState, true_and] at ho ⊢
    obtain ⟨e', he', ⟨f, -⟩ | ⟨hE, x, hx, hl⟩⟩ := l.named i o ho hp
    · exact f.elim
    · refine ⟨e', he', .inr ⟨hE, x, ?_, hl⟩⟩
      rw [if_neg]
      · exact hx
      · rintro rfl
        rcases asleep with h | h
        · exact hE h
        · exact h x hx _ hl
  asleep e' x hx := by
    rw [shadow_of_active (setEntryState_leaves _ _ _ _).2.2.2.2.2.2.2.2.2.2.2.1, entry_setEntryState, if_neg] at hx
    · exact l.asleep e' x hx
    · exact fun h => shadow_ne_active s h.1.symm

/-- Links that leave out an entry leave out more where it is not LIVE. -/
theorem PlanLinks.weaken {s : State} (l : PlanLinks E (fun _ => False) s) {e : EntryIx}
    (asleep : ∀ x, s.entry s.active e = some x → x.asleep) : PlanLinks (fun k => E k ∨ k = e) I s where
  live e' x h hE hx := l.live e' x h (fun k => hE (.inl k)) hx
  named i o ho hp := by
    obtain ⟨e', he', ⟨f, -⟩ | ⟨hE, x, hx, hl⟩⟩ := l.named i o ho hp
    · exact f.elim
    · refine ⟨e', he', .inr ⟨?_, x, hx, hl⟩⟩
      rintro (h | rfl)
      · exact hE h
      · exact asleep x hx _ hl
  asleep := l.asleep

/-- The plan store's own retirement of the order of a LIVE entry leaves the entry out of the links. -/
theorem PlanLinks.retireSilent {s : State} (l : PlanLinks E (fun _ => False) s) {e : EntryIx} {x : PlanEntry} {h : Handle}
    (hE : ¬ E e) (hx : s.entry s.active e = some x) (hl : x.state = .live h) {c : Cause} (hc : c.silent) :
    PlanLinks (fun k => E k ∨ k = e) (fun _ => False) (retireOne true h.slot c s) := by
  obtain ⟨o, ho, cls, act, entry⟩ := l.live e x h hE hx hl
  obtain ⟨hh, live⟩ := order?_eq_some ho
  have active : (retireOne true h.slot c s).active = s.active := (retireOne_frame true h.slot c s).blocks.active
  have entries := retireOne_entry_silent (lane := true) (i := h.slot) (s := s) hc
  refine ⟨fun e' y k hE' hy hk => ?_, fun i p hp hn => ?_, fun e' y hy => ?_⟩
  · rw [active] at hy ⊢
    rw [entries] at hy
    obtain ⟨q, hq, qc, qa, qe⟩ := l.live e' y k (fun g => hE' (.inl g)) hy hk
    have apart : k.slot ≠ h.slot := by
      intro same
      obtain ⟨rfl, rfl⟩ := handle_eq hq ho same
      rw [entry] at qe
      exact hE' (.inr (congrArg Prod.snd (Option.some.inj qe)).symm)
    obtain ⟨f, hf, hr⟩ := retireOne_others true c s apart
    obtain ⟨hk', live'⟩ := order?_eq_some hq
    have seat := Order.kept_sameSeat (Order.restands_kept (hr q))
    refine ⟨f q, order?_of_orderAt ?_ ?_, seat.1.trans qc, seat.2.1.trans qa, seat.2.2.1.trans qe⟩
    · exact (handleAt_of_gen (by rw [hf])).trans hk'
    · rw [State.orderAt, hf, live']; rfl
  · by_cases same : i = h.slot
    · subst same
      rw [State.orderAt, retireOne_self live] at hp; cases hp
    · obtain ⟨f, hf, hr⟩ := retireOne_others true c s same
      rw [State.orderAt, hf] at hp
      obtain ⟨q, hq, rfl⟩ := Option.map_eq_some_iff.1 hp
      have seat := Order.kept_sameSeat (Order.restands_kept (hr q))
      obtain ⟨e', he', ⟨f', -⟩ | ⟨hE', y, hy, hk⟩⟩ := l.named i q hq (by rw [← seat.1, ← seat.2.2.1]; exact hn)
      · exact f'.elim
      · refine ⟨e', by rw [active, seat.2.2.1, he'], .inr ⟨?_, y, by rw [active, entries, hy], ?_⟩⟩
        · rintro (g | rfl)
          · exact hE' g
          · rw [hx] at hy; cases hy
            rw [hl] at hk
            exact same (congrArg Handle.slot (EntryState.live.inj hk)).symm
        · rw [hk, handleAt_of_gen (by rw [hf])]
  · rw [shadow_of_active active, entries] at hy
    exact l.asleep e' y hy

/-- Which entries are left out matters alone, not how that is said. -/
theorem PlanLinks.congr {F : EntryIx → Prop} {s : State} (l : PlanLinks E I s) (h : ∀ e, E e ↔ F e) :
    PlanLinks F I s := by
  obtain rfl : E = F := funext fun e => propext (h e)
  exact l

/-- An entry left out that is not LIVE may be let in again. -/
theorem PlanLinks.letIn {s : State} {e : EntryIx} (l : PlanLinks (fun k => k = e) (fun _ => False) s)
    (asleep : ∀ x, s.entry s.active e = some x → x.asleep) : PlanLinks (fun _ => False) (fun _ => False) s where
  live e' x h _ hx hl := l.live e' x h (by rintro rfl; exact asleep x hx h hl) hx hl
  named i o ho hp := by
    obtain ⟨e', he', ⟨f, -⟩ | ⟨-, x, hx, hl⟩⟩ := l.named i o ho hp
    · exact f.elim
    · exact ⟨e', he', .inr ⟨id, x, hx, hl⟩⟩
  asleep := l.asleep

end

end Sys2Proof.Machine
end

section
/-! A placement in stages: the record written into its slot, and what follows it. -/

namespace Sys2Proof.Machine

/-- The new order's record in its slot, in its initial state (the second step of R10). -/
def written (o : Order) (i : Slot) (s : State) : State :=
  s.setSlot i ⟨(s.slot i).gen, some { o with state := s.initialState o.prereq }⟩

/-- The guards of a PENDING order leave INERT before it reaches its lane (R77). -/
def armedNew (o : Order) (i : Slot) (s : State) : State :=
  if s.initialState o.prereq = .pending then armGuards (s.handleAt i) (written o i s) else written o i s

/-- The lane with the new order in its position (R36). -/
def entered (o : Order) (i : Slot) (s : State) : State :=
  recordOrder (s.handleAt i) o.actuator o.cls (armedNew o i s)

/-- The lane's one resolution on the placement (R10). -/
def resolvedNew (o : Order) (i : Slot) (replaced : Bool) (s : State) : State :=
  if s.initialState o.prereq = .pending ∨ replaced then resolve o.actuator (entered o i s) else entered o i s

theorem installOrder_eq (o : Order) (i : Slot) (replaced : Bool) (s : State) :
    installOrder o i replaced s = settleGate (resolvedNew o i replaced s) := rfl

theorem placeOrder_free {o : Order} {s : State} {i : Slot}
    (free : (supersede o.actuator o.cls s).freeSlot? = some i) : placeOrder o s =
      (installOrder o i (s.holder o.actuator o.cls).isSome (supersede o.actuator o.cls s),
        some ((supersede o.actuator o.cls s).handleAt i, s.holder o.actuator o.cls)) := by
  unfold placeOrder
  dsimp only
  rw [free]

theorem placeOrder_full {o : Order} {s : State} (full : (supersede o.actuator o.cls s).freeSlot? = none) :
    placeOrder o s = (supersede o.actuator o.cls s, none) := by
  unfold placeOrder
  dsimp only
  rw [full]

theorem freeSlot?_free {s : State} {i : Slot} (h : s.freeSlot? = some i) : s.orderAt i = none := by
  simpa [State.freeSlot?] using List.find?_some h

theorem written_slot (o : Order) (i : Slot) (s : State) (j : Slot) : (written o i s).slot j =
    if j = i then ⟨(s.slot i).gen, some { o with state := s.initialState o.prereq }⟩ else s.slot j :=
  slot_setSlot _ _ _ _

theorem written_self (o : Order) (i : Slot) (s : State) :
    (written o i s).order? (s.handleAt i) = some { o with state := s.initialState o.prereq } := by
  rw [State.order?, State.orderAt, show (s.handleAt i).slot = i from rfl, written_slot, if_pos rfl]
  exact if_pos rfl

theorem supersede_steady (a : Actuator) (c : Cls) (s : State) : Steady s (supersede a c s) := by
  unfold supersede
  split
  · exact retireCore_steady _ _ (not_silent (by decide)) _
  · exact .refl s

theorem armGuards_steady (h : Handle) (s : State) : Steady s (armGuards h s) :=
  (steady_engine s).armGuards trivial (.refl s)

theorem recordOrder_steady (h : Handle) (a : Actuator) (c : Cls) (s : State) : Steady s (recordOrder h a c s) := by
  unfold recordOrder
  split
  · exact updLane_steady _ _ _
  · exact .refl s

/-- All that follows the record of a new order is steady. -/
theorem installOrder_steady (o : Order) (i : Slot) (replaced : Bool) (s : State) :
    Steady (written o i s) (installOrder o i replaced s) := by
  rw [installOrder_eq]
  have armed : Steady (written o i s) (armedNew o i s) := by
    unfold armedNew
    split
    · exact armGuards_steady _ _
    · exact .refl _
  have entered := armed.trans (recordOrder_steady (s.handleAt i) o.actuator o.cls _)
  refine Steady.trans ?_ (settleGate_steady _)
  unfold resolvedNew
  split
  · exact entered.trans (resolve_steady _ _)
  · exact entered

/-! ### An order without guards that nothing completes outlives its placement -/

theorem armGuards_unguarded {h : Handle} {o : Order} {s : State} (ho : s.order? h = some o) (none : o.guards = []) :
    armGuards h s = s := by
  simp [armGuards, armGuard, ho, none]

theorem recordOrder_slot (h : Handle) (a : Actuator) (c : Cls) (s : State) (i : Slot) :
    (recordOrder h a c s).slot i = s.slot i := by
  unfold recordOrder; split <;> simp

theorem installOrder_stays {o : Order} {i : Slot} {replaced : Bool} {s : State} (guards : o.guards = [])
    (prereq : o.prereq = none) (standing : o.completion = .standing) :
    ∃ p, (installOrder o i replaced s).order? (s.handleAt i) = some p ∧ o.sameSeat p := by
  have pending : s.initialState o.prereq = .pending := by rw [prereq]; rfl
  have live := written_self o i s
  rw [pending] at live
  have K := stays_engine (s.handleAt i) { o with state := .pending }
  have start : Stays (s.handleAt i) { o with state := .pending } (written o i s) :=
    ⟨_, live, Order.restands_refl _, by simp⟩
  have recorded : Stays (s.handleAt i) { o with state := .pending } (entered o i s) := by
    refine start.of_slot ?_
    rw [entered, recordOrder_slot, armedNew, if_pos pending, armGuards_unguarded live guards]
  obtain ⟨⟨p, hp, hop, -⟩, -⟩ := K.settleGate (s := resolvedNew o i replaced s)
    ⟨by rw [resolvedNew, if_pos (.inl pending)]; exact recorded.restood (resolve_resolves _ _).slots, .inl standing⟩
  have seat := Order.kept_sameSeat (Order.restands_kept hop)
  exact ⟨p, by rw [installOrder_eq, hp], seat⟩

end Sys2Proof.Machine
end

section
/-! The plan law (R120, R114) through every step: idle plans, depth notes, spawns, the evaluation of a bank, SWAP. -/

namespace Sys2Proof.Machine

/-- The links with no spawn or retirement of the plan store under way. -/
abbrev Linked (s : State) : Prop := PlanLinks (fun _ => False) (fun _ => False) s

/-- The entry is not LIVE. -/
def State.unlit (s : State) (e : EntryIx) : Prop := ∀ x, s.entry s.active e = some x → x.asleep

/-! ### Operations that light no entry -/

/-- Outside `E` no entry becomes LIVE; mode, depth, active bank and the entries' fields stay. -/
structure NoNewLive (E : EntryIx → Prop) (s t : State) : Prop where
  mode : t.mode = s.mode
  active : t.active = s.active
  depth : t.depth.value = s.depth.value
  fields : ∀ b e, (t.entry b e).map PlanEntry.fields = (s.entry b e).map PlanEntry.fields
  live : ∀ b e x k, ¬ E e → t.entry b e = some x → x.state = .live k → s.entry b e = some x

section
variable {E : EntryIx → Prop}

theorem NoNewLive.of_entries {s t : State} (mode : t.mode = s.mode) (active : t.active = s.active)
    (depth : t.depth.value = s.depth.value) (entry : ∀ b e, t.entry b e = s.entry b e) : NoNewLive E s t :=
  ⟨mode, active, depth, fun b e => by rw [entry], fun b e _ _ _ hx _ => entry b e ▸ hx⟩

theorem NoNewLive.refl (s : State) : NoNewLive E s s := .of_entries rfl rfl rfl fun _ _ => rfl

theorem NoNewLive.trans {s t u : State} (h : NoNewLive E s t) (k : NoNewLive E t u) : NoNewLive E s u :=
  ⟨k.mode.trans h.mode, k.active.trans h.active, k.depth.trans h.depth,
    fun b e => (k.fields b e).trans (h.fields b e), fun b e x y hE hx hl => h.live b e x y hE (k.live b e x y hE hx hl) hl⟩

theorem Steady.noNewLive {s t : State} (h : Steady s t) : NoNewLive E s t :=
  ⟨h.store.1, h.store.2.1, h.store.2.2.1, h.fields, fun _ _ _ _ _ => h.was_live⟩

theorem setEntryState_noNewLive (s : State) (b : BankIx) (e : EntryIx) {st : EntryState}
    (stays : E e ∨ ∀ h, st ≠ .live h) : NoNewLive E s (s.setEntryState b e st) := by
  refine ⟨by simp, by simp, by simp, (setEntryState_frame s b e st).tables.entries, fun b' e' x k hE hx hl => ?_⟩
  rw [entry_setEntryState] at hx
  split at hx
  · next same =>
    obtain ⟨y, -, rfl⟩ := Option.map_eq_some_iff.1 hx
    rcases stays with h | h
    · exact absurd (same.2 ▸ h) hE
    · exact absurd hl (h k)
  · exact hx

theorem NoNewLive.unlit {s t : State} (h : NoNewLive E s t) {e : EntryIx} (hE : ¬ E e) (u : s.unlit e) : t.unlit e := by
  intro x hx k hl
  rw [h.active] at hx
  exact u x (h.live _ _ x k hE hx hl) k hl

theorem NoNewLive.bandHolds {s t : State} (h : NoNewLive E s t) {e : EntryIx} (hE : ¬ E e) (b : BandHolds s e) :
    BandHolds t e := by
  intro x k hx hl
  rw [h.active] at hx
  rw [h.depth]
  exact b x k (h.live _ _ x k hE hx hl) hl

end

theorem bandHolds_of_unlit {s : State} {e : EntryIx} (u : s.unlit e) : BandHolds s e :=
  fun x h hx hl => absurd hl (u x hx h)

theorem unlit_setEntryState (s : State) (e : EntryIx) {st : EntryState} (stays : ∀ h, st ≠ .live h) :
    (s.setEntryState s.active e st).unlit e := by
  intro x hx
  simp only [setEntryState_leaves, entry_setEntryState, and_self, if_true] at hx
  obtain ⟨y, -, rfl⟩ := Option.map_eq_some_iff.1 hx
  exact stays

/-- The state of an entry that is not LIVE is none of the LIVE ones. -/
theorem asleep_of_state {x : PlanEntry} {st : EntryState} (h : x.state = st) (stays : ∀ k, st ≠ .live k) : x.asleep :=
  fun k e => stays k (h ▸ e)

theorem unlit_of_entry {s : State} {e : EntryIx} {x : PlanEntry} (hx : s.entry s.active e = some x) (h : x.asleep) :
    s.unlit e := by
  intro y hy
  rw [hx] at hy; cases hy
  exact h

theorem position_stays (x : PlanEntry) (d : Int) : ∀ h, x.position d ≠ .live h := by
  intro h
  unfold PlanEntry.position
  split <;> simp

/-! ### The plan store's own retirements -/

theorem retire_rest_steady {i : Slot} {c : Cause} {s : State} {o : Order} (h : s.orderAt i = some o) :
    Steady (retireOne true i c s) (retire i c s) := by
  rw [retire, retireCore]
  simp only [h]
  exact ((steady_engine (retireOne true i c s)).cascade 40 (retireOne_unreached true i c s) (.refl _)).trans
    (settleGate_steady _)

/-- The plan store retires the order of a LIVE entry: the entry stands outside the links, and nothing is lit. -/
theorem retire_links {E : EntryIx → Prop} {s : State} {e : EntryIx} {x : PlanEntry} {h : Handle} {c : Cause}
    (l : PlanLinks E (fun _ => False) s) (hE : ¬ E e) (hx : s.entry s.active e = some x) (hl : x.state = .live h)
    (hc : c.silent) :
    PlanLinks (fun k => E k ∨ k = e) (fun _ => False) (retire h.slot c s) ∧
      NoNewLive (fun _ => False) s (retire h.slot c s) ∧ (retire h.slot c s).order? h = none := by
  obtain ⟨o, ho, -⟩ := l.live e x h hE hx hl
  obtain ⟨hh, live⟩ := order?_eq_some ho
  have rest := retire_rest_steady (c := c) live
  have blocks := (retireOne_frame true h.slot c s).blocks
  refine ⟨rest.links (l.retireSilent hE hx hl hc), ?_, ?_⟩
  · exact (NoNewLive.of_entries blocks.mode blocks.active (by rw [blocks.depth]) (retireOne_entry_silent hc)).trans
      rest.noNewLive
  · have gone := retireOne_unreached true h.slot c s
    rw [hh] at gone
    by_contra some
    obtain ⟨p, hp⟩ := Option.ne_none_iff_exists'.1 some
    obtain ⟨hk, ht⟩ := order?_eq_some hp
    obtain ⟨q, hq, -, gen⟩ := rest.orders _ p ht
    rw [order?_of_orderAt ((handleAt_of_gen gen).symm.trans hk) hq] at gone
    cases gone

/-! ### Depth notes (R118) -/

theorem noteRetire_links {d : Int} {e : EntryIx} {x : PlanEntry} {s : State} (l : Linked s)
    (hx : s.entry s.active e = some x) (depth : s.depth.value = some d) :
    Linked (noteRetire d e x s) ∧ NoNewLive (fun _ => False) s (noteRetire d e x s) ∧
      BandHolds (noteRetire d e x s) e := by
  unfold noteRetire
  split
  · next h hl =>
    split
    · next holds =>
      refine ⟨l, .refl s, fun y k hy _ => ⟨d, depth, ?_⟩⟩
      rw [hx] at hy; cases hy
      simpa [PlanEntry.holds, inBandOf] using holds
    · obtain ⟨o, ho, -⟩ := l.live e x h id hx hl
      rw [if_pos (by rw [ho]; rfl)]
      obtain ⟨links, dark, -⟩ := retire_links l id hx hl (c := .outOfBand) (.inl rfl)
      have alone := links.congr (F := fun k => k = e) fun k => by simp
      have unlit := unlit_setEntryState (retire h.slot .outOfBand s) e (position_stays x d)
      refine ⟨(alone.setEntryState (.inl rfl) (position_stays x d)).letIn unlit,
        dark.trans (setEntryState_noNewLive _ _ _ (.inr (position_stays x d))), bandHolds_of_unlit unlit⟩
  · next asleep =>
    exact ⟨l, .refl s, bandHolds_of_unlit (unlit_of_entry hx fun h => asleep h)⟩

theorem setPosition_links {d : Int} {e : EntryIx} {x : PlanEntry} {s : State} (l : Linked s) (u : s.unlit e) :
    Linked (s.setEntryState s.active e (x.position d)) ∧
      NoNewLive (fun _ => False) s (s.setEntryState s.active e (x.position d)) :=
  ⟨l.setEntryState (.inr u) (position_stays x d), setEntryState_noNewLive _ _ _ (.inr (position_stays x d))⟩

theorem noteRearm_links {d : Int} {e : EntryIx} {x : PlanEntry} {s : State} (l : Linked s)
    (hx : s.entry s.active e = some x) :
    Linked (noteRearm d e x s) ∧ NoNewLive (fun _ => False) s (noteRearm d e x s) := by
  unfold noteRearm
  split
  · next h =>
    split
    · exact ⟨l, .refl s⟩
    · exact setPosition_links l (unlit_of_entry hx (asleep_of_state h (by simp)))
  · next h =>
    split
    · exact ⟨l, .refl s⟩
    · exact setPosition_links l (unlit_of_entry hx (asleep_of_state h (by simp)))
  · exact ⟨l, .refl s⟩

/-! ### Spawns (R116) -/

/-- A record of an order that names no entry keeps the links. -/
theorem PlanLinks.write {E : EntryIx → Prop} {I : Slot → Prop} {s : State} (l : PlanLinks E I s) {o : Order} {i : Slot}
    (free : s.orderAt i = none) (own : (o.cls ≠ .plan ∧ o.planEntry = none) ∨
      ∃ e, o.planEntry = some (s.active, e) ∧ I i ∧ E e) : PlanLinks E I (written o i s) where
  live e x h hE hx hl := by
    obtain ⟨p, hp, rest⟩ := l.live e x h hE hx hl
    obtain ⟨hh, live⟩ := order?_eq_some hp
    have apart : h.slot ≠ i := by rintro rfl; rw [free] at live; cases live
    refine ⟨p, ?_, rest⟩
    rw [← hp]
    exact order?_of_slot (by rw [written_slot, if_neg apart])
  named j p hp hn := by
    rw [State.orderAt, written_slot] at hp
    split at hp
    · next same =>
      cases hp
      rcases own with ⟨cls, entry⟩ | ⟨e, he, hI, hE⟩
      · exact absurd hn (by simp [cls, entry])
      · exact ⟨e, he, .inl ⟨same ▸ hI, hE⟩⟩
    · next apart =>
      obtain ⟨e, he, part⟩ := l.named j p hp hn
      refine ⟨e, he, part.imp_right fun ⟨hE, x, hx, hl⟩ => ⟨hE, x, hx, ?_⟩⟩
      rw [hl, handleAt_of_gen (s := s) (t := written o i s) (by rw [written_slot, if_neg apart])]
  asleep e x := l.asleep e x

theorem written_noNewLive {E : EntryIx → Prop} (o : Order) (i : Slot) (s : State) : NoNewLive E s (written o i s) :=
  .of_entries rfl rfl rfl fun _ _ => rfl

/-- The slot of the new order and its entry close the links: the entry becomes LIVE with the order's handle. -/
theorem PlanLinks.close {s : State} {e : EntryIx} {i : Slot} {x : PlanEntry} {p : Order}
    (l : PlanLinks (fun k => k = e) (fun j => j = i) s) (hx : s.entry s.active e = some x)
    (hp : s.orderAt i = some p) (cls : p.cls = .plan) (act : p.actuator = x.actuator)
    (entry : p.planEntry = some (s.active, e)) : Linked (s.setEntryState s.active e (.live (s.handleAt i))) where
  live e' y h _ hy hl := by
    simp only [setEntryState_leaves, entry_setEntryState, true_and] at hy ⊢
    split at hy
    · next same =>
      subst same
      rw [hx] at hy
      cases hy
      cases hl
      exact ⟨p, (order?_handleAt s i).trans hp, cls, act, entry⟩
    · next apart => exact l.live e' y h apart hy hl
  named j q hq hn := by
    simp only [setEntryState_leaves, entry_setEntryState, true_and] at hq ⊢
    obtain ⟨e', he', ⟨rfl, rfl⟩ | ⟨apart, y, hy, hl⟩⟩ := l.named j q hq hn
    · exact ⟨e', he', .inr ⟨id, { x with state := .live (s.handleAt j) }, by simp [hx], rfl⟩⟩
    · exact ⟨e', he', .inr ⟨id, y, by rw [if_neg apart, hy], hl⟩⟩
  asleep e' y hy := by
    rw [shadow_of_active (s := s) (by simp), entry_setEntryState, if_neg] at hy
    · exact l.asleep e' y hy
    · exact fun h => shadow_ne_active s h.1.symm

/-- A PLAN order installed for an entry that is not LIVE, and the entry LIVE with it. -/
theorem PlanLinks.installed {s t : State} {e : EntryIx} {x : PlanEntry} {i : Slot} {o p : Order} (l : Linked s)
    (u : s.unlit e) (free : s.orderAt i = none) (hx : s.entry s.active e = some x) (cls : o.cls = .plan)
    (act : o.actuator = x.actuator) (entry : o.planEntry = some (s.active, e)) (rest : Steady (written o i s) t)
    (live : t.order? (s.handleAt i) = some p) (seat : o.sameSeat p) :
    Linked (t.setEntryState s.active e (.live (s.handleAt i))) ∧
      NoNewLive (fun k => k = e) s (t.setEntryState s.active e (.live (s.handleAt i))) := by
  have links : PlanLinks (fun k => k = e) (fun j => j = i) t :=
    rest.links (((l.weaken u).congr fun k => by simp).write free (.inr ⟨e, entry, rfl, rfl⟩))
  have dark : NoNewLive (fun k => k = e) s t := (written_noNewLive o i s).trans rest.noNewLive
  obtain ⟨handle, live⟩ := order?_eq_some live
  have handle : t.handleAt i = s.handleAt i := handle
  have fields : (t.entry s.active e).map PlanEntry.fields = (s.entry s.active e).map PlanEntry.fields :=
    rest.fields s.active e
  obtain ⟨y, hy, fields⟩ := entry_of_fields fields.symm hx
  have actuator : y.actuator = x.actuator := congrArg (fun f => f.2.2.1) fields
  have active : t.active = s.active := dark.active
  refine ⟨?_, dark.trans (setEntryState_noNewLive _ _ _ (.inl rfl))⟩
  rw [← handle, ← active]
  exact links.close (active ▸ hy) live (seat.1.trans cls) (seat.2.1.trans (act.trans actuator.symm))
    (seat.2.2.1.trans (active ▸ entry))

/-- The order of an entry placed, and the entry LIVE with it. -/
theorem spawned_links {e : EntryIx} {x : PlanEntry} {s : State} (l : Linked s) (u : s.unlit e)
    (hx : s.entry s.active e = some x) (fit : s.spawnFailure x = none) :
    Linked (spawn e s) ∧ NoNewLive (fun k => k = e) s (spawn e s) := by
  have before := supersede_steady x.actuator .plan s
  cases free : (supersede x.actuator .plan s).freeSlot? with
  | none =>
    have eq : spawn e s = supersede x.actuator .plan s := by
      simp only [spawn, hx, fit, placeOrder_full (o := planOrder s.active e x) free]
      rfl
    rw [eq]
    exact ⟨before.links l, before.noNewLive⟩
  | some i =>
    have eq : spawn e s = (installOrder (planOrder s.active e x) i (s.holder x.actuator .plan).isSome
        (supersede x.actuator .plan s)).setEntryState s.active e (.live ((supersede x.actuator .plan s).handleAt i)) := by
      simp only [spawn, hx, fit, placeOrder_free (o := planOrder s.active e x) free]
      rfl
    rw [eq]
    have dark : NoNewLive (fun k => k = e) s (supersede x.actuator .plan s) := before.noNewLive
    obtain ⟨y, hy, fields⟩ := entry_of_fields (before.fields s.active e).symm hx
    have actuator : y.actuator = x.actuator := congrArg (fun f => f.2.2.1) fields
    have unlit := before.noNewLive (E := fun _ => False).unlit id u
    obtain ⟨p, live, seat⟩ := installOrder_stays (o := planOrder s.active e x) (i := i)
      (s := supersede x.actuator .plan s) (replaced := (s.holder x.actuator .plan).isSome) rfl rfl rfl
    have result := PlanLinks.installed (before.links l) unlit (freeSlot?_free free) (dark.active ▸ hy) rfl actuator.symm
      (dark.active ▸ rfl) (installOrder_steady _ _ _ _) live seat
    rw [dark.active] at result
    exact ⟨result.1, dark.trans result.2⟩

theorem spawn_links {e : EntryIx} {s : State} (l : Linked s) (u : s.unlit e) :
    Linked (spawn e s) ∧ NoNewLive (fun k => k = e) s (spawn e s) := by
  cases hx : s.entry s.active e with
  | none =>
    have eq : spawn e s = s := by simp only [spawn, hx]
    rw [eq]
    exact ⟨l, .refl s⟩
  | some x =>
    cases fit : s.spawnFailure x with
    | none => exact spawned_links l u hx fit
    | some w =>
      have eq : spawn e s = queueNotice .operator (.entrySkipped s.active e x.actuator w)
          (s.setEntryState s.active e .skipped) := by simp only [spawn, hx, fit]
      have notice := queueNotice_steady .operator (.entrySkipped s.active e x.actuator w)
        (s.setEntryState s.active e .skipped)
      rw [eq]
      exact ⟨notice.links (l.setEntryState (.inr u) (by simp)),
        (setEntryState_noNewLive _ _ _ (.inr (by simp))).trans notice.noNewLive⟩

end Sys2Proof.Machine
end

section
/-! The plan law over a whole bank: depth notes, evaluation, SWAP, START and RESTART; and the law kept by every step. -/

namespace Sys2Proof.Machine

/-! ### A bank in turn -/

/-- A fold whose every item finds what its turn needs, the turns before having left it. -/
theorem foldl_turns {α σ : Type} {f : σ → α → σ} {P : σ → Prop} {U : α → σ → Prop}
    (turn : ∀ s x, P s → U x s → P (f s x)) (keep : ∀ s x y, P s → U x s → y ≠ x → U y s → U y (f s x)) :
    ∀ (l : List α) (s : σ), l.Nodup → P s → (∀ x ∈ l, U x s) → P (l.foldl f s)
  | [], _, _, hs, _ => hs
  | x :: l, s, nd, hs, hu => by
    obtain ⟨apart, nd⟩ := List.nodup_cons.1 nd
    have hx := hu x List.mem_cons_self
    exact foldl_turns turn keep l (f s x) nd (turn s x hs hx) fun y hy =>
      keep s x y hs hx (by rintro rfl; exact apart hy) (hu y (List.mem_cons_of_mem x hy))

/-- A bank gone through with a property each turn keeps and each turn establishes for its own entry. -/
theorem overEntries_keeps {f : EntryIx → PlanEntry → State → State} {P : State → Prop}
    (turn : ∀ s e x, P s → s.entry s.active e = some x → P (f e x s)) {s : State} (hs : P s) :
    P (overEntries f s) := by
  unfold overEntries
  refine List.foldlRecOn allEntries _ hs fun t ht e _ => ?_
  split
  · next x hx => exact turn t e x ht hx
  · exact ht

theorem overEntries_establishes {f : EntryIx → PlanEntry → State → State} {P : State → Prop} {R : EntryIx → State → Prop}
    (turn : ∀ s e x, P s → s.entry s.active e = some x → P (f e x s) ∧ R e (f e x s))
    (empty : ∀ s e, P s → s.entry s.active e = none → R e s)
    (keep : ∀ s e x y, P s → s.entry s.active e = some x → R y s → R y (f e x s)) {s : State} (hs : P s) :
    P (overEntries f s) ∧ ∀ e, R e (overEntries f s) := by
  refine ⟨overEntries_keeps (fun s e x h hx => (turn s e x h hx).1) hs, fun e => ?_⟩
  unfold overEntries
  refine foldl_establishes (P := P) (R := R) (fun s e h => ?_) (fun s e h => ?_) (fun s e y h hy => ?_) allEntries s hs e
    (mem_allEntries e)
  · split
    · next x hx => exact (turn s e x h hx).1
    · exact h
  · split
    · next x hx => exact (turn s e x h hx).2
    · next hx => exact empty s e h hx
  · split
    · next x hx => exact keep s e x y h hx hy
    · exact hy

/-- The links stand and every LIVE entry holds the depth `d`. -/
def Planned (m : Mode) (d : Option Int) (s : State) : Prop := s.mode = m ∧ s.depth.value = d ∧ Linked s

theorem Planned.dark {m : Mode} {d : Option Int} {s t : State} {E : EntryIx → Prop} (h : Planned m d s) (l : Linked t)
    (n : NoNewLive E s t) : Planned m d t := ⟨n.mode.trans h.1, n.depth.trans h.2.1, l⟩

theorem unlit_of_none {s : State} {e : EntryIx} (h : s.entry s.active e = none) : s.unlit e := by
  intro x hx
  rw [h] at hx; cases hx

theorem noteRetire_bank {m : Mode} {d : Int} {s : State} (h : Planned m (some d) s) :
    Planned m (some d) (overEntries (noteRetire d) s) ∧ ∀ e, BandHolds (overEntries (noteRetire d) s) e := by
  refine overEntries_establishes (P := Planned m (some d)) (R := fun e s => BandHolds s e) (fun s e x h hx => ?_)
    (fun s e _ hx => bandHolds_of_unlit (unlit_of_none hx)) (fun s e x y h hx hy => ?_) h
  · obtain ⟨l, n, b⟩ := noteRetire_links h.2.2 hx h.2.1
    exact ⟨h.dark l n, b⟩
  · exact (noteRetire_links h.2.2 hx h.2.1).2.1.bandHolds id hy

theorem noteRearm_bank {m : Mode} {d : Int} {s : State} (h : Planned m (some d) s) (b : ∀ e, BandHolds s e) :
    Planned m (some d) (overEntries (noteRearm d) s) ∧ ∀ e, BandHolds (overEntries (noteRearm d) s) e := by
  refine overEntries_keeps (P := fun s => Planned m (some d) s ∧ ∀ e, BandHolds s e) (fun s e x h hx => ?_) ⟨h, b⟩
  obtain ⟨l, n⟩ := noteRearm_links (d := d) h.1.2.2 hx
  exact ⟨h.1.dark l n, fun e => n.bandHolds id (h.2 e)⟩

/-- A spawn of an entry that holds the depth. -/
theorem spawn_planned {m : Mode} {d : Int} {s : State} {e : EntryIx} {x : PlanEntry} (h : Planned m (some d) s)
    (b : ∀ e, BandHolds s e) (hx : s.entry s.active e = some x) (asleep : x.asleep) (holds : x.holds d = true) :
    Planned m (some d) (spawn e s) ∧ ∀ k, BandHolds (spawn e s) k := by
  obtain ⟨l, n⟩ := spawn_links h.2.2 (unlit_of_entry hx asleep)
  refine ⟨h.dark l n, fun e' => ?_⟩
  by_cases same : e' = e
  · rw [same]
    intro y k hy _
    rw [n.active] at hy
    obtain ⟨z, hz, same⟩ := entry_of_fields (n.fields s.active e) hy
    rw [hx] at hz; cases hz
    simp only [PlanEntry.fields, Prod.mk.injEq] at same
    rw [PlanEntry.holds, inBandOf, same.1, same.2.1] at holds
    exact ⟨d, n.depth.trans h.2.1, by simpa using holds⟩
  · exact n.bandHolds same (b e')

theorem noteSpawn_bank {m : Mode} {d : Int} {s : State} (h : Planned m (some d) s) (b : ∀ e, BandHolds s e) :
    Planned m (some d) (overEntries (noteSpawn d) s) ∧ ∀ e, BandHolds (overEntries (noteSpawn d) s) e := by
  refine overEntries_keeps (P := fun s => Planned m (some d) s ∧ ∀ e, BandHolds s e) (fun s e x h hx => ?_) ⟨h, b⟩
  have waiting : x.asleep → (Planned m (some d) (if x.holds d then spawn e s else s.setEntryState s.active e (x.position d))
      ∧ ∀ k, BandHolds (if x.holds d then spawn e s else s.setEntryState s.active e (x.position d)) k) := by
    intro asleep
    split
    · next holds => exact spawn_planned h.1 h.2 hx asleep holds
    · obtain ⟨l, n⟩ := setPosition_links (d := d) (x := x) h.1.2.2 (unlit_of_entry hx asleep)
      exact ⟨h.1.dark l n, fun k => n.bandHolds id (h.2 k)⟩
  unfold noteSpawn
  split
  · next st => exact waiting (asleep_of_state st (by simp))
  · next st => exact waiting (asleep_of_state st (by simp))
  · exact h

/-- A depth note in RUN leaves the plan lawful, whatever the depth was. -/
theorem planNote_planned {d : Int} {s : State} (h : Planned .run (some d) s) :
    Planned .run (some d) (planNote d s) ∧ ∀ e, BandHolds (planNote d s) e := by
  rw [planNote, if_pos h.1]
  obtain ⟨h1, b1⟩ := noteRetire_bank h
  obtain ⟨h2, b2⟩ := noteRearm_bank h1 b1
  exact noteSpawn_bank h2 b2

/-! ### The evaluation of a bank with no LIVE entry (R115) -/

theorem setStates_planned {m : Mode} {d : Option Int} (st : PlanEntry → EntryState) (stays : ∀ x h, st x ≠ .live h)
    {s : State} (h : Planned m d s) (u : ∀ e, s.unlit e) :
    Planned m d (overEntries (fun e x s => s.setEntryState s.active e (st x)) s) ∧
      ∀ e, (overEntries (fun e x s => s.setEntryState s.active e (st x)) s).unlit e := by
  refine overEntries_keeps (P := fun s => Planned m d s ∧ ∀ e, s.unlit e) (fun s e x h _ => ?_) ⟨h, u⟩
  have n := setEntryState_noNewLive (E := fun _ => False) s s.active e (.inr (stays x))
  exact ⟨h.1.dark (h.1.2.2.setEntryState (.inr (h.2 e)) (stays x)) n, fun k => n.unlit id (h.2 k)⟩

theorem placeEntries_planned {m : Mode} {d : Option Int} (v : Option Int) {s : State} (h : Planned m d s)
    (u : ∀ e, s.unlit e) : Planned m d (placeEntries v s) ∧ ∀ e, (placeEntries v s).unlit e := by
  cases v with
  | none => exact setStates_planned (fun _ => .ahead) (by simp) h u
  | some v => exact setStates_planned (fun x => x.position v) (fun x => position_stays x v) h u

theorem spawnEntries_planned {m : Mode} {d : Option Int} {s : State} (h : Planned m d s) (u : ∀ e, s.unlit e) :
    Planned m d (spawnEntries d s) ∧ ∀ e, BandHolds (spawnEntries d s) e := by
  cases d with
  | none => exact ⟨h, fun e => bandHolds_of_unlit (u e)⟩
  | some d =>
    unfold spawnEntries overEntries
    dsimp only
    refine foldl_turns (P := fun s => Planned m (some d) s ∧ ∀ e, BandHolds s e) (U := fun e s => s.unlit e)
      (fun s e h u => ?_) (fun s e k h u apart hk => ?_) allEntries s nodup_allEntries
      ⟨h, fun e => bandHolds_of_unlit (u e)⟩ fun e _ => u e
    · split
      · next x hx =>
        split
        · next holds => exact spawn_planned h.1 h.2 hx (u x hx) holds
        · exact h
      · exact h
    · split
      · split
        · exact (spawn_links h.1.2.2 u).2.unlit apart hk
        · exact hk
      · exact hk

theorem evaluateBank_planned {m : Mode} {d : Option Int} {s : State} (h : Planned m d s) (u : ∀ e, s.unlit e) :
    Planned m d (evaluateBank s) ∧ ∀ e, BandHolds (evaluateBank s) e := by
  rw [evaluateBank, h.2.1]
  obtain ⟨placed, unlit⟩ := placeEntries_planned d h u
  exact spawnEntries_planned placed unlit

/-! ### An idle plan -/

/-- No order is of the plan, and every entry is DORMANT. -/
structure Idle (s : State) : Prop where
  orders : ∀ i o, s.orderAt i = some o → o.cls ≠ .plan ∧ o.planEntry = none
  dormant : ∀ b e x, s.entry b e = some x → x.state = .dormant

theorem Idle.linked {s : State} (h : Idle s) : Linked s where
  live e x k _ hx hl := by rw [h.dormant _ e x hx] at hl; cases hl
  named i o ho hp := by
    obtain ⟨cls, entry⟩ := h.orders i o ho
    exact absurd hp (by simp [cls, entry])
  asleep e x := h.dormant _ e x

theorem Idle.unlit {s : State} (h : Idle s) (e : EntryIx) : s.unlit e :=
  fun x hx => asleep_of_state (h.dormant _ e x hx) (by simp)

theorem Idle.of_tables {s t : State} (slots : t.slots = s.slots) (banks : t.banks = s.banks) (h : Idle s) : Idle t :=
  ⟨fun i o ho => h.orders i o (by rwa [State.orderAt, slot_of_slots slots] at ho),
    fun b e x hx => h.dormant b e x (by rwa [entry_of_banks banks] at hx)⟩

theorem Idle.steady {s t : State} (h : Steady s t) (idle : Idle s) : Idle t := by
  refine ⟨fun i p hp => ?_, fun b e x hx => ?_⟩
  · obtain ⟨o, ho, seat, -⟩ := h.orders i p hp
    rw [seat.1, seat.2.2.1]
    exact idle.orders i o ho
  · by_cases same : t.entry b e = s.entry b e
    · exact idle.dormant b e x (same ▸ hx)
    · obtain ⟨-, i, o, ho, -, entry⟩ := h.changed b e x same hx
      rw [(idle.orders i o ho).2] at entry; cases entry

/-! ### SWAP (R128) -/

/-- The links without the entries whose orders the SWAP has retired: their handles reach no order. -/
def Swapping (s : State) : Prop :=
  ∃ E : EntryIx → Prop, PlanLinks E (fun _ => False) s ∧
    ∀ e x h, E e → s.entry s.active e = some x → x.state = .live h → s.order? h = none

/-- No order names the entry. -/
def State.nameless (s : State) (e : EntryIx) : Prop := ∀ i o, s.orderAt i = some o → o.planEntry ≠ some (s.active, e)

theorem retire_frame_nameless {i : Slot} {c : Cause} {s : State} {e : EntryIx} (h : s.nameless e) :
    (retire i c s).nameless e := by
  intro j p hp
  obtain ⟨o, ho, kept, -⟩ := (retire_frame i c s).orders j p hp
  rw [(Order.kept_sameSeat kept).2.2.1, (retire_frame i c s).blocks.active]
  exact h j o ho

theorem swapRetire_swapping {e : EntryIx} {x : PlanEntry} {s : State} (h : Swapping s)
    (hx : s.entry s.active e = some x) :
    Swapping (swapRetire e x s) ∧ (swapRetire e x s).nameless e := by
  obtain ⟨E, l, gone⟩ := h
  unfold swapRetire
  split
  · next h hl =>
    by_cases hE : E e
    · have unreached := gone e x h hE hx hl
      rw [if_neg (by rw [unreached]; simp)]
      refine ⟨⟨E, l, gone⟩, fun i o ho he => ?_⟩
      obtain ⟨e', he', ⟨f, -⟩ | ⟨hE', -⟩⟩ := l.named i o ho (.inr (by rw [he]; simp))
      · exact f
      · rw [he] at he'; cases he'
        exact hE' hE
    · obtain ⟨o, ho, -⟩ := l.live e x h hE hx hl
      rw [if_pos (by rw [ho]; rfl)]
      obtain ⟨links, dark, unreached⟩ := retire_links l hE hx hl (c := .planSwap) (.inr (.inl rfl))
      refine ⟨⟨_, links, fun e' y k hE' hy hk => ?_⟩, fun i o ho he => ?_⟩
      · rw [dark.active] at hy
        have hy := dark.live _ _ y k id hy hk
        rcases hE' with hE' | rfl
        · exact OrdersKept.unreached (retire_frame _ _ _).orders (gone e' y k hE' hy hk)
        · rw [hx] at hy; cases hy
          rw [hl] at hk; cases hk
          exact unreached
      · obtain ⟨e', he', ⟨f, -⟩ | ⟨hE', -⟩⟩ := links.named i o ho (.inr (by rw [he]; simp))
        · exact f
        · rw [he] at he'; cases he'
          exact hE' (.inr rfl)
  · next asleep =>
    exact ⟨⟨E, l, gone⟩, fun i o ho => l.unnamed (unlit_of_entry hx fun h => asleep h) ho⟩

/-- Step 1 of a SWAP leaves no order of the plan. -/
theorem swapRetire_bank {s : State} (l : Linked s) :
    Swapping (overEntries swapRetire s) ∧ ∀ e, (overEntries swapRetire s).nameless e := by
  refine overEntries_establishes (P := Swapping) (R := fun e s => s.nameless e)
    (fun s e x h hx => swapRetire_swapping h hx) (fun s e ⟨E, l, _⟩ hx i o ho => l.unnamed (unlit_of_none hx) ho)
    (fun s e x k h hx hk => ?_) ⟨_, l, fun _ _ _ f => f.elim⟩
  unfold swapRetire
  split
  · split
    · exact retire_frame_nameless hk
    · exact hk
  · exact hk

theorem shadow_of_ne {s : State} {b : BankIx} (h : b ≠ s.active) : b = s.shadow := by
  unfold State.shadow
  revert h
  generalize s.active = a
  revert a b
  decide

theorem swapRetire_leaves (s : State) :
    (overEntries swapRetire s).mode = s.mode ∧ (overEntries swapRetire s).active = s.active := by
  refine overEntries_keeps (P := fun t => t.mode = s.mode ∧ t.active = s.active) (fun t e x h _ => ?_) ⟨rfl, rfl⟩
  unfold swapRetire
  split
  · split
    · have blocks := fun i => (retire_frame i .planSwap t).blocks
      exact ⟨(blocks _).mode.trans h.1, (blocks _).active.trans h.2⟩
    · exact h
  · exact h

/-- After step 1, with the bank put to sleep, the plan is idle. -/
theorem swapRetire_idle {s : State} (l : Linked s) : Idle (sleepBank s.active (overEntries swapRetire s)) := by
  obtain ⟨⟨E, links, -⟩, nameless⟩ := swapRetire_bank l
  have active := (swapRetire_leaves s).2
  refine ⟨fun i o ho => ?_, fun b e x hx => ?_⟩
  · obtain ⟨p, hp, seat⟩ := (sleepBank_loose s.active (overEntries swapRetire s)).orders i o ho
    rw [seat.1, seat.2.2.1]
    by_contra plan
    rw [not_and_or] at plan
    obtain ⟨e, he, -⟩ := links.named i p hp (plan.imp_left not_not.1)
    exact nameless e i p hp he
  · rw [sleepBank_entry] at hx
    split at hx
    · obtain ⟨y, -, rfl⟩ := Option.map_eq_some_iff.1 hx
      rfl
    · next other =>
      rw [shadow_of_ne other, ← shadow_of_active active] at hx
      exact links.asleep e x hx

theorem evaluateBank_idle {s : State} (h : Idle s) :
    Planned s.mode s.depth.value (evaluateBank s) ∧ ∀ e, BandHolds (evaluateBank s) e :=
  evaluateBank_planned ⟨rfl, rfl, h.linked⟩ h.unlit

/-! ### The law kept by every step -/

/-- The plan law with an idle plan in SETUP. -/
structure PlanHolds (s : State) : Prop where
  linked : Linked s
  bands : ∀ e, BandHolds s e
  rest : s.mode = .setup → (∀ i, s.orderAt i = none) ∧ ∀ b e x, s.entry b e = some x → x.state = .dormant

theorem PlanHolds.idle {s : State} (h : PlanHolds s) (m : s.mode = .setup) : Idle s :=
  ⟨fun i o ho => absurd ho (by rw [(h.rest m).1 i]; simp), (h.rest m).2⟩

theorem PlanHolds.law {s : State} (h : PlanHolds s) : PlanLaw s := planLaw_iff.2 ⟨h.linked, h.bands⟩

theorem Idle.bands {s : State} (h : Idle s) (e : EntryIx) : BandHolds s e := bandHolds_of_unlit (h.unlit e)

/-- A plan without orders and with every entry DORMANT. -/
theorem PlanHolds.of_empty {s : State} (orders : ∀ i, s.orderAt i = none)
    (dormant : ∀ b e x, s.entry b e = some x → x.state = .dormant) : PlanHolds s := by
  have idle : Idle s := ⟨fun i o ho => absurd ho (by rw [orders i]; simp), dormant⟩
  exact ⟨idle.linked, idle.bands, fun _ => ⟨orders, dormant⟩⟩

/-- In RUN the links and the bands are the law. -/
theorem Planned.holds {d : Option Int} {s : State} (h : Planned .run d s ∧ ∀ e, BandHolds s e) : PlanHolds s :=
  ⟨h.1.2.2, h.2, fun m => by rw [h.1.1] at m; cases m⟩

/-- What the law reads stays as it was. -/
theorem PlanHolds.of_tables {s t : State} (h : PlanHolds s) (mode : t.mode = s.mode) (slots : t.slots = s.slots)
    (banks : t.banks = s.banks) (active : t.active = s.active) (depth : t.depth.value = s.depth.value) :
    PlanHolds t := by
  have slot := slot_of_slots slots
  have entry := entry_of_banks banks
  refine ⟨⟨fun e x k hE hx hl => ?_, fun i o ho hp => ?_, fun e x hx => ?_⟩, fun e x k hx hl => ?_,
    fun m => ⟨fun i => ?_, fun b e x hx => ?_⟩⟩
  · rw [entry, active] at hx
    rw [order?_of_slot (slot _), active]
    exact h.linked.live e x k hE hx hl
  · rw [active]
    simp only [entry, handleAt_of_gen (congrArg SlotState.gen (slot i))]
    exact h.linked.named i o (by rwa [State.orderAt, slot] at ho) hp
  · rw [entry, shadow_of_active active] at hx
    exact h.linked.asleep e x hx
  · rw [entry, active] at hx
    rw [depth]
    exact h.bands e x k hx hl
  · rw [State.orderAt, slot]
    exact (h.rest (mode ▸ m)).1 i
  · rw [entry] at hx
    exact (h.rest (mode ▸ m)).2 b e x hx

theorem PlanHolds.steady {s t : State} (k : Steady s t) (h : PlanHolds s) : PlanHolds t := by
  refine ⟨k.links h.linked, fun e => k.bandHolds (h.bands e), fun m => ?_⟩
  have m : s.mode = .setup := k.store.1 ▸ m
  have empty : ∀ i, t.orderAt i = none := by
    intro i
    by_contra live
    obtain ⟨p, hp⟩ := Option.ne_none_iff_exists'.1 live
    obtain ⟨o, ho, -⟩ := k.orders i p hp
    rw [(h.rest m).1 i] at ho; cases ho
  exact ⟨empty, ((h.idle m).steady k).dormant⟩

theorem planHolds_reset : PlanHolds State.reset :=
  .of_empty (fun i => by simp [State.orderAt, State.slot, State.reset])
    fun b e x hx => by simp [State.entry, State.reset] at hx

/-- The depth in DEP (R101). -/
def noted (d : Int) (s : State) : State :=
  { s with depth := { s.depth with value := some d, status := .valid, stale := some 0 } }

theorem takeDepth_eq (d : Int) (s : State) : takeDepth d s = handPoint depPoint (noted d s) := rfl

theorem noted_linked {d : Int} {s : State} (l : Linked s) : Linked (noted d s) := ⟨l.live, l.named, l.asleep⟩

theorem PlanHolds.note {s : State} (d : Int) (h : PlanHolds s) : PlanHolds (planNote d (measureDepth d s)) := by
  have drift := driftNote_steady d s
  have before := h.steady drift
  have hand := handPoint_steady depPoint (noted d (driftNote d s))
  rw [measureDepth, takeDepth_eq]
  have mode : (handPoint depPoint (noted d (driftNote d s))).mode = s.mode :=
    Eq.trans hand.store.1 (Eq.trans rfl drift.store.1)
  cases m : s.mode with
  | run =>
    exact Planned.holds (planNote_planned ⟨mode.trans m, hand.store.2.2.1, hand.links (noted_linked before.linked)⟩)
  | setup =>
    rw [planNote, if_neg (by rw [mode, m]; simp)]
    obtain ⟨orders, dormant⟩ := before.rest (drift.store.1.trans m)
    exact PlanHolds.steady hand (.of_empty orders dormant)

theorem PlanHolds.place {s : State} {o : Order} (h : PlanHolds s) (run : s.mode = .run) (entry : o.planEntry = none)
    (cls : o.cls ≠ .plan) : PlanHolds (placeOrder o s).1 := by
  have before := supersede_steady o.actuator o.cls s
  have holds := h.steady before
  cases free : (supersede o.actuator o.cls s).freeSlot? with
  | none => rw [placeOrder_full free]; exact holds
  | some i =>
    rw [placeOrder_free free]
    refine PlanHolds.steady (installOrder_steady _ _ _ _) ?_
    refine Planned.holds (d := s.depth.value) ⟨⟨?_, before.store.2.2.1, ?_⟩, holds.bands⟩
    · exact before.store.1.trans run
    · exact holds.linked.write (freeSlot?_free free) (.inl ⟨cls, entry⟩)

theorem sleepBank_mode (b : BankIx) (s : State) : (sleepBank b s).mode = s.mode := by
  obtain ⟨bk, h⟩ := sleepBank_writes b s
  rw [h]

/-- The bank flipped to the other. -/
def flipped (s : State) : State := { s with active := s.shadow }

theorem flipped_mode (s : State) : (flipped s).mode = s.mode := rfl

theorem swapBanks_run {s : State} (run : s.mode = .run) :
    swapBanks s = evaluateBank (flipped (sleepBank s.active (overEntries swapRetire s))) := by
  rw [swapBanks, if_pos run]; rfl

theorem swapBanks_setup {s : State} (setup : s.mode = .setup) : swapBanks s = flipped s := by
  rw [swapBanks, if_neg (by rw [setup]; simp)]; rfl

theorem Idle.flipped {s : State} (h : Idle s) : Idle (flipped s) := ⟨h.orders, h.dormant⟩

/-- In RUN an idle plan is evaluated into a lawful one. -/
theorem planHolds_evaluated {s : State} (idle : Idle s) (run : s.mode = .run) : PlanHolds (evaluateBank s) := by
  have result := evaluateBank_idle idle
  rw [run] at result
  exact Planned.holds result

theorem PlanHolds.swap {s : State} (h : PlanHolds s) : PlanHolds (swapBanks s) := by
  cases m : s.mode with
  | run =>
    rw [swapBanks_run m]
    refine planHolds_evaluated (swapRetire_idle h.linked).flipped ?_
    rw [flipped_mode, sleepBank_mode, (swapRetire_leaves s).1, m]
  | setup =>
    rw [swapBanks_setup m]
    exact .of_empty (h.rest m).1 (h.rest m).2

theorem PlanHolds.start {s : State} (h : PlanHolds s) (setup : s.mode = .setup) : PlanHolds (startRun s).st := by
  have lanes := startLanes_steady { s with mode := .run }
  have idle : Idle { s with mode := .run } := ⟨(h.idle setup).orders, (h.idle setup).dormant⟩
  unfold startRun
  dsimp only
  exact planHolds_evaluated (idle.steady lanes) lanes.store.1

theorem freed_order (x : SlotState) : x.freed.order = none := by
  unfold SlotState.freed
  split
  · assumption
  · rfl

theorem planHolds_restart (s : State) : PlanHolds (restartRun s) :=
  .of_empty (fun i => by rw [State.orderAt, restartRun_slot, freed_order]) fun b e x hx => by
    rw [restartRun_entry] at hx
    obtain ⟨y, -, rfl⟩ := Option.map_eq_some_iff.1 hx
    rfl

/-- An entry of the shadow bank written DORMANT or emptied. -/
theorem PlanHolds.setShadow {s : State} {e : EntryIx} {x : Option PlanEntry} (h : PlanHolds s)
    (dormant : ∀ y, x = some y → y.state = .dormant) : PlanHolds (s.setEntry s.shadow e x) := by
  have active : ∀ k, (s.setEntry s.shadow e x).entry s.active k = s.entry s.active k := fun k => by
    rw [entry_setEntry, if_neg fun same => shadow_ne_active s same.1]
  have others : ∀ b k y, (s.setEntry s.shadow e x).entry b k = some y → y.state = .dormant ∨ s.entry b k = some y := by
    intro b k y hy
    rw [entry_setEntry] at hy
    split at hy
    · exact .inl (dormant y hy)
    · exact .inr hy
  refine ⟨⟨fun k y z hE hy hl => ?_, fun i o ho hp => ?_, fun k y hy => ?_⟩, fun k y z hy hl => ?_,
    fun m => ⟨(h.rest m).1, fun b k y hy => ?_⟩⟩
  · exact h.linked.live k y z hE (active k ▸ hy) hl
  · obtain ⟨k, hk, part⟩ := h.linked.named i o ho hp
    exact ⟨k, hk, part.imp_right fun ⟨hE, y, hy, hl⟩ => ⟨hE, y, (active k).trans hy, hl⟩⟩
  · exact (others _ k y hy).elim id (h.linked.asleep k y)
  · exact h.bands k y z (active k ▸ hy) hl
  · exact (others b k y hy).elim id ((h.rest m).2 b k y)

theorem planHolds_keeps : StepKeeps PlanHolds where
  steady k h := h.steady k
  powerOn s := planHolds_reset.of_tables rfl rfl rfl rfl rfl
  place h run entry cls _ := h.place run entry cls
  note d h := h.note d
  put h hx _ := h.setShadow fun y hy => by cases hy; exact hx
  drop _ h := h.setShadow fun y hy => by cases hy
  swap h := h.swap
  start h setup := h.start setup
  restart _ := planHolds_restart _
  template h _ _ := h.of_tables rfl rfl rfl rfl rfl
  bind w h _ := by cases w <;> exact h.of_tables rfl rfl rfl rfl rfl

/-- Settles O59: the tables' laws by their own rules, the plan law with the idle plan of SETUP. -/
theorem everyStepKeepsBandLaw : Obligations.EveryStepKeepsBandLaw := by
  intro s t e
  refine ⟨bandLaw_table.stepKeeps.step e, guardLaw_table.stepKeeps.step e, bindLaw_table.stepKeeps.step e, ?_⟩
  intro setup plan
  obtain ⟨linked, bands⟩ := planLaw_iff.1 plan
  have holds : PlanHolds s := ⟨linked, bands, fun m => ⟨setup.noOrders m, setup.dormant m⟩⟩
  exact (planHolds_keeps.step e holds).law

end Sys2Proof.Machine
end

section
/-! What a retirement is sure to do, whatever settles after it: its slot, its notice, its entry. -/

namespace Sys2Proof.Machine

theorem retireCore_live {lane : Bool} {i : Slot} {c : Cause} {s : State} {o : Order} (h : s.orderAt i = some o) :
    retireCore lane i c s = cascade 40 (s.handleAt i) (retireOne lane i c s) := by
  rw [retireCore]
  simp only [h]

theorem retireCore_dead {lane : Bool} {i : Slot} {c : Cause} {s : State} (h : s.orderAt i = none) :
    retireCore lane i c s = s := by
  rw [retireCore]
  simp only [h]

/-- What an operation of the engine adds to a queue comes after what stands in it. -/
theorem firstNotice.engine {s t u : State} {o : Origin} {n : Notice} (h : firstNotice s t o n) (k : EngineFrame t u) :
    firstNotice s u o n := by
  intro room
  obtain ⟨ns, hns⟩ := h room
  obtain ⟨ms, hms, -⟩ := k.tables.queue
  exact ⟨ns ++ ms, by rw [hms, hns]; simp⟩

theorem retireOne_first {lane : Bool} {i : Slot} {c : Cause} {s : State} {o : Order} (h : s.orderAt i = some o)
    (hc : c ≠ .restart) :
    firstNotice s (retireOne lane i c s) (addressee o.cls) (.retired (s.handleAt i) o.actuator c) := fun room =>
  ⟨[], by rw [retireOne_queue h hc, if_pos room]⟩

theorem retireCore_first {lane : Bool} {i : Slot} {c : Cause} {s : State} {o : Order} (h : s.orderAt i = some o)
    (hc : c ≠ .restart) :
    firstNotice s (retireCore lane i c s) (addressee o.cls) (.retired (s.handleAt i) o.actuator c) := by
  rw [retireCore_live h]
  exact (retireOne_first h hc).engine (cascade_frame _ _ _)

theorem retire_self {i : Slot} {c : Cause} {s : State} {o : Order} (h : s.orderAt i = some o) :
    (retire i c s).slot i = ⟨(s.slot i).gen + 1, none⟩ :=
  (settleGate_frame _).stays_free (retireCore_self h)

theorem retire_first {i : Slot} {c : Cause} {s : State} {o : Order} (h : s.orderAt i = some o) (hc : c ≠ .restart) :
    firstNotice s (retire i c s) (addressee o.cls) (.retired (s.handleAt i) o.actuator c) :=
  (retireCore_first h hc).engine (settleGate_frame _)

/-! ### The lease expiry (R18, R19) -/

theorem order?_slot {s : State} {h : Handle} {o : Order} (e : s.order? h = some o) :
    s.slot h.slot = ⟨h.gen, some o⟩ := by
  obtain ⟨hh, ho⟩ := order?_eq_some e
  rw [slot_eta, ho, show (s.slot h.slot).gen = h.gen from congrArg Handle.gen hh]

theorem leaseExpiry_due {h : Handle} {s : State} {o : Order} (live : s.order? h = some o) (due : o.leaseOut = true) :
    exec (.leaseExpiry h) s = .next (retire h.slot .expired s) := by
  show execLeaseExpiry h s = _
  simp only [execLeaseExpiry, live, due, if_true]

theorem leaseExpiry_void {h : Handle} {s : State} (void : ∀ o, s.order? h = some o → o.leaseOut = false) :
    exec (.leaseExpiry h) s = .next s := by
  show execLeaseExpiry h s = _
  cases live : s.order? h with
  | none => simp only [execLeaseExpiry, live]
  | some o => simp [execLeaseExpiry, live, void o live]

theorem leaseOut_iff {o : Order} : o.leaseOut = true ↔ ∃ n, o.lease = some ⟨n, 0⟩ := by
  unfold Order.leaseOut
  cases h : o.lease with
  | none => simp
  | some l => obtain ⟨n, r⟩ := l; simp

/-- Settles O22. -/
theorem leaseExpiryRetiresTheOrder : Obligations.LeaseExpiryRetiresTheOrder := by
  refine fun h s => ⟨fun running => leaseExpiry_void fun o live => ?_, fun o n live lease => ?_⟩
  · rw [Bool.eq_false_iff]
    intro out
    obtain ⟨n, lease⟩ := leaseOut_iff.1 out
    exact running o ⟨n, 0⟩ live lease rfl
  · obtain ⟨hh, ho⟩ := order?_eq_some live
    have self := retire_self (c := .expired) ho
    have first := retire_first (c := .expired) ho (by simp)
    rw [order?_slot live] at self
    rw [hh] at first
    exact ⟨_, leaseExpiry_due live (leaseOut_iff.2 ⟨n, lease⟩), self, first, retire_frame _ _ _⟩

end Sys2Proof.Machine
end

section
/-! The step on an empty queue: the one event that is due, the first control interval, or a millisecond. -/

namespace Sys2Proof.Machine

theorem step_idle {s : State} (h : s.pending = []) : step s = idle s := by
  simp only [step, h]

theorem idle_event {s : State} {c : Instr} (h : s.dueEvents = [c]) (k : s.dueIntervals = []) : idle s = exec c s := by
  simp only [idle, h, k]

theorem idle_interval {s : State} {c : Instr} {cs : List Instr} (h : s.dueEvents = []) (k : s.dueIntervals = c :: cs) :
    idle s = exec c s := by
  simp only [idle, h, k]

theorem idle_tick {s : State} (h : s.dueEvents = []) (k : s.dueIntervals = []) : idle s = .next s.tick := by
  simp only [idle, h, k]

theorem tick_lane (s : State) (a : Actuator) : s.tick.lane a = (s.lane a).tick := by
  simp [State.lane, State.tick]

theorem tick_module (s : State) (m : Module) : s.tick.module m = (s.module m).tick := by
  simp [State.module, State.tick]

/-- Settles O3. -/
theorem idleStepTakesTheDueExpiryOrAMillisecond : Obligations.IdleStepTakesTheDueExpiryOrAMillisecond := by
  intro s empty
  rw [step_idle empty]
  refine ⟨fun c => idle_event, fun a cs => idle_interval, fun events intervals => ?_⟩
  refine ⟨s.tick, idle_tick events intervals, fun i => ?_, fun a => ?_, fun m => tick_module s m, ?_⟩
  · rw [tick_slot]
    refine congrArg (SlotState.mk _) (Option.map_congr fun o _ => ?_)
    refine congrArg (fun gs => { o with lease := o.lease.map Lease.tick, guards := gs })
      (List.map_congr_left fun e _ => ?_)
    cases e.cond <;> rfl
  · rw [tick_lane, Lane.tick]
    cases (s.lane a).detector <;> rfl
  · rw [State.tick]
    cases s.travel <;> cases s.rx <;> rfl

end Sys2Proof.Machine
end

section
/-! The seven reads and STATUS: each answer's body from the state, field by field. -/

namespace Sys2Proof.Machine

/-! ### QUERY (R26) -/

theorem execQuery_eq {h : Handle} {o : Order} {g : Origin} {tag : Word} {s : State} (live : s.order? h = some o) :
    exec (.query ⟨g, tag, putHandle (some h)⟩) s =
      .next (answered 0x15 ⟨g, tag, putHandle (some h)⟩ .done (putOrder h o) (received s)) := by
  show execQuery _ s = _
  unfold execQuery
  rw [request_eq (by simp [putHandle_length])]
  simp only [formHandle_putHandle, formed_some, handleField_handle, checked_ok, reached_some (s := received s) live,
    done_parts]

/-- The last three fields of a guard in a QUERY answer, by its condition (R88). -/
theorem guardEntry_fields (e : GuardEntry) :
    putFlag e.isViolated ++ putU16 e.timeRun ++ putFlag e.isActive = match e.cond with
      | .inert | .satisfied => [0, 0, 0, 0]
      | .timing n => [1] ++ putU16 n ++ [0]
      | .active => [1] ++ putU16 e.guard.dwell ++ [1] := by
  obtain ⟨g, c⟩ := e
  cases c <;> simp [GuardEntry.isViolated, GuardEntry.timeRun, GuardEntry.isActive, putFlag, putU16]

/-! ### LIST (R27) -/

theorem formOptU8_put {n : Option Nat} (h : ∀ k, n = some k → k < 256) :
    ∃ p v, putOptU8 n = [p, v] ∧ formOptU8 p v = some n := by
  cases n with
  | none => exact ⟨0, 0, rfl, rfl⟩
  | some k =>
    refine ⟨1, BitVec.ofNat 8 k, rfl, ?_⟩
    show some (some (BitVec.ofNat 8 k).toNat) = _
    rw [toNat_byte (h k rfl)]

theorem formList_bytes (i : Slot) (a : Option Actuator) (c : Option Cls) :
    formList (putByte i.val ++ putOptU8 (a.map (·.val)) ++ putOptU8 (c.map (·.code))) =
      some ⟨i.val, a.map (·.val), c⟩ := by
  obtain ⟨p, v, put, form⟩ := formOptU8_put (n := a.map (·.val)) fun k hk => by
    obtain ⟨b, -, rfl⟩ := Option.map_eq_some_iff.1 hk
    omega
  have slot : (BitVec.ofNat 8 i.val).toNat = i.val := toNat_byte (by omega)
  rw [put]
  cases c with
  | none => simp [formList, putByte, putOptU8, form, slot, flag?]
  | some c => simp [formList, putByte, putOptU8, form, slot, flag?, cls?_code]

theorem checkList_ok (i : Slot) (a : Option Actuator) (c : Option Cls) :
    checkList ⟨i.val, a.map (·.val), c⟩ = .ok (i, a) := by
  cases a <;> simp only [checkList, slotField_val, Option.map_none, Option.map_some, actuatorField_val] <;> rfl

theorem listed_eq (s : State) (i : Slot) (a : Option Actuator) (c : Option Cls) :
    s.listed i a c = allSlots.filter fun j => i ≤ j &&
      (s.orderAt j).any fun o => a.all (· = o.actuator) && c.all (· = o.cls) := by
  refine List.filter_congr fun j _ => ?_
  cases s.orderAt j <;> simp

/-- The slot after the page, or 0xFF when the list is complete. -/
theorem listBody_eq (s : State) (found : List Slot) :
    s.listBody found = putByte (min 20 found.length) ++ (found.take 20).flatMap s.summary ++
      (match found[19]?, found[20]? with
        | some j, some _ => putByte (j.val + 1)
        | _, _ => [0xFF]) := by
  unfold State.listBody
  dsimp only
  rw [List.length_take]
  congr 1
  split
  · next long =>
    rw [List.getLast?_take, if_neg (by omega), List.getElem?_eq_getElem (by omega : 20 - 1 < found.length),
      List.getElem?_eq_getElem long]
    rfl
  · next short =>
    rw [List.getElem?_eq_none (by omega : found.length ≤ 20)]
    cases found[19]? <;> rfl

theorem execList_eq (i : Slot) (a : Option Actuator) (c : Option Cls) (g : Origin) (tag : Word) (s : State) :
    exec (.list ⟨g, tag, putByte i.val ++ putOptU8 (a.map (·.val)) ++ putOptU8 (c.map (·.code))⟩) s =
      .next (answered 0x16 ⟨g, tag, putByte i.val ++ putOptU8 (a.map (·.val)) ++ putOptU8 (c.map (·.code))⟩ .done
        (s.listBody (s.listed i a c)) (received s)) := by
  show execList _ s = _
  unfold execList
  rw [request_eq (by cases a <;> cases c <;> simp [putByte, putOptU8])]
  simp only [formList_bytes, formed_some, checkList_ok, checked_ok, done_parts]
  rfl

/-! ### VIEW (R53, R54) -/

theorem kindOf_eq_gate (a : Actuator) : kindOf a = .gate ↔ a = gate := by
  revert a; decide

theorem ite_gate {α : Type} (a : Actuator) (x y : α) : (if kindOf a = .gate then x else y) = if a = gate then x else y :=
  if_congr (kindOf_eq_gate a) rfl rfl

theorem answered_body {kind : Byte} {r : Req} {c : Code} {t : State} {b b' : List Byte} (h : b = b') :
    (Host.Outcome.next (answered kind r c b t) : Host.Outcome State Fault Refusal) = .next (answered kind r c b' t) := by
  rw [h]

theorem reportCommand_eq {a : Actuator} {v n : Int} (h : wholeUnits a v n) : reportCommand a v = n := by
  unfold wholeUnits at h
  unfold reportCommand
  split at h
  · next g => rw [if_pos ((kindOf_eq_gate a).2 g), h]
  · next g =>
    obtain ⟨pos, neg⟩ := h
    rw [if_neg (mt (kindOf_eq_gate a).1 g)]
    split
    · have := pos ‹_›; omega
    · have := neg (by omega); omega

theorem feedbackBytes_eq (s : State) (a : Actuator) : s.feedbackBytes a =
    if h : a.val < 11 then
      [1] ++ putOptS16 (s.pointValue ⟨a.val, by omega⟩) ++ putByte (s.pointStatus ⟨a.val, by omega⟩).code
    else [0, 0, 0, 0, 0] := by
  unfold State.feedbackBytes feedback
  by_cases h : a.val < 11
  · simp only [h, if_true, dif_pos]
  · simp only [h, if_false, dif_neg, not_false_eq_true]

theorem maskList_eq (s : State) (a : Actuator) :
    s.maskList a = (cycleOf a).filter fun c => (s.lane a).mask.get c := by
  have cycle : ∀ c ∈ cycleOf a, c ≠ .guard := by
    revert a; decide
  refine List.filter_congr fun c hc => ?_
  simp [Lane.masked, cycle c hc]

theorem positionBytes_eq (s : State) (a : Actuator) (c : Cls) : s.positionBytes a c =
    match (s.lane a).orderSet.get c with
    | some h => putHandle (some h) ++ putByte (((s.order? h).map (·.state.code)).getD 0)
    | none => [0xFF, 0xFF, 0] := by
  unfold State.positionBytes
  cases (s.lane a).orderSet.get c with
  | none => rfl
  | some h =>
    dsimp only
    cases s.order? h <;> rfl

theorem nextInLine_eq (s : State) (a : Actuator) : s.nextInLine a =
    match (s.lane a).gov.bind s.order? with
    | some q => (s.lane a).precedence.find? fun c =>
        (c = .guard || !(s.lane a).mask.get c) && c ≠ q.cls &&
          (((s.lane a).orderSet.get c).bind s.order?).any fun p => p.state ≠ .waiting
    | none => none := by
  have eligible : ∀ c, (s.eligible a c).isSome =
      (((s.lane a).orderSet.get c).bind s.order?).any fun p => p.state ≠ .waiting := by
    intro c
    unfold State.eligible
    cases (s.lane a).orderSet.get c with
    | none => rfl
    | some h =>
      cases live : s.order? h with
      | none => simp [live]
      | some o => by_cases w : o.state = .waiting <;> simp [live, w]
  have masked : ∀ c, (!(s.lane a).masked c) = (c = .guard || !(s.lane a).mask.get c) := by
    intro c
    simp [Lane.masked]
  unfold State.nextInLine State.governing
  cases (s.lane a).gov with
  | none => rfl
  | some h =>
    cases live : s.order? h with
    | none => simp [live]
    | some q => simp only [live, eligible, masked, Option.map_some, Option.bind_some]

theorem execView_eq (a : Actuator) (g : Origin) (tag : Word) (s : State) :
    exec (.view ⟨g, tag, putByte a.val⟩) s =
      .next (answered 0x24 ⟨g, tag, putByte a.val⟩ .done (s.viewBody a) (received s)) := by
  have form : formByte (putByte a.val) = some a.val := congrArg some (toNat_byte (by omega))
  show execView _ s = _
  unfold execView
  rw [request_eq (by simp [putByte])]
  simp only [form, formed_some, actuatorField_val, checked_ok, done_parts]
  rfl

/-! ### READ POINTS (R109) -/

theorem formPoints_bytes {ps : List Point} (few : 1 ≤ ps.length) (many : ps.length ≤ 19) :
    formPoints (putByte ps.length ++ ps.map fun p => BitVec.ofNat 8 p.val) = some (ps.map (·.val)) := by
  have count : (BitVec.ofNat 8 ps.length).toNat = ps.length := toNat_byte (by omega)
  have ids : ((ps.map fun p => BitVec.ofNat 8 p.val).map (·.toNat)) = ps.map (·.val) := by
    rw [List.map_map]
    exact List.map_congr_left fun p _ => toNat_byte (by omega)
  rw [show putByte ps.length ++ (ps.map fun p => BitVec.ofNat 8 p.val) =
    BitVec.ofNat 8 ps.length :: ps.map fun p => BitVec.ofNat 8 p.val from rfl, formPoints]
  rw [if_pos (by simp [count]; omega), ids]

theorem pointFields_val : ∀ ps : List Point, pointFields (ps.map (·.val)) = .ok ps
  | [] => rfl
  | p :: ps => by
    simp only [List.map_cons, pointFields, pointField_val, pointFields_val ps]
    rfl

theorem execReadPoints_eq {ps : List Point} (few : 1 ≤ ps.length) (many : ps.length ≤ 19) (g : Origin) (tag : Word)
    (s : State) :
    exec (.readPoints ⟨g, tag, putByte ps.length ++ ps.map fun p => BitVec.ofNat 8 p.val⟩) s =
      .next (answered 0x32 ⟨g, tag, putByte ps.length ++ ps.map fun p => BitVec.ofNat 8 p.val⟩ .done
        (putByte ps.length ++ ps.flatMap s.pointBytes) (received s)) := by
  show execReadPoints _ s = _
  unfold execReadPoints
  rw [request_eq (by simp [putByte]; omega)]
  simp only [formPoints_bytes few many, formed_some, pointFields_val, checked_ok, done_parts]
  rfl

/-! ### READ ENTRY (R127) -/

theorem formReadEntry_bytes (b : BankIx) (e : EntryIx) :
    formReadEntry (putByte b.val ++ putByte e.val) = some (decide (b = 1), e.val) := by
  have entry : (BitVec.ofNat 8 e.val).toNat = e.val := toNat_byte (by omega)
  rcases List.mem_pair.1 (mem_banks b) with rfl | rfl <;> simp [formReadEntry, putByte, flag?, entry]

theorem execReadEntry_eq (b : BankIx) (e : EntryIx) {g : Origin} (hg : g ≠ .plant) (tag : Word) (s : State) :
    exec (.readEntry ⟨g, tag, putByte b.val ++ putByte e.val⟩) s =
      .next (answered 0x43 ⟨g, tag, putByte b.val ++ putByte e.val⟩ .done (s.entryBytes b e) (received s)) := by
  have planner : isPlanner ⟨g, tag, putByte b.val ++ putByte e.val⟩ = true := by simp [isPlanner, hg]
  have bank : (if decide (b = 1) = true then (1 : BankIx) else 0) = b := by
    rcases List.mem_pair.1 (mem_banks b) with rfl | rfl <;> rfl
  show execReadEntry _ s = _
  unfold execReadEntry
  rw [request_eq (by simp [putByte])]
  simp only [planner, admitting_true, formReadEntry_bytes, formed_some, entryField_val, checked_ok, done_parts, bank]
  rfl

/-! ### READ CHANNEL, READ TEMPLATE, STATUS (R150, R156, R186) -/

theorem execReadChannel_eq (c : Chan) (g : Origin) (tag : Word) (s : State) :
    exec (.readChannel ⟨g, tag, putByte c.val⟩) s =
      .next (answered 0x58 ⟨g, tag, putByte c.val⟩ .done (s.channelBytes c) (received s)) := by
  have form : formByte (putByte c.val) = some c.val := congrArg some (toNat_byte (by omega))
  show execReadChannel _ s = _
  unfold execReadChannel
  rw [request_eq (by simp [putByte])]
  simp only [form, formed_some, chanField_val, checked_ok, done_parts]
  rfl

theorem channelBytes_eq (s : State) (c : Chan) : s.channelBytes c =
    (if c.val < 14 then [0] else [1]) ++ (if (s.chan c).fault = none then [0] else [1]) ++
      putByte (faultCode (s.chan c).fault) ++ putByte (s.chan c).mode.code ++ putU16 (s.chan c).localDuty ++
      putU16 (s.chan c).output ++ putOptU8 ((s.assignee c).map (·.val)) ++
      putByte (allActuators.filter fun a => (s.mapAt a).spare = some c).length ++
      (allActuators.filter fun a => (s.mapAt a).spare = some c).flatMap (fun a => putByte a.val) ++
      (match s.assignee c with
        | some a => if a = gate then [0, 0, 0, 0, 0, 0]
            else [1] ++ putU16 (s.cal a).low ++ putU16 (s.cal a).high ++ putFlag (s.mapAt a).frozen
        | none => [0, 0, 0, 0, 0, 0]) := by
  have kind : putByte (if isDiscrete c then 1 else 0) = if c.val < 14 then [0] else [1] := by
    unfold isDiscrete
    by_cases h : c.val < 14
    · simp [h, Nat.not_le.2 h, putByte]
    · simp [h, Nat.le_of_not_lt h, putByte]
  have fault : putFlag (s.chan c).fault.isSome = if (s.chan c).fault = none then [0] else [1] := by
    cases (s.chan c).fault <;> rfl
  unfold State.channelBytes
  simp only [kind, fault, ite_gate] <;> rfl

theorem execReadTemplate_eq (x : TemplateIx) (g : Origin) (tag : Word) (s : State) :
    exec (.readTemplate ⟨g, tag, putByte x.val⟩) s =
      .next (answered 0x61 ⟨g, tag, putByte x.val⟩ .done (s.templateBytes x) (received s)) := by
  have form : formByte (putByte x.val) = some x.val := congrArg some (toNat_byte (by omega))
  show execReadTemplate _ s = _
  unfold execReadTemplate
  rw [request_eq (by simp [putByte])]
  simp only [form, formed_some, templateField_val, checked_ok, done_parts]
  rfl

theorem execStatus_eq (g : Origin) (tag : Word) (s : State) :
    exec (.status ⟨g, tag, []⟩) s = .next (answered 0x73 ⟨g, tag, []⟩ .done ((received s).statusBody s.link)
      { received s with noticesLost := false }) := by
  show execStatus _ s = _
  unfold execStatus
  rw [request_eq (by simp)]
  rfl

/-- Settles O24: each read's answer is its body of the state; the bodies agree with the fields as the rules list
them. -/
theorem reportsChangeNothing : Obligations.ReportsChangeNothing := by
  refine fun g tag s => ⟨fun h o live => ?query, fun i a c => ?list, fun a => ?view, fun ps few many => ?points,
    fun b e hg => ?entry, fun c => ?channel, fun x => ?template, ?status⟩
  case query =>
    refine (execQuery_eq live).trans (answered_body ?_)
    refine congrArg₂ (· ++ ·) rfl (List.flatMap_congr fun e _ => ?_)
    rw [List.append_assoc, List.append_assoc, ← List.append_assoc (putFlag e.isViolated), guardEntry_fields]
    rfl
  case list =>
    refine (execList_eq i a c g tag s).trans (answered_body ?_)
    rw [listBody_eq, listed_eq]
    rfl
  case view =>
    refine ⟨putOptS16 ((s.lane a).command.map (reportCommand a)), fun off => by rw [off]; rfl,
      fun v n on whole => by rw [on, Option.map_some, reportCommand_eq whole]; rfl, ?_⟩
    refine (execView_eq a g tag s).trans (answered_body ?_)
    unfold State.viewBody
    rw [feedbackBytes_eq, nextInLine_eq, maskList_eq]
    have engaged : ∀ b : Bool, putOptU8 (some (if b then 1 else 0)) = [1] ++ putFlag b := fun b => by cases b <;> rfl
    by_cases h : a.val < 2
    · have wheel : wheel? a = some ⟨a.val, h⟩ := dif_pos h
      simp only [wheel, engaged, dif_pos h, putClasses, funext (positionBytes_eq s a), List.append_assoc] <;> rfl
    · have wheel : wheel? a = none := dif_neg h
      simp only [wheel, dif_neg h, putClasses, funext (positionBytes_eq s a), List.append_assoc] <;> rfl
  case points => exact execReadPoints_eq few many g tag s
  case entry =>
    refine ⟨fun empty => ?_, fun x filled => ?_⟩ <;>
      refine (execReadEntry_eq b e hg tag s).trans (answered_body ?_) <;> unfold State.entryBytes
    · rw [empty]
      by_cases role : b = s.active <;> simp [role, putFlag, noHandle, putHandle, List.replicate]
    · rw [filled]
      have role : putFlag (b ≠ s.active) = [if b = s.active then 0 else 1] := by
        by_cases h : b = s.active <;> simp [h, putFlag]
      simp only [role, putEntry, List.append_assoc]
      cases x.state <;> rfl
  case channel =>
    refine (execReadChannel_eq c g tag s).trans (answered_body ?_)
    rw [channelBytes_eq] <;> rfl
  case template =>
    refine ⟨fun empty => ?_, fun m filled => ?_⟩ <;>
      refine (execReadTemplate_eq x g tag s).trans (answered_body ?_) <;> unfold State.templateBytes
    · rw [empty]; rfl
    · rw [filled]
      simp only [putTemplate, List.append_assoc] <;> rfl
  case status =>
    rintro r rfl
    refine (execStatus_eq g tag s).trans (answered_body ?_)
    rfl

end Sys2Proof.Machine
end

section
/-! The checks of a placement in their order: what the first failing one answers. -/

namespace Sys2Proof.Machine

/-- A field check against the tests it makes: the first that fails gives its code, else a value with `P`. -/
def Tested {α : Type} (e : Except Code α) (cs : List (Bool × Code)) (P : α → Prop) : Prop :=
  match firstFailing cs with
  | some c => e = .error c
  | none => ∃ x, e = .ok x ∧ P x

theorem Tested.fails {α : Type} {e : Except Code α} {cs : List (Bool × Code)} {P : α → Prop} (h : Tested e cs P)
    {c : Code} (f : firstFailing cs = some c) : e = .error c := by
  unfold Tested at h
  rwa [f] at h

theorem firstFailing_append (cs ds : List (Bool × Code)) :
    firstFailing (cs ++ ds) = (firstFailing cs).or (firstFailing ds) := by
  induction cs with
  | nil => rfl
  | cons x cs ih =>
    obtain ⟨b, c⟩ := x
    cases b
    · rfl
    · exact ih

theorem Tested.bind {α β : Type} {e : Except Code α} {k : α → Except Code β} {cs ds : List (Bool × Code)}
    {P : α → Prop} {Q : β → Prop} (h : Tested e cs P) (hk : ∀ x, P x → Tested (k x) ds Q) :
    Tested (e >>= k) (cs ++ ds) Q := by
  unfold Tested at h ⊢
  rw [firstFailing_append]
  cases hc : firstFailing cs with
  | some c =>
    rw [hc] at h
    rw [h]
    rfl
  | none =>
    rw [hc] at h
    obtain ⟨x, rfl, hx⟩ := h
    exact hk x hx

theorem Tested.ok {α : Type} {x : α} {P : α → Prop} (h : P x) : Tested (.ok x) [] P := ⟨x, rfl, h⟩

/-- A test of a condition, before the rest. -/
theorem Tested.require {β : Type} {b b' : Bool} {c : Code} {k : Unit → Except Code β} {ds : List (Bool × Code)}
    {Q : β → Prop} (same : b' = b) (h : b = true → Tested (k ()) ds Q) :
    Tested (Machine.require b c >>= k) ((b', c) :: ds) Q := by
  subst same
  cases b'
  · exact rfl
  · exact h rfl

theorem tested_require {b b' : Bool} {c : Code} (same : b' = b) : Tested (Machine.require b c) [(b', c)] fun _ => True := by
  rw [← bind_pure (Machine.require b c)]
  exact .require same fun _ => .ok trivial

/-- The last field of a record. -/
theorem Tested.last {α β : Type} {e : Except Code α} {f : α → β} {cs : List (Bool × Code)} {P : α → Prop}
    (h : Tested e cs P) : Tested (e >>= fun x => .ok (f x)) cs fun y => ∃ x, P x ∧ y = f x := by
  rw [← List.append_nil cs]
  exact h.bind fun x hx => .ok ⟨x, hx, rfl⟩

theorem Tested.mono {α : Type} {e : Except Code α} {cs : List (Bool × Code)} {P Q : α → Prop} (h : Tested e cs P)
    (pq : ∀ x, P x → Q x) : Tested e cs Q := by
  rw [← List.append_nil cs, ← bind_pure e]
  exact h.bind fun x hx => .ok (pq x hx)

/-! ### The fields -/

theorem tested_actuatorField (n : Nat) :
    Tested (actuatorField n) [(decide (n < 12), .badActuator)] fun a => a.val = n := by
  unfold actuatorField
  by_cases h : n < 12
  · simp [Tested, firstFailing, h]
  · simp [Tested, firstFailing, h]

theorem tested_pointField (n : Nat) : Tested (pointField n) [(decide (n < 19), .outOfRange)] fun p => p.val = n := by
  unfold pointField
  by_cases h : n < 19
  · simp [Tested, firstFailing, h]
  · simp [Tested, firstFailing, h]

theorem tested_leaseField (n : Nat) : Tested (leaseField n) [(decide (n ≤ 3600), .outOfRange)] fun _ => True := by
  by_cases h : n ≤ 3600
  · rw [leaseField_le h]
    simp [Tested, firstFailing, h]
  · have pos : n ≠ 0 := by omega
    simp [Tested, firstFailing, h, leaseField, pos]

/-- What is said of every actuator with a code is said of the one there is. -/
theorem decide_of_val {n k : Nat} {p : Fin n → Prop} {a : Fin n} (h : a.val = k)
    [Decidable (∀ b : Fin n, b.val = k → p b)] [Decidable (p a)] :
    decide (∀ b : Fin n, b.val = k → p b) = decide (p a) := by
  refine decide_eq_decide.2 ⟨fun all => all a h, fun pa b hb => ?_⟩
  rwa [Fin.ext (hb.trans h.symm)]

theorem tested_rampField {a : Actuator} {k n : Nat} (h : a.val = k) :
    Tested (rampField a n) [(decide (k = 11 → n = 0), .notApplicable),
      (decide (∀ b : Actuator, b.val = k → b ≠ gate → n ≤ maxRamp b), .outOfRange)] fun _ => True := by
  have isGate : k = 11 ↔ a = gate := ⟨fun e => Fin.ext (h.trans e), fun e => by rw [← h, e]; rfl⟩
  rw [decide_of_val h]
  unfold rampField
  by_cases z : n = 0
  · simp [Tested, firstFailing, z]
  · by_cases g : a = gate
    · simp [Tested, firstFailing, z, isGate, g, kindOf_eq_gate]
    · by_cases le : n ≤ maxRamp a
      · simp [Tested, firstFailing, z, isGate, g, kindOf_eq_gate, le]
      · simp [Tested, firstFailing, z, isGate, g, kindOf_eq_gate, le]

/-- The prerequisite a field carries: none, or a handle of its slot and generation. -/
def prereqOf (f : HandleForm) (pre : Option Handle) : Prop :=
  (f = ⟨255, 0xFF⟩ ∧ pre = none) ∨ (f ≠ ⟨255, 0xFF⟩ ∧ ∃ i : Slot, i.val = f.slot ∧ pre = some ⟨i, f.gen⟩)

theorem tested_prereqField (f : HandleForm) :
    Tested (prereqField f) [(decide (f = ⟨255, 0xFF⟩ ∨ f.slot < 40), .outOfRange)] (prereqOf f) := by
  have isNone : f.isNone = true ↔ f = ⟨255, 0xFF⟩ := by
    obtain ⟨i, g⟩ := f
    simp [HandleForm.isNone]
  unfold prereqField
  by_cases n : f = ⟨255, 0xFF⟩
  · rw [if_pos (isNone.2 n)]
    simp [Tested, firstFailing, n, prereqOf]
  · rw [if_neg (mt isNone.1 n)]
    by_cases h : f.slot < 40
    · have field : handleField f = .ok ⟨⟨f.slot, h⟩, f.gen⟩ := by
        simp [handleField, slotField, h]; rfl
      rw [field]
      have test : firstFailing [(decide (f = ⟨255, 0xFF⟩ ∨ f.slot < 40), Code.outOfRange)] = none := by
        simp [firstFailing, h]
      rw [Tested, test]
      exact ⟨_, rfl, .inr ⟨n, _, rfl, rfl⟩⟩
    · have field : handleField f = .error .outOfRange := by
        simp [handleField, slotField, h]; rfl
      have test : firstFailing [(decide (f = ⟨255, 0xFF⟩ ∨ f.slot < 40), Code.outOfRange)] = some .outOfRange := by
        rw [decide_eq_false (not_or.2 ⟨n, h⟩)]
        rfl
      rw [field, Tested, test]
      rfl

def guardChecks (g : GuardForm) : List (Bool × Code) :=
  [(decide (g.point < 19), .outOfRange),
    (decide (∀ p : Point, p.val = g.point → inRange (pointRange p) g.threshold = true), .outOfRange),
    (decide (g.dwell % 100 = 0), .badField), (decide (g.dwell ≤ 10000), .outOfRange)]

theorem tested_guardField (g : GuardForm) : Tested (guardField g) (guardChecks g) fun _ => True := by
  refine Tested.bind (ds := _ :: _ :: [_]) (tested_pointField g.point) fun p hp => ?_
  rw [decide_of_val hp]
  refine .require (by simp) fun _ => .require rfl fun _ => .require rfl fun _ => .ok trivial

theorem tested_guardFields : ∀ gs : List GuardForm, Tested (guardFields gs) (gs.flatMap guardChecks) fun _ => True
  | [] => .ok trivial
  | g :: gs => (tested_guardField g).bind fun _ _ => (tested_guardFields gs).last.mono fun _ _ => trivial

/-! ### PLACE (R15) -/

theorem freeSlot?_isSome {s : State} : s.freeSlot?.isSome = true ↔ ∃ i, s.orderAt i = none := by
  rw [State.freeSlot?, List.find?_isSome]
  simp [mem_allSlots]

theorem tested_checkPosition {s : State} {a : Actuator} {c : Cls} {k : Nat} {pre : Option Handle} {accepted : Bool}
    (ha : a.val = k) (test : accepted = s.prereqOk a c pre) :
    Tested (checkPosition s a c pre) [(decide (∀ a : Actuator, a.val = k → (s.lane a).state ≠ .down), .actuatorDown),
      (accepted, .badPrereq),
      (decide (∀ a : Actuator, a.val = k → (∃ i, s.orderAt i = none) ∨ (s.findOrder a c).isSome = true), .tableFull)]
      fun _ => True := by
  rw [decide_of_val ha, decide_of_val ha]
  refine .require (by simp) fun _ => .require test fun _ => ?_
  have room : s.hasRoom a c = decide ((∃ i, s.orderAt i = none) ∨ (s.findOrder a c).isSome = true) := by
    rw [State.hasRoom, Bool.eq_iff_iff, decide_eq_true_iff, Bool.or_eq_true, freeSlot?_isSome, or_comm]
  exact tested_require room.symm

/-- Step 5 accepts the prerequisite as R12 says. -/
theorem accepted_eq {s : State} {c : Cls} {f : HandleForm} {a : Actuator} {k : Nat} {pre : Option Handle}
    {accepted : Bool} (ha : a.val = k) (hp : prereqOf f pre)
    (h : accepted = true ↔ ∀ a : Actuator, a.val = k → ∀ q : Slot, q.val = f.slot → PrereqAccepted s a c ⟨q, f.gen⟩) :
    accepted = s.prereqOk a c pre := by
  rw [Bool.eq_iff_iff, h]
  rcases hp with ⟨rfl, rfl⟩ | ⟨-, i, hi, rfl⟩
  · simp only [State.prereqOk, iff_true]
    intro b _ q hq
    omega
  · rw [prereqOk_iff]
    refine ⟨fun all => all a ha i hi, fun ok b hb q hq => ?_⟩
    rwa [Fin.ext (hb.trans ha.symm), Fin.ext (hq.trans hi.symm)]

theorem tested_checkPlace {s : State} {c : Cls} {f : PlaceForm} {accepted : Bool}
    (h : accepted = true ↔ ∀ a : Actuator, a.val = f.actuator → ∀ q : Slot, q.val = f.prereq.slot →
      PrereqAccepted s a c ⟨q, f.prereq.gen⟩) :
    Tested (checkPlace s c f) (placeChecks s c f accepted) fun _ => True := by
  unfold checkPlace placeChecks
  rw [List.append_assoc]
  show Tested _ ([_] ++ (_ :: _ :: ([_, _] ++ ([_] ++ ([_] ++ (f.guards.flatMap guardChecks ++ [_, _, _])))))) _
  refine (tested_actuatorField f.actuator).bind fun a ha => ?_
  rw [decide_of_val ha, decide_of_val ha]
  refine .require (by simp) fun _ => .require (by simp [targetOk, inRange]) fun _ => ?_
  refine (tested_rampField ha).bind fun ramp _ => (tested_prereqField f.prereq).bind fun pre hp => ?_
  refine (tested_leaseField f.lease).bind fun lease _ => (tested_guardFields f.guards).bind fun guards _ => ?_
  exact (tested_checkPosition ha (accepted_eq ha hp h)).last.mono fun _ _ => trivial

theorem waitsThrough_received (s : State) (n : Nat) (q h : Handle) :
    (received s).waitsThrough n q h = s.waitsThrough n q h := by
  induction n generalizing q with
  | zero => rfl
  | succ n ih => simp only [State.waitsThrough, received_leaves, ih]

theorem prereqAccepted_received {s : State} {a : Actuator} {c : Cls} {q : Handle} :
    PrereqAccepted (received s) a c q ↔ PrereqAccepted s a c q := by
  simp only [PrereqAccepted, ← waitsThrough_iff, waitsThrough_received, received_leaves]

/-- Settles O17: `checkPlace` makes the tests of `placeChecks`, one field after another. -/
theorem placeChecksAreMadeInOrder : Obligations.PlaceChecksAreMadeInOrder := by
  intro f r s code short
  have exec_eq : exec (.place r) s = .next (queueAnswer r 0x10 (inRun (received s) <| formed (formPlace r.body)
      (received s) fun f => checked (checkPlace (received s) (classOf r.origin) f) (received s) fun o =>
        placed o (received s))) := by
    show execPlace r s = _
    unfold execPlace
    rw [request, if_pos short, takeValidFrame_eq]
  refine ⟨fun setup => ?_, fun run bad => ?_, fun accepted run form test fails => ?_⟩
  · rw [exec_eq, inRun_setup (s := received s) setup]
    rfl
  · rw [exec_eq, inRun_run (s := received s) run, bad]
    rfl
  · simp only [← prereqAccepted_received (s := s)] at test
    have error := (tested_checkPlace (s := received s) test).fails fails
    rw [exec_eq, inRun_run (s := received s) run, form, formed_some, error]
    rfl

end Sys2Proof.Machine
end

section
/-! AMEND of a live order: the record, and on the governing order the settle detector and the GATE's step. -/

namespace Sys2Proof.Machine

/-! ### Writing one slot -/

theorem setSlot_setSlot (s : State) (i : Slot) (x y : SlotState) : (s.setSlot i x).setSlot i y = s.setSlot i y := by
  simp [State.setSlot]

theorem updOrder_setSlot (s : State) (i : Slot) (g : BitVec 8) (o : Order) (f : Order → Order) :
    (s.setSlot i ⟨g, some o⟩).updOrder i f = s.setSlot i ⟨g, some (f o)⟩ := by
  have slot : (s.setSlot i ⟨g, some o⟩).slot i = ⟨g, some o⟩ := by rw [slot_setSlot, if_pos rfl]
  simp only [State.updOrder, State.orderAt, slot, setSlot_setSlot]

theorem order?_setSlot (s : State) (h : Handle) (o : Order) : (s.setSlot h.slot ⟨h.gen, some o⟩).order? h = some o := by
  rw [State.order?, State.orderAt, slot_setSlot, if_pos rfl]
  exact if_pos rfl

theorem standing_of_live {s : State} {h : Handle} {o : Order} (live : s.order? h = some o) :
    s.standing h = putByte o.state.code ++ putFlag o.settled := by
  simp only [State.standing, live]

/-! ### The checks of AMEND -/

theorem checkAmend_ok {f : AmendForm} {h : Handle} (handle : f.handle = ⟨h.slot.val, h.gen⟩)
    (lease : f.lease.getD 0 ≤ 3600) : checkAmend f = .ok h := by
  simp only [checkAmend, handle, handleField_handle, leaseField_le lease]
  rfl

theorem checkAmended_ok {s : State} {o : Order} {f : AmendForm} (ramp : f.ramp.getD 0 ≤ maxRamp o.actuator)
    (target : ∀ v, f.target = some v → inRange ((s.lane o.actuator).lo, (s.lane o.actuator).hi) v = true) :
    checkAmended s o f = .ok () := by
  have noRamp : (!(kindOf o.actuator = .gate && f.ramp.getD 0 ≠ 0)) = true := by
    by_cases g : kindOf o.actuator = .gate
    · have zero : f.ramp.getD 0 = 0 := by
        rw [maxRamp, g] at ramp
        exact Nat.le_zero.1 ramp
      simp [zero]
    · simp [g]
  unfold checkAmended
  rw [noRamp, decide_eq_true ramp]
  cases ht : f.target with
  | none => rfl
  | some v =>
    have inLimits : targetOk s o.actuator v = true := target v ht
    dsimp only
    rw [inLimits]
    rfl

theorem execAmend_eq {f : AmendForm} {h : Handle} {o : Order} {g : Origin} {tag : Word} {s : State}
    (fits : amendFits f) (handle : f.handle = ⟨h.slot.val, h.gen⟩) (run : s.mode = .run)
    (live : s.order? h = some o) (own : o.cls = classOf g) (lease : f.lease.getD 0 ≤ 3600)
    (ramp : f.ramp.getD 0 ≤ maxRamp o.actuator)
    (target : ∀ v, f.target = some v → inRange ((s.lane o.actuator).lo, (s.lane o.actuator).hi) v = true) :
    exec (.amend ⟨g, tag, amendBody f⟩) s = .next (answered 0x12 ⟨g, tag, amendBody f⟩ .done
      ((amendOrder h o f (received s)).standing h) (amendOrder h o f (received s))) := by
  show execAmend _ s = _
  unfold execAmend
  rw [request_eq (by simp [amendBody, handleBytes, putByte, putS16, putU16])]
  simp only [inRun_run (s := received s) run, formAmend_amendBody f fits, formed_some, checkAmend_ok handle lease,
    checked_ok, reached_some (s := received s) live, own, if_true, checkAmended_ok (s := received s) ramp target,
    done_parts]

/-! ### The record and the detector -/

theorem amendOrder_record {h : Handle} {o : Order} {f : AmendForm} {s : State} (live : s.order? h = some o)
    (still : o.state ≠ .governing ∨ ((amended f o).target = o.target ∧ (amended f o).ramp = o.ramp)) :
    amendOrder h o f s = s.setSlot h.slot ⟨h.gen, some (amended f o)⟩ := by
  unfold amendOrder
  dsimp only
  rw [if_neg, updOrder_eq live]
  rintro ⟨governing, changed⟩
  rcases still with h | ⟨t, r⟩
  · exact h governing
  · exact changed.elim (· t) (· r)

/-- The order amended with its settled field cleared, and the detector of its lane restarted. -/
def amendedAfresh (h : Handle) (o : Order) (f : AmendForm) (s : State) : State :=
  (s.setSlot h.slot ⟨h.gen, some { amended f o with settled := false }⟩).updLane o.actuator
    fun l => { l with detector := .idle }

theorem amendOrder_governing {h : Handle} {o : Order} {f : AmendForm} {s : State} (live : s.order? h = some o)
    (governing : o.state = .governing) (changed : (amended f o).target ≠ o.target ∨ (amended f o).ramp ≠ o.ramp)
    (gov : (s.lane o.actuator).gov = some h) :
    amendOrder h o f s =
      if o.actuator = gate ∧ (s.lane gate).state = .driven then gateStep (amended f o).target (amendedAfresh h o f s)
      else amendedAfresh h o f s := by
  have restarted : restartDetector o.actuator (s.updOrder h.slot (amended f)) = amendedAfresh h o f s := by
    rw [updOrder_eq live, restartDetector, setDetector, clearSettled]
    simp only [setSlot_leaves, gov, updOrder_setSlot]
    rfl
  have state : ∀ b, ((amendedAfresh h o f s).lane b).state = (s.lane b).state := by
    intro b
    rw [amendedAfresh, lane_updLane]
    split
    · next same => rw [same]; rfl
    · rfl
  unfold amendOrder
  dsimp only
  rw [if_pos ⟨governing, changed⟩, restarted, state]

theorem gateStep_slots (v : Int) (s : State) : (gateStep v s).slots = s.slots := by
  unfold gateStep
  split
  · rfl
  · exact (handCommand_leaves gate _).1

theorem standing_of_slots {s t : State} (slots : t.slots = s.slots) (h : Handle) : t.standing h = s.standing h := by
  rw [State.standing, State.standing, order?_of_slot (slot_of_slots slots h.slot)]

theorem amendedAfresh_standing (h : Handle) {o : Order} (f : AmendForm) (s : State) (governing : o.state = .governing) :
    (amendedAfresh h o f s).standing h = [3, 0] := by
  rw [standing_of_live (o := { amended f o with settled := false })]
  · show putByte o.state.code ++ putFlag false = _
    rw [governing]; rfl
  · rw [amendedAfresh]
    simp only [updLane_leaves, order?_setSlot]

/-- Settles O19. -/
theorem amendChangesTheRecordAndRestartsSettle : Obligations.AmendChangesTheRecordAndRestartsSettle := by
  intro f h o g tag s fits handle run live own lease ramp target r o'
  have exec_eq := execAmend_eq (tag := tag) fits handle run live own lease ramp target
  have same : o' = amended f o := rfl
  rw [same]
  have gov : LaneLaw s → o.state = .governing → (s.lane o.actuator).gov = some h := fun law governing => by
    obtain ⟨hh, ho⟩ := order?_eq_some live
    rw [law.alone h.slot o ho governing, hh]
  refine ⟨fun still => ?_, fun governing changed other law => ?_, fun governing changed isGate law => ?_⟩
  · rw [exec_eq, amendOrder_record (s := received s) live still, standing_of_live (order?_setSlot _ _ _)]
    rfl
  · rw [exec_eq, amendOrder_governing (s := received s) live governing changed (gov law governing),
      if_neg fun c => other c.1, amendedAfresh_standing _ _ _ governing]
    rfl
  · have afresh : amendedAfresh h o f (received s) = ((received s).setSlot h.slot
        ⟨h.gen, some { amended f o with settled := false }⟩).updLane gate fun l => { l with detector := .idle } := by
      rw [amendedAfresh, isGate]
    rw [exec_eq, amendOrder_governing (s := received s) live governing changed (gov law governing), ← afresh]
    refine ⟨fun driven => ?_, fun held => ?_⟩
    · have driven : ((received s).lane gate).state = .driven := driven
      rw [if_pos ⟨isGate, driven⟩, standing_of_slots (gateStep_slots _ _), amendedAfresh_standing _ _ _ governing]
    · rw [if_neg (fun c => by rw [show ((received s).lane gate).state = _ from held] at c; exact absurd c.2 (by simp)),
        amendedAfresh_standing _ _ _ governing]

end Sys2Proof.Machine
end

section
/-! A lease expiry beside a request that takes the order, and after it; WITHDRAW, and the requests of a stale handle. -/

namespace Sys2Proof.Machine

/-! ### WITHDRAW (R20, R25) -/

theorem mayWithdraw_of {g : Origin} {c : Cls} (h : g = .operator ∨ c = classOf g) : mayWithdraw g c = true := by
  simpa [mayWithdraw] using h

theorem execWithdraw_eq {h : Handle} {o : Order} {g : Origin} {tag : Word} {s : State} (run : s.mode = .run)
    (live : s.order? h = some o) (may : g = .operator ∨ o.cls = classOf g) :
    exec (.withdraw ⟨g, tag, putHandle (some h)⟩) s = .next (answered 0x14 ⟨g, tag, putHandle (some h)⟩ .done
      (putByte (s.liveCount - (retireCore true h.slot .withdrawn (received s)).liveCount))
      (settleGate (retireCore true h.slot .withdrawn (received s)))) := by
  show execWithdraw _ s = _
  unfold execWithdraw
  rw [request_eq (by simp [putHandle_length])]
  simp only [inRun_run (s := received s) run, formHandle_putHandle, formed_some, handleField_handle, checked_ok,
    reached_some (s := received s) live, mayWithdraw_of may, if_true, done_parts]
  rfl

/-! ### A handle that reaches no order -/

section
variable {h : Handle} {s : State} (g : Origin) (tag : Word)

theorem withdraw_stale (run : s.mode = .run) (stale : s.order? h = none) :
    exec (.withdraw ⟨g, tag, putHandle (some h)⟩) s =
      .next (answered 0x14 ⟨g, tag, putHandle (some h)⟩ .staleHandle [] (received s)) := by
  show execWithdraw _ s = _
  unfold execWithdraw
  rw [request_eq (by simp [putHandle_length])]
  simp only [inRun_run (s := received s) run, formHandle_putHandle, formed_some, handleField_handle, checked_ok,
    reached_none (s := received s) stale, refuse_parts]

theorem query_stale (stale : s.order? h = none) :
    exec (.query ⟨g, tag, putHandle (some h)⟩) s =
      .next (answered 0x15 ⟨g, tag, putHandle (some h)⟩ .staleHandle [] (received s)) := by
  show execQuery _ s = _
  unfold execQuery
  rw [request_eq (by simp [putHandle_length])]
  simp only [formHandle_putHandle, formed_some, handleField_handle, checked_ok,
    reached_none (s := received s) stale, refuse_parts]

theorem renew_stale {n : Nat} (hn : n ≤ 3600) (run : s.mode = .run) (stale : s.order? h = none) :
    exec (.renew ⟨g, tag, putHandle (some h) ++ putU16 n⟩) s =
      .next (answered 0x13 ⟨g, tag, putHandle (some h) ++ putU16 n⟩ .staleHandle [] (received s)) := by
  have field : checkRenew (⟨h.slot.val, h.gen⟩, n) = .ok h := by
    simp only [checkRenew, handleField_handle, leaseField_le hn]; rfl
  show execRenew _ s = _
  unfold execRenew
  rw [request_eq (by simp [putHandle_length, putU16_length])]
  simp only [inRun_run (s := received s) run, formRenew_bytes h (by omega : n < 65536), formed_some, field, checked_ok,
    reached_none (s := received s) stale, refuse_parts]

theorem amend_stale {f : AmendForm} (fits : amendFits f) (lease : f.lease.getD 0 ≤ 3600)
    (handle : f.handle = ⟨h.slot.val, h.gen⟩) (run : s.mode = .run) (stale : s.order? h = none) :
    exec (.amend ⟨g, tag, amendBody f⟩) s =
      .next (answered 0x12 ⟨g, tag, amendBody f⟩ .staleHandle [] (received s)) := by
  show execAmend _ s = _
  unfold execAmend
  rw [request_eq (by simp [amendBody, handleBytes, putByte, putS16, putU16])]
  simp only [inRun_run (s := received s) run, formAmend_amendBody f fits, formed_some, checkAmend_ok handle lease,
    checked_ok, reached_none (s := received s) stale, refuse_parts]

end

/-! ### Whichever comes first -/

/-- A slot free under the next generation is not reached under the handle it had. -/
theorem order?_freed {s : State} {h : Handle} (e : s.slot h.slot = ⟨h.gen + 1, none⟩) : s.order? h = none := by
  rw [State.order?, State.orderAt, e]
  split <;> rfl

theorem leaseOut_fresh (o : Order) {n : Nat} (pos : 1 ≤ n) : Order.leaseOut { o with lease := some ⟨n, 1000 * n⟩ } = false := by
  simp [Order.leaseOut]
  omega

/-- Settles O23. -/
theorem aLeaseExpiryAndARequestComeInEitherOrder : Obligations.ALeaseExpiryAndARequestComeInEitherOrder := by
  intro h o g tag s t run live out may
  obtain ⟨hh, ho⟩ := order?_eq_some live
  have slot := order?_slot live
  refine ⟨fun e => ?_, fun n pos le own e => ?_, fun f n handle target ramp lease le own e => ?_, fun e => ?_⟩
  · rw [execWithdraw_eq run live may] at e
    obtain rfl := Host.Outcome.next.inj e
    refine leaseExpiry_void fun p hp => ?_
    have self := (settleGate_frame _).stays_free (retireCore_self (lane := true) (c := .withdrawn) (s := received s) ho)
    rw [show (received s).slot h.slot = _ from slot] at self
    have gone : State.order? (settleGate (retireCore true h.slot .withdrawn (received s))) h = none := order?_freed self
    exact absurd (gone.symm.trans hp) (by simp)
  · rw [execRenew_eq le run live own] at e
    obtain rfl := Host.Outcome.next.inj e
    refine leaseExpiry_void fun p hp => ?_
    have reach := order?_setSlot (received s) h { o with lease := renewed n o.lease }
    obtain rfl : _ = p := Option.some.inj (reach.symm.trans hp)
    rw [renewed, if_neg (by omega)]
    exact leaseOut_fresh o pos
  · have fits : amendFits f := by
      rw [amendFits, handle, target, ramp, lease]
      exact ⟨by simp; omega, by simp [fits16], by simp, by simp; omega, by simp⟩
    rw [execAmend_eq fits handle run live own (by rw [lease]; exact le) (by rw [ramp]; exact Nat.zero_le _)
      (by rw [target]; simp), amendOrder_record (s := received s) live (.inr (by simp [amended, target, ramp]))] at e
    obtain rfl := Host.Outcome.next.inj e
    refine leaseExpiry_void fun p hp => ?_
    have reach := order?_setSlot (received s) h (amended f o)
    obtain rfl : _ = p := Option.some.inj (reach.symm.trans hp)
    by_cases zero : n = 0
    · simp [amended, lease, zero, Order.leaseOut]
    · have written : (amended f o).lease = some ⟨n, 1000 * n⟩ := by simp [amended, lease, zero]
      simp only [Order.leaseOut, written]
      simpa using zero
  · rw [leaseExpiry_due live out] at e
    obtain rfl := Host.Outcome.next.inj e
    have self := retire_self (c := .expired) ho
    rw [slot] at self
    have stale := order?_freed self
    have run := (retire_frame h.slot .expired s).blocks.mode.trans run
    rintro k r c frame (rfl | rfl | ⟨n, le, rfl⟩ | ⟨f, fits, lease, handle, rfl⟩)
    · cases frame; exact withdraw_stale g tag run stale
    · cases frame; exact query_stale g tag stale
    · cases frame; exact renew_stale g tag le run stale
    · cases frame; exact amend_stale g tag fits lease handle run stale

end Sys2Proof.Machine
end

section
/-! The cascade: which orders it takes, that it leaves nothing waiting on what it took, and its notices. -/

namespace Sys2Proof.Machine

/-! ### Orders taken out of the table -/

/-- Some slots are free under their next generation; the others stand as they were. -/
def Pruned (s t : State) : Prop :=
  ∀ i, t.slot i = s.slot i ∨ (s.orderAt i ≠ none ∧ t.slot i = ⟨(s.slot i).gen + 1, none⟩)

/-- The handle reached an order and reaches none. -/
def Gone (s t : State) (k : Handle) : Prop := s.order? k ≠ none ∧ t.order? k = none

theorem Pruned.refl (s : State) : Pruned s s := fun _ => .inl rfl

theorem Pruned.trans {s t u : State} (h : Pruned s t) (k : Pruned t u) : Pruned s u := by
  intro i
  rcases h i with h | ⟨live, h⟩
  · rw [State.orderAt, ← h]
    exact k i
  · rcases k i with k | ⟨dead, -⟩
    · exact .inr ⟨live, k.trans h⟩
    · exact absurd (by rw [State.orderAt, h]) dead

theorem Pruned.of_slots {s t : State} (h : t.slots = s.slots) : Pruned s t := fun i => .inl (slot_of_slots h i)

/-- What is live stood so before. -/
theorem Pruned.live {s t : State} (h : Pruned s t) {i : Slot} {o : Order} (e : t.orderAt i = some o) :
    t.slot i = s.slot i := by
  rcases h i with h | ⟨-, h⟩
  · exact h
  · rw [State.orderAt, h] at e; cases e

theorem Pruned.orderAt {s t : State} (h : Pruned s t) {i : Slot} {o : Order} (e : t.orderAt i = some o) :
    s.orderAt i = some o := by
  rw [State.orderAt, ← h.live e]; exact e

theorem Pruned.order? {s t : State} (h : Pruned s t) {k : Handle} {o : Order} (e : t.order? k = some o) :
    s.order? k = some o := by
  rw [← e, order?_of_slot (h.live (order?_eq_some e).2)]

/-- A live slot that has lost its order is free under the next generation. -/
theorem Pruned.freed {s t : State} (h : Pruned s t) {i : Slot} (live : s.orderAt i ≠ none) (dead : t.orderAt i = none) :
    t.slot i = ⟨(s.slot i).gen + 1, none⟩ := by
  rcases h i with h | ⟨-, h⟩
  · rw [State.orderAt, h] at dead
    exact absurd dead live
  · exact h

theorem Pruned.same {s t : State} (h : Pruned s t) {i : Slot} (stays : s.orderAt i ≠ none → t.orderAt i ≠ none) :
    t.slot i = s.slot i := by
  rcases h i with h | ⟨live, h⟩
  · exact h
  · exact absurd (by rw [State.orderAt, h]) (stays live)

theorem Pruned.waits {s t : State} (h : Pruned s t) : WaitsOnly s t := by
  intro i k w
  obtain ⟨o, ho, st, pre⟩ := waitsOn_iff.1 w
  exact waitsOn_iff.2 ⟨o, h.orderAt ho, st, pre⟩

theorem Pruned.behind {s t : State} (h : Pruned s t) {k q : Handle} (w : WaitsBehind t k q) : WaitsBehind s k q := by
  induction w with
  | direct live st pre => exact .direct (h.order? live) st pre
  | through live st pre _ ih => exact .through (h.order? live) st pre ih

theorem WaitsBehind.trans {s : State} {h k q : Handle} (w : WaitsBehind s k q) (v : WaitsBehind s h k) :
    WaitsBehind s h q := by
  induction w with
  | direct live st pre => exact .through live st pre v
  | through live st pre _ ih => exact .through live st pre ih

theorem WaitsBehind.live {s : State} {h q : Handle} (w : WaitsBehind s h q) :
    ∃ o, s.order? q = some o ∧ o.state = .waiting := by
  cases w with
  | direct live st _ => exact ⟨_, live, st⟩
  | through live st _ _ => exact ⟨_, live, st⟩

theorem waitsBehind_of_waitsOn {s : State} {i : Slot} {h : Handle} (w : s.waitsOn i h = true) :
    WaitsBehind s h (s.handleAt i) := by
  obtain ⟨o, ho, st, pre⟩ := waitsOn_iff.1 w
  exact .direct ((order?_handleAt s i).trans ho) st pre

theorem retireOne_pruned (i : Slot) (c : Cause) (s : State) : Pruned s (retireOne false i c s) := by
  intro j
  by_cases same : j = i
  · subst same
    cases h : s.orderAt j with
    | none => rw [retireOne_dead h]; exact .inl rfl
    | some o => exact .inr ⟨by simp, retireOne_self h⟩
  · exact .inl (retireOne_slot c s same)

/-- One turn of the cascade. -/
def cascadeTurn (n : Nat) (h : Handle) : State → Slot → State := fun s i =>
  if s.waitsOn i h then cascade n (s.handleAt i) (retireOne false i .prereqLost s) else s

theorem cascade_succ (n : Nat) (h : Handle) (s : State) : cascade (n + 1) h s = allSlots.foldl (cascadeTurn n h) s := rfl

theorem cascade_pruned (n : Nat) : ∀ (h : Handle) (s : State), Pruned s (cascade n h s) := by
  induction n with
  | zero => exact fun _ s => .refl s
  | succ n ih =>
    intro h s
    rw [cascade_succ]
    refine List.foldlRecOn (motive := Pruned s) allSlots _ (.refl s) fun t ht i _ => ht.trans ?_
    unfold cascadeTurn
    split
    · exact (retireOne_pruned _ _ _).trans (ih _ _)
    · exact .refl t

theorem cascadeTurn_pruned (n : Nat) (h : Handle) (s : State) (i : Slot) : Pruned s (cascadeTurn n h s i) := by
  unfold cascadeTurn
  split
  · exact (retireOne_pruned _ _ _).trans (cascade_pruned _ _ _)
  · exact .refl s

/-! ### Only what waits behind the handle goes -/

/-- What a retirement without resolution takes is the order of its slot. -/
theorem gone_retireOne {i : Slot} {c : Cause} {s : State} {k : Handle} (g : Gone s (retireOne false i c s) k) :
    k = s.handleAt i := by
  obtain ⟨live, dead⟩ := g
  obtain ⟨o, ho⟩ := Option.ne_none_iff_exists'.1 live
  obtain ⟨hk, -⟩ := order?_eq_some ho
  by_cases same : k.slot = i
  · rw [← hk, same]
  · rw [order?_of_slot (retireOne_slot c s same)] at dead
    exact absurd dead live

/-- What goes in two stages goes in one of them. -/
theorem Gone.split {s t u : State} {k : Handle} (g : Gone s u k) : Gone s t k ∨ Gone t u k := by
  by_cases h : t.order? k = none
  · exact .inl ⟨g.1, h⟩
  · exact .inr ⟨h, g.2⟩

theorem cascade_sound (n : Nat) : ∀ (h : Handle) (s : State) (k : Handle), Gone s (cascade n h s) k →
    WaitsBehind s h k := by
  induction n with
  | zero => exact fun _ _ _ g => absurd g.2 g.1
  | succ n ih =>
    intro h s
    rw [cascade_succ]
    refine (List.foldlRecOn (motive := fun t => Pruned s t ∧ ∀ k, Gone s t k → WaitsBehind s h k) allSlots _
      ⟨.refl s, fun k g => absurd g.2 g.1⟩ fun t ⟨ht, hk⟩ i _ => ⟨ht.trans (cascadeTurn_pruned n h t i), ?_⟩).2
    intro k g
    rcases g.split (t := t) with g | g
    · exact hk k g
    · refine ht.behind ?_
      unfold cascadeTurn at g
      split at g
      · next w =>
        have first := waitsBehind_of_waitsOn w
        rcases g.split (t := retireOne false i .prereqLost t) with g | g
        · rw [gone_retireOne g]
          exact first
        · exact ((retireOne_pruned _ _ _).behind (ih _ _ k g)).trans first
      · exact absurd g.2 g.1

/-! ### Nothing stays that waits on what went -/

/-- Nothing waits on an order that has gone. -/
def Closed (s t : State) : Prop := ∀ i k, t.waitsOn i k = true → ¬ Gone s t k

theorem Closed.refl (s : State) : Closed s s := fun _ _ _ g => g.1 g.2

theorem Closed.trans {s t u : State} (h : Closed s t) (k : Closed t u) (w : WaitsOnly t u) : Closed s u := by
  intro i q hq g
  rcases g.split (t := t) with g | g
  · exact h i q (w i q hq) g
  · exact k i q hq g

/-- How many orders are WAITING. -/
def State.waitingCount (s : State) : Nat := allSlots.countP fun i => (s.orderAt i).any fun o => o.state = .waiting

theorem Pruned.waitingCount {s t : State} (h : Pruned s t) : t.waitingCount ≤ s.waitingCount := by
  refine List.countP_mono_left fun i _ hi => ?_
  rw [Option.any_eq_true] at hi ⊢
  obtain ⟨o, ho, st⟩ := hi
  exact ⟨o, h.orderAt ho, st⟩

/-- One item of a list fails a test it passed, the others do as before. -/
theorem countP_drop {α : Type} {p q : α → Bool} {i : α} (hp : p i = true) (hq : q i = false)
    (same : ∀ j, j ≠ i → q j = p j) : ∀ l : List α, l.Nodup → i ∈ l → l.countP q + 1 = l.countP p
  | x :: l, nd, mem => by
    obtain ⟨apart, nd⟩ := List.nodup_cons.1 nd
    rcases List.mem_cons.1 mem with rfl | mem
    · have rest : l.countP q = l.countP p :=
        List.countP_congr fun j hj => by rw [same j (by rintro rfl; exact apart hj)]
      rw [List.countP_cons_of_pos hp, List.countP_cons_of_neg (by simp [hq]), rest]
    · have ne : x ≠ i := by rintro rfl; exact apart mem
      have ih := countP_drop hp hq same l nd mem
      rw [List.countP_cons, List.countP_cons, same x ne]
      omega

/-- A WAITING order taken out is one fewer. -/
theorem waitingCount_retireOne {s : State} {i : Slot} {h : Handle} {c : Cause} (w : s.waitsOn i h = true) :
    (retireOne false i c s).waitingCount + 1 = s.waitingCount := by
  obtain ⟨o, ho, st, -⟩ := waitsOn_iff.1 w
  refine countP_drop (i := i) (by simp [ho, st]) ?_ (fun j ne => ?_) allSlots nodup_allSlots (mem_allSlots i)
  · simp [State.orderAt, retireOne_self ho]
  · simp [State.orderAt, retireOne_slot c s ne]

/-- A retirement without resolution and the cascade after it, where the fuel suffices. -/
theorem closed_retired {n : Nat} {i : Slot} {c : Cause} {s : State}
    (rest : Closed (retireOne false i c s) (cascade n (s.handleAt i) (retireOne false i c s)))
    (none : ∀ j, (cascade n (s.handleAt i) (retireOne false i c s)).waitsOn j (s.handleAt i) = false) :
    Closed s (cascade n (s.handleAt i) (retireOne false i c s)) := by
  intro j k w g
  rcases g.split (t := retireOne false i c s) with g | g
  · rw [gone_retireOne g, none j] at w
    cases w
  · exact rest j k w g

theorem cascade_closed (n : Nat) : ∀ (h : Handle) (s : State), s.waitingCount ≤ n →
    Closed s (cascade n h s) ∧ ∀ i, (cascade n h s).waitsOn i h = false := by
  induction n with
  | zero =>
    intro h s few
    refine ⟨.refl s, fun i => Bool.eq_false_iff.2 fun w => ?_⟩
    have w : s.waitsOn i h = true := w
    have := waitingCount_retireOne (c := .prereqLost) w
    omega
  | succ n ih =>
    intro h s few
    rw [cascade_succ]
    have turn : ∀ t i, t.waitingCount ≤ n + 1 →
        Closed t (cascadeTurn n h t i) ∧ (cascadeTurn n h t i).waitsOn i h = false := by
      intro t i few
      unfold cascadeTurn
      split
      · next w =>
        have := waitingCount_retireOne (c := .prereqLost) w
        obtain ⟨closed, none⟩ := ih (t.handleAt i) (retireOne false i .prereqLost t) (by omega)
        refine ⟨closed_retired closed none, Bool.eq_false_iff.2 fun still => ?_⟩
        obtain ⟨o, ho, -⟩ := waitsOn_iff.1 still
        obtain ⟨p, hp, -⟩ := waitsOn_iff.1 w
        have live := (cascade_pruned _ _ _).orderAt ho
        rw [State.orderAt, retireOne_self hp] at live
        cases live
      · next w => exact ⟨.refl t, by simpa using w⟩
    have P := foldl_establishes (P := fun t => Pruned s t ∧ Closed s t) (R := fun i t => t.waitsOn i h = false)
      (f := cascadeTurn n h)
      (fun t i ⟨ht, hc⟩ => ⟨ht.trans (cascadeTurn_pruned n h t i),
        hc.trans (turn t i (ht.waitingCount.trans few)).1 (cascadeTurn_pruned n h t i).waits⟩)
      (fun t i ⟨ht, _⟩ => (turn t i (ht.waitingCount.trans few)).2)
      (fun t i j _ hj => Bool.eq_false_iff.2 fun w => by
        rw [(cascadeTurn_pruned n h t i).waits j h w] at hj; cases hj)
    refine ⟨(List.foldlRecOn (motive := fun t => Pruned s t ∧ Closed s t) allSlots _ ⟨.refl s, .refl s⟩
      fun t ⟨ht, hc⟩ i _ => ⟨ht.trans (cascadeTurn_pruned n h t i),
        hc.trans (turn t i (ht.waitingCount.trans few)).1 (cascadeTurn_pruned n h t i).waits⟩).2,
      fun i => P allSlots s ⟨.refl s, .refl s⟩ i (mem_allSlots i)⟩

theorem waitingCount_le (s : State) : s.waitingCount ≤ 40 :=
  List.countP_le_length.trans (by simp [allSlots])

/-- All that waits behind a handle goes in a closed pruning after which nothing waits on the handle itself. -/
theorem gone_of_behind {s t : State} {h q : Handle} (p : Pruned s t) (closed : Closed s t)
    (none : ∀ i, t.waitsOn i h = false) (w : WaitsBehind s h q) : Gone s t q := by
  have stays : ∀ {q o}, s.order? q = some o → t.order? q ≠ Option.none → t.order? q = some o := fun live still => by
    obtain ⟨p', hp⟩ := Option.ne_none_iff_exists'.1 still
    rw [hp, ← p.order? hp, live]
  induction w with
  | direct live st pre =>
    refine ⟨by simp [live], by_contra fun still => ?_⟩
    have := waitsOn_iff.2 ⟨_, (order?_eq_some (stays live still)).2, st, pre⟩
    rw [none] at this; cases this
  | through live st pre _ ih =>
    refine ⟨by simp [live], by_contra fun still => ?_⟩
    exact closed _ _ (waitsOn_iff.2 ⟨_, (order?_eq_some (stays live still)).2, st, pre⟩) ih

theorem gone_handleAt {s t : State} (p : Pruned s t) (i : Slot) :
    Gone s t (s.handleAt i) ↔ s.orderAt i ≠ none ∧ t.orderAt i = none := by
  rw [Gone, order?_handleAt]
  refine and_congr_right fun live => ⟨fun dead => ?_, fun dead => ?_⟩
  · rcases p i with h | ⟨-, h⟩
    · rw [order?_of_slot h, order?_handleAt] at dead
      exact absurd dead live
    · rw [State.orderAt, h]
  · by_contra still
    obtain ⟨o, ho⟩ := Option.ne_none_iff_exists'.1 still
    rw [show t.orderAt i = _ from (order?_eq_some ho).2] at dead
    cases dead

/-- A pruning by what has gone. -/
theorem Pruned.slot_of_gone {s t : State} (p : Pruned s t) {i : Slot} (g : Gone s t (s.handleAt i)) :
    t.slot i = ⟨(s.slot i).gen + 1, none⟩ := by
  obtain ⟨live, dead⟩ := (gone_handleAt p i).1 g
  exact p.freed live dead

theorem Pruned.slot_of_not_gone {s t : State} (p : Pruned s t) {i : Slot} (g : ¬ Gone s t (s.handleAt i)) :
    t.slot i = s.slot i :=
  p.same fun live dead => g ((gone_handleAt p i).2 ⟨live, dead⟩)

theorem cascade_gone {h : Handle} {s : State} {q : Handle} : Gone s (cascade 40 h s) q ↔ WaitsBehind s h q := by
  obtain ⟨closed, none⟩ := cascade_closed 40 h s (waitingCount_le s)
  exact ⟨cascade_sound 40 h s q, gone_of_behind (cascade_pruned 40 h s) closed none⟩

/-- The cascade takes what waits behind its handle, and leaves the rest as it is (R8). -/
theorem cascade_slot (h : Handle) (s : State) (i : Slot) : (cascade 40 h s).slot i =
    if s.waitsThrough 40 (s.handleAt i) h then ⟨(s.slot i).gen + 1, none⟩ else s.slot i := by
  split
  · next w => exact (cascade_pruned 40 h s).slot_of_gone (cascade_gone.2 (waitsThrough_iff.1 w))
  · next w => exact (cascade_pruned 40 h s).slot_of_not_gone fun g => w (waitsThrough_iff.2 (cascade_gone.1 g))

end Sys2Proof.Machine
end

section
/-! A retirement with its resolution and its cascade, slot by slot: what waits is not touched by a resolution. -/

namespace Sys2Proof.Machine

/-! ### A resolution does not touch WAITING orders -/

/-- The slots of WAITING orders stand as they were. -/
def SparesWaiting (s t : State) : Prop :=
  ∀ i o, s.orderAt i = some o → o.state = .waiting → t.slot i = s.slot i

/-- The governing order of a lane is not WAITING. -/
def GovActs (a : Actuator) (s : State) : Prop := ∀ h o, s.governing a = some (h, o) → o.state ≠ .waiting

theorem SparesWaiting.refl (s : State) : SparesWaiting s s := fun _ _ _ _ => rfl

theorem SparesWaiting.trans {s t u : State} (h : SparesWaiting s t) (k : SparesWaiting t u) : SparesWaiting s u := by
  intro i o ho st
  have same := h i o ho st
  exact (k i o (by rw [State.orderAt, same]; exact ho) st).trans same

theorem SparesWaiting.of_slots {s t : State} (h : t.slots = s.slots) : SparesWaiting s t :=
  fun i _ _ _ => slot_of_slots h i

theorem updOrder_spares {s : State} {h : Handle} {o : Order} {f : Order → Order} (live : s.order? h = some o)
    (acts : o.state ≠ .waiting) : SparesWaiting s (s.updOrder h.slot f) := by
  intro j p hp st
  rw [slot_updOrder, if_neg]
  rintro rfl
  rw [(order?_eq_some live).2] at hp
  cases hp
  exact acts st

theorem updLane_spares (s : State) (a : Actuator) (f : Lane → Lane) : SparesWaiting s (s.updLane a f) :=
  .of_slots (by simp)

theorem LaneLaw.govActs {s : State} (l : LaneLaw s) (a : Actuator) : GovActs a s := by
  intro h o hg
  obtain ⟨hk, ho⟩ := governing_eq_some.1 hg
  obtain ⟨p, hp, -, st⟩ := l.governs a h hk
  rw [ho] at hp; cases hp
  simp [st]

theorem GovActs.of_gov_none {a : Actuator} {s : State} (h : (s.lane a).gov = none) : GovActs a s := by
  intro k o hg
  rw [(governing_eq_some.1 hg).1] at h; cases h

theorem demote_spares {a : Actuator} {s : State} {h : Handle} {o : Order} (gov : s.governing a = some (h, o))
    (acts : o.state ≠ .waiting) : SparesWaiting s (demote a s) := by
  obtain ⟨hk, ho⟩ := governing_eq_some.1 gov
  unfold demote
  rw [hk]
  exact (updOrder_spares ho acts).trans (updLane_spares _ _ _)

theorem promote_spares {a : Actuator} {s : State} {h : Handle} {o : Order} (live : s.order? h = some o)
    (acts : o.state ≠ .waiting) : SparesWaiting s (promote a h s) :=
  (updOrder_spares live acts).trans (updLane_spares _ _ _)

theorem promote_acts (a : Actuator) (h : Handle) (s : State) : GovActs a (promote a h s) := by
  intro k o hg
  obtain ⟨hk, ho⟩ := governing_eq_some.1 hg
  rw [promote_gov] at hk; cases hk
  simp only [promote, updLane_leaves, order?_updOrder, if_true] at ho
  obtain ⟨p, -, rfl⟩ := Option.map_eq_some_iff.1 ho
  simp

theorem resolveYield_spares {a : Actuator} {s : State} (g : GovActs a s) :
    SparesWaiting s (resolveYield a s) ∧ GovActs a (resolveYield a s) := by
  unfold resolveYield
  split
  · next h o hg =>
    split
    · exact ⟨demote_spares hg (g h o hg), .of_gov_none (demote_gov a s)⟩
    · exact ⟨.refl s, g⟩
  · exact ⟨.refl s, g⟩

theorem resolveChoice_spares {a : Actuator} {s : State} (g : GovActs a s) :
    SparesWaiting s (resolveChoice a s) ∧ GovActs a (resolveChoice a s) := by
  unfold resolveChoice
  split
  · next c h _ hc =>
    obtain ⟨-, -, -, o, ho, acts⟩ := candidate_eq_some hc
    exact ⟨promote_spares ho acts, promote_acts a h s⟩
  · next k o c h hg hc =>
    split
    · obtain ⟨-, -, -, p, hp, acts⟩ := candidate_eq_some hc
      obtain ⟨q, hq, r⟩ := (demote_resolves a s).slots.reach hp
      exact ⟨(demote_spares hg (g k o hg)).trans (promote_spares hq fun w => acts (r.2 w)), promote_acts a h _⟩
    · exact ⟨.refl s, g⟩
  · exact ⟨.refl s, g⟩

theorem takeHolds_spares {a : Actuator} {s : State} (g : GovActs a s) : SparesWaiting s (takeHolds a s) := by
  unfold takeHolds
  split
  · dsimp only
    split
    · exact (updLane_spares _ _ _).trans (.of_slots (gateStep_slots _ _))
    · exact updLane_spares _ _ _
  · next h o hg =>
    dsimp only
    split
    · exact (updOrder_spares (governing_eq_some.1 hg).2 (g h o hg)).trans (updLane_spares _ _ _)
    · split
      · exact (updLane_spares _ _ _).trans (.of_slots (gateStep_slots _ _))
      · exact updLane_spares _ _ _

/-- A resolution leaves WAITING orders as they are (R37). -/
theorem resolve_spares {a : Actuator} {s : State} (g : GovActs a s) : SparesWaiting s (resolve a s) := by
  unfold resolve
  split
  · exact .refl s
  · obtain ⟨h1, g1⟩ := resolveYield_spares g
    obtain ⟨h2, g2⟩ := resolveChoice_spares g1
    exact (h1.trans h2).trans (takeHolds_spares g2)

theorem dropFromLane_acts {a b : Actuator} {c : Cls} {h : Handle} {s : State} (g : GovActs a s) :
    GovActs a (dropFromLane b c h s) := by
  intro k o hg
  obtain ⟨hk, ho⟩ := governing_eq_some.1 hg
  refine g k o (governing_eq_some.2 ⟨?_, ho⟩)
  simp only [dropFromLane, lane_updLane] at hk
  split at hk
  · next same =>
    subst same
    dsimp only at hk
    split at hk
    · cases hk
    · exact hk
  · exact hk

/-- What a retirement leaves of the WAITING orders but its own: all, untouched. -/
theorem retireOne_spares {lane : Bool} {i : Slot} {c : Cause} {s : State} {o : Order} (h : s.orderAt i = some o)
    (g : GovActs o.actuator s) {j : Slot} (hj : j ≠ i) {p : Order} (hp : s.orderAt j = some p) (st : p.state = .waiting) :
    (retireOne lane i c s).slot j = s.slot j := by
  rw [retireOne_live h, freeSlot_slot, if_neg hj]
  unfold leaveLane
  have drop : SparesWaiting s (dropFromLane o.actuator o.cls (s.handleAt i) s) := updLane_spares _ _ _
  split
  · exact (drop.trans (resolve_spares (dropFromLane_acts g))) j p hp st
  · exact drop j p hp st

/-! ### A whole retirement, slot by slot -/

theorem retireOne_slot_dead (lane : Bool) (i : Slot) (c : Cause) (s : State) :
    (retireOne lane i c s).orderAt i = none := by
  cases h : s.orderAt i with
  | none => rw [retireOne_dead h, h]
  | some o => rw [State.orderAt, retireOne_self h]

/-- An order that is WAITING after a retirement was so before, and its slot is as it was. -/
theorem retireOne_waiting {lane : Bool} {i : Slot} {c : Cause} {s : State} {o : Order} (h : s.orderAt i = some o)
    (g : GovActs o.actuator s) {j : Slot} {p : Order} (hp : (retireOne lane i c s).orderAt j = some p)
    (st : p.state = .waiting) : j ≠ i ∧ (retireOne lane i c s).slot j = s.slot j := by
  have hj : j ≠ i := by
    rintro rfl
    rw [retireOne_slot_dead] at hp; cases hp
  obtain ⟨f, hf, hr⟩ := retireOne_others lane c s hj
  rw [State.orderAt, hf] at hp
  obtain ⟨q, hq, rfl⟩ := Option.map_eq_some_iff.1 hp
  exact ⟨hj, retireOne_spares h g hj hq ((hr q).2 st)⟩

section
variable {lane : Bool} {i : Slot} {c : Cause} {s : State} {o : Order} (h : s.orderAt i = some o)
  (g : GovActs o.actuator s)
include h g

theorem behind_of_retireOne {k q : Handle} (w : WaitsBehind (retireOne lane i c s) k q) : WaitsBehind s k q := by
  have back : ∀ {q : Handle} {p : Order}, (retireOne lane i c s).order? q = some p → p.state = .waiting →
      s.order? q = some p := fun live st => by
    rw [← live, order?_of_slot (retireOne_waiting h g (order?_eq_some live).2 st).2]
  induction w with
  | direct live st pre => exact .direct (back live st) st pre
  | through live st pre _ ih => exact .through (back live st) st pre ih

/-- What waits behind the retired order, through whatever chain, waits behind it still. -/
theorem behind_retireOne {q : Handle} (w : WaitsBehind s (s.handleAt i) q) :
    q = s.handleAt i ∨ WaitsBehind (retireOne lane i c s) (s.handleAt i) q := by
  have forth : ∀ {q : Handle} {p : Order}, s.order? q = some p → p.state = .waiting → q ≠ s.handleAt i →
      (retireOne lane i c s).order? q = some p := fun {q p} live st ne => by
    obtain ⟨hq, hp⟩ := order?_eq_some live
    have apart : q.slot ≠ i := by rintro rfl; exact ne hq.symm
    rw [order?_of_slot (retireOne_spares h g apart hp st), live]
  induction w with
  | direct live st pre => exact or_iff_not_imp_left.2 fun ne => .direct (forth live st ne) st pre
  | through live st pre _ ih =>
    refine or_iff_not_imp_left.2 fun ne => ?_
    rcases ih with rfl | ih
    · exact .direct (forth live st ne) st pre
    · exact .through (forth live st ne) st pre ih

theorem goesWith_retireOne {j : Slot} (hj : j ≠ i) :
    (retireOne lane i c s).waitsThrough 40 ((retireOne lane i c s).handleAt j) (s.handleAt i) =
      s.goesWith (s.handleAt i) j := by
  have gen : (retireOne lane i c s).handleAt j = s.handleAt j := by
    obtain ⟨f, hf, -⟩ := retireOne_others lane c s hj
    exact handleAt_of_gen (by rw [hf])
  have apart : s.handleAt j ≠ s.handleAt i := fun e => hj (congrArg Handle.slot e)
  rw [gen, Bool.eq_iff_iff, waitsThrough_iff, State.goesWith, Bool.or_eq_true, waitsThrough_iff]
  constructor
  · exact fun w => .inr (behind_of_retireOne h g w)
  · rintro (same | w)
    · exact absurd (of_decide_eq_true same) hj
    · exact (behind_retireOne h g w).resolve_left apart

/-- Every slot but the retired order's own: free where it goes with that order, else as the retirement itself left it. -/
theorem retireCore_slot {j : Slot} (hj : j ≠ i) : (retireCore lane i c s).slot j =
    if s.goesWith (s.handleAt i) j then ⟨(s.slot j).gen + 1, none⟩ else (retireOne lane i c s).slot j := by
  have gen : ((retireOne lane i c s).slot j).gen = (s.slot j).gen := by
    obtain ⟨f, hf, -⟩ := retireOne_others lane c s hj
    rw [hf]
  rw [retireCore_live h, cascade_slot, goesWith_retireOne h g hj, gen]

end

end Sys2Proof.Machine
end

section
/-! The notices of a cascade and the count of what goes; and a GATE that settles without ending or releasing an order. -/

namespace Sys2Proof.Machine

/-! ### Counting orders -/

theorem countP_split {α : Type} {p q r : α → Bool} (cover : ∀ x, p x = (q x || r x)) (apart : ∀ x, q x = true → r x = false) :
    ∀ l : List α, l.countP p = l.countP q + l.countP r
  | [] => rfl
  | x :: l => by
    have ih := countP_split cover apart l
    rw [List.countP_cons, List.countP_cons, List.countP_cons, cover x]
    cases hq : q x with
    | true => simp [apart x hq]; omega
    | false => cases r x <;> simp <;> omega

theorem liveCount_eq (s : State) : s.liveCount = allSlots.countP fun i => (s.orderAt i).isSome :=
  List.countP_eq_length_filter.symm

/-- What has gone makes the difference of the counts. -/
theorem liveCount_split {s t : State} {gone : Slot → Bool}
    (goes : ∀ i, gone i = true → s.orderAt i ≠ none ∧ t.orderAt i = none)
    (stays : ∀ i, gone i = false → (t.orderAt i).isSome = (s.orderAt i).isSome) :
    s.liveCount = t.liveCount + (allSlots.filter gone).length := by
  rw [liveCount_eq, liveCount_eq, ← List.countP_eq_length_filter]
  refine countP_split (fun i => ?_) (fun i hi => ?_) allSlots
  · cases h : gone i with
    | true =>
      obtain ⟨live, dead⟩ := goes i h
      simp [dead, Option.isSome_iff_ne_none.2 live]
    | false => simp [stays i h]
  · cases h : gone i with
    | true => simp [(goes i h).2] at hi
    | false => rfl

theorem Pruned.liveCount {s t : State} (h : Pruned s t) : t.liveCount ≤ s.liveCount := by
  rw [liveCount_eq, liveCount_eq]
  refine List.countP_mono_left fun i _ hi => ?_
  obtain ⟨o, ho⟩ := Option.isSome_iff_exists.1 hi
  rw [h.orderAt ho]; rfl

theorem liveCount_retireOne {lane : Bool} {s : State} {i : Slot} {o : Order} {c : Cause} (h : s.orderAt i = some o) :
    (retireOne lane i c s).liveCount + 1 = s.liveCount := by
  rw [liveCount_eq, liveCount_eq]
  refine countP_drop (i := i) (by simp [h]) ?_ (fun j ne => ?_) allSlots nodup_allSlots (mem_allSlots i)
  · simp [retireOne_slot_dead]
  · obtain ⟨f, hf, -⟩ := retireOne_others lane c s ne
    simp [State.orderAt, hf]

/-! ### Notices -/

theorem noticeCount_append_notice {s t : State} {o : Origin} {n : Notice} (h : t.txQueue = s.txQueue ++ [.notice o n]) :
    t.noticeCount = s.noticeCount + 1 := by
  rw [State.noticeCount, h, List.filter_append, List.length_append]
  rfl

theorem noticeCount_retireOne {lane : Bool} {s : State} {i : Slot} {o : Order} {c : Cause} (h : s.orderAt i = some o)
    (hc : c ≠ .restart) : (retireOne lane i c s).noticeCount ≤ s.noticeCount + 1 := by
  have queue := retireOne_queue (lane := lane) h hc
  split at queue
  · exact (noticeCount_append_notice queue).le
  · rw [List.append_nil] at queue
    simp [State.noticeCount, queue]

/-- Orders have gone PREREQ_LOST: each makes room in the count of live orders for its one notice, and its notice stands
in the queue where all of them have room. -/
structure Noted (s t : State) : Prop where
  budget : t.noticeCount + t.liveCount ≤ s.noticeCount + s.liveCount
  queue : ∃ ns, t.txQueue = s.txQueue ++ ns
  noted : ∀ i p, s.orderAt i = some p → t.orderAt i = none → s.noticeCount + s.liveCount ≤ 16 + t.liveCount →
    .notice (addressee p.cls) (.retired (s.handleAt i) p.actuator .prereqLost) ∈ t.txQueue

theorem Noted.refl (s : State) : Noted s s :=
  ⟨Nat.le_refl _, ⟨[], by simp⟩, fun i p live dead => by rw [live] at dead; cases dead⟩

theorem Noted.trans {s t u : State} (h : Noted s t) (k : Noted t u) (p : Pruned s t) (q : Pruned t u) : Noted s u := by
  obtain ⟨ns, hns⟩ := h.queue
  obtain ⟨ms, hms⟩ := k.queue
  refine ⟨k.budget.trans h.budget, ⟨ns ++ ms, by rw [hms, hns, List.append_assoc]⟩, fun i o live dead room => ?_⟩
  cases ht : t.orderAt i with
  | none =>
    have := q.liveCount
    rw [hms]
    exact List.mem_append_left _ (h.noted i o live ht (by omega))
  | some o' =>
    obtain rfl : o = o' := Option.some.inj (live.symm.trans (p.orderAt ht))
    rw [← handleAt_of_gen (congrArg SlotState.gen (p.live ht))]
    have := h.budget
    exact k.noted i o ht dead (by omega)

theorem retireOne_noted {i : Slot} {s : State} {o : Order} (h : s.orderAt i = some o) :
    Noted s (retireOne false i .prereqLost s) := by
  have live := liveCount_retireOne (lane := false) (c := .prereqLost) h
  have count := noticeCount_retireOne (lane := false) (c := .prereqLost) h (by simp)
  have queue := retireOne_queue (lane := false) (c := .prereqLost) h (by simp)
  refine ⟨by omega, ⟨_, queue⟩, fun j p hp dead room => ?_⟩
  by_cases same : j = i
  · subst same
    rw [h] at hp; cases hp
    rw [queue, if_pos (by omega)]
    simp
  · rw [State.orderAt, retireOne_slot _ _ same] at dead
    rw [show s.orderAt j = none from dead] at hp; cases hp

theorem cascade_noted (n : Nat) : ∀ (h : Handle) (s : State), Noted s (cascade n h s) := by
  induction n with
  | zero => exact fun _ s => .refl s
  | succ n ih =>
    intro h s
    rw [cascade_succ]
    refine (List.foldlRecOn (motive := fun t => Pruned s t ∧ Noted s t) allSlots _ ⟨.refl s, .refl s⟩
      fun t ⟨p, hn⟩ i _ => ⟨p.trans (cascadeTurn_pruned n h t i), hn.trans ?_ p (cascadeTurn_pruned n h t i)⟩).2
    unfold cascadeTurn
    split
    · next w =>
      obtain ⟨o, ho, -⟩ := waitsOn_iff.1 w
      exact (retireOne_noted ho).trans (ih _ _) (retireOne_pruned _ _ _) (cascade_pruned _ _ _)
    · exact .refl t

/-! ### The rest of the state -/

theorem cascade_keeps {P : State → Prop} (keep : ∀ s i, P s → P (retireOne false i .prereqLost s)) (n : Nat) :
    ∀ (h : Handle) (s : State), P s → P (cascade n h s) := by
  induction n with
  | zero => exact fun _ _ hs => hs
  | succ n ih =>
    intro h s hs
    rw [cascade_succ]
    refine List.foldlRecOn (motive := P) allSlots _ hs fun t ht i _ => ?_
    unfold cascadeTurn
    split
    · exact ih _ _ (keep t i ht)
    · exact ht

theorem cascade_names (n : Nat) (h : Handle) (s : State) (a : Actuator) (k : Handle)
    (w : (cascade n h s).names a k) : s.names a k :=
  cascade_keeps (P := fun t => t.names a k → s.names a k) (fun _ _ ht w => ht (retireOne_names _ _ _ _ _ _ w)) n h s id w

theorem cascade_running (n : Nat) (h : Handle) (s : State) (run : s.travel ≠ .complete) :
    (cascade n h s).travel ≠ .complete :=
  cascade_keeps (P := fun t => t.travel ≠ .complete) (fun t _ ht => retireOne_running _ _ _ t ht) n h s run

theorem retireCore_names (lane : Bool) (i : Slot) (c : Cause) (s : State) (a : Actuator) (k : Handle)
    (w : (retireCore lane i c s).names a k) : s.names a k := by
  cases h : s.orderAt i with
  | none => rwa [retireCore_dead h] at w
  | some o =>
    rw [retireCore_live h] at w
    exact retireOne_names _ _ _ _ _ _ (cascade_names _ _ _ _ _ w)

theorem retireCore_running (lane : Bool) (i : Slot) (c : Cause) (s : State) (run : s.travel ≠ .complete) :
    (retireCore lane i c s).travel ≠ .complete := by
  cases h : s.orderAt i with
  | none => rwa [retireCore_dead h]
  | some o =>
    rw [retireCore_live h]
    exact cascade_running _ _ _ (retireOne_running _ _ _ _ run)

/-! ### A settle that ends and releases nothing -/

theorem settleFor_succ (n : Nat) (h : Handle) (s : State) : settleFor (n + 1) h s = settleBy (settleFor n) h s := rfl

theorem settleOrder_eq (h : Handle) (s : State) : settleOrder h s = settleBy (settleFor 80) h s :=
  settleFor_succ 80 h s

theorem settled_waits (h : Handle) (s : State) :
    WaitsOnly s (s.updOrder h.slot fun o => { o with settled := true }) := updOrder_waits fun _ w => ⟨w, rfl⟩

theorem WaitsOnly.none {s t : State} (w : WaitsOnly s t) {h : Handle} (none : ∀ i, s.waitsOn i h = false) (i : Slot) :
    t.waitsOn i h = false :=
  Bool.eq_false_iff.2 fun e => by
    have before := w i h e
    rw [none i] at before; cases before

/-- Where nothing waits, the report of a settle releases nothing. -/
theorem reported_unawaited {f : Handle → State → State} {h : Handle} {s : State} (none : ∀ i, s.waitsOn i h = false) :
    reported f h s = s.updOrder h.slot fun o => { o with settled := true } := by
  refine List.foldl_fixed' (fun i => ?_) allSlots
  rw [releaseTurn, if_neg (by rw [(settled_waits h s).none none i]; simp)]

theorem settleOrder_standing {h : Handle} {o : Order} {s : State} (live : s.order? h = some o)
    (standing : o.completion = .standing) (none : ∀ i, s.waitsOn i h = false) :
    settleOrder h s = s.updOrder h.slot fun o => { o with settled := true } := by
  rw [settleOrder_eq, settleBy_eq, reported_unawaited none, order?_updOrder, if_pos rfl, live]
  simp [standing]

theorem settleGate_none {s : State} (h : s.gateSettles = none) : settleGate s = s := by
  rw [settleGate, settleGateBy]
  simp only [h]

theorem settleGate_some {s : State} {h : Handle} (e : s.gateSettles = some h) : settleGate s = settleOrder h s := by
  rw [settleGate, settleGateBy]
  simp only [e]

theorem gateSettles_running {s : State} (run : s.travel ≠ .complete) : s.gateSettles = none := by
  cases h : s.gateSettles with
  | none => rfl
  | some k =>
    obtain ⟨o, -, -, -, -, complete, -⟩ := gateSettles_eq_some h
    exact absurd complete run

/-- After an operation that creates no order, names none anew and starts no travel to its end, the GATE of a quiet state
settles without ending or releasing an order. -/
theorem settleGate_quiet {s t : State} (quiet : gateQuiet s) (own : NamesOwn t) (kept : OrdersKept s t)
    (waits : WaitsOnly s t) (running : s.travel ≠ .complete → t.travel ≠ .complete) :
    settleGate t = t ∨ ∃ h o, t.order? h = some o ∧
      settleGate t = t.updOrder h.slot fun o => { o with settled := true } := by
  cases g : t.gateSettles with
  | none => exact .inl (settleGate_none g)
  | some h =>
    obtain ⟨o, gov, live, -, -, complete, -⟩ := gateSettles_eq_some g
    obtain ⟨hh, ho⟩ := order?_eq_some live
    obtain ⟨p, hp, same, gen⟩ := kept h.slot o ho
    rcases quiet with run | still
    · exact absurd complete (running run)
    · have isGate : p.actuator = gate := (Order.kept_sameSeat same).2.1.symm.trans (own gate h o (.inl gov) live)
      obtain ⟨standing, none⟩ := still h.slot p hp isGate
      rw [← handleAt_of_gen gen, hh] at none
      refine .inr ⟨h, o, live, (settleGate_some g).trans (settleOrder_standing live ?_ (waits.none none))⟩
      rw [← standing]
      exact same.2.2.2.2.1

end Sys2Proof.Machine
end

section
/-! WITHDRAW: the order and all that goes with it (R8, R20, R25). -/

namespace Sys2Proof.Machine

/-- An order that ends is not silent: its entry is CLEARED, its other fields as they were (R120). -/
theorem Steady.entry_cleared {s t : State} (h : Steady s t) {i : Slot} {o : Order} {b : BankIx} {e : EntryIx}
    {x : PlanEntry} (live : s.orderAt i = some o) (dead : t.orderAt i = none) (he : o.planEntry = some (b, e))
    (hx : s.entry b e = some x) : t.entry b e = some { x with state := .cleared } := by
  obtain ⟨y, hy, fields⟩ := entry_of_fields (h.fields b e).symm hx
  have state := h.ended i o b e y live dead he hy
  obtain ⟨d1, d2, a, g, r, st⟩ := y
  simp only [PlanEntry.fields, Prod.mk.injEq] at fields
  obtain ⟨rfl, rfl, rfl, rfl, rfl⟩ := fields
  cases state
  exact hy

/-- What goes with an order was live. -/
theorem goesWith_live {s : State} {i j : Slot} {o : Order} (h : s.orderAt i = some o)
    (g : s.goesWith (s.handleAt i) j = true) : s.orderAt j ≠ none := by
  rw [State.goesWith, Bool.or_eq_true, decide_eq_true_iff, waitsThrough_iff] at g
  rcases g with same | w
  · rw [same]
    show s.orderAt i ≠ none
    simp [h]
  · obtain ⟨p, hp, -⟩ := w.live
    rw [order?_handleAt] at hp
    simp [hp]

theorem goesWith_waiting {s : State} {i j : Slot} (hj : j ≠ i) (g : s.goesWith (s.handleAt i) j = true) :
    ∃ p, s.orderAt j = some p ∧ p.state = .waiting := by
  rw [State.goesWith, Bool.or_eq_true, decide_eq_true_iff, waitsThrough_iff] at g
  obtain ⟨p, hp, st⟩ := (g.resolve_left hj).live
  exact ⟨p, (order?_handleAt s j).symm.trans hp, st⟩

section
variable {lane : Bool} {i : Slot} {c : Cause} {s : State} {o : Order} (h : s.orderAt i = some o)
  (g : GovActs o.actuator s)
include h g

/-- All that goes with the order has its slot free under its next generation. -/
theorem retireCore_goes {j : Slot} (w : s.goesWith (s.handleAt i) j = true) :
    (retireCore lane i c s).slot j = ⟨(s.slot j).gen + 1, none⟩ := by
  by_cases same : j = i
  · rw [same]; exact retireCore_self h
  · rw [retireCore_slot h g same, if_pos w]

/-- What does not go with the order stays. -/
theorem retireCore_stays : OrdersStay s (retireCore lane i c s) (s.goesWith (s.handleAt i)) := by
  intro j p stay hp
  have apart : j ≠ i := by
    rintro rfl
    simp [State.goesWith, State.handleAt] at stay
  obtain ⟨f, hf, hr⟩ := retireOne_others lane c s apart
  have slot := retireCore_slot (lane := lane) (c := c) h g apart
  rw [if_neg (by simp [stay]), hf, hp] at slot
  exact ⟨f p, by rw [State.orderAt, slot]; rfl, Order.restands_kept (hr p), by rw [slot]⟩

theorem retireCore_count : s.liveCount - (retireCore lane i c s).liveCount =
    (allSlots.filter (s.goesWith (s.handleAt i))).length := by
  have split := liveCount_split (s := s) (t := retireCore lane i c s) (gone := s.goesWith (s.handleAt i))
    (fun j w => ⟨goesWith_live h w, by rw [State.orderAt, retireCore_goes h g w]⟩) fun j stay => by
      cases hp : s.orderAt j with
      | none =>
        have free := (retireCore_frame lane i c s).free j hp
        rw [State.orderAt, free]
        exact congrArg Option.isSome hp
      | some p =>
        obtain ⟨q, hq, -⟩ := retireCore_stays h g j p stay hp
        rw [hq]; rfl
  omega

/-- The notices of what goes with the order, where all have room. -/
theorem retireCore_noted (hc : c ≠ .restart)
    (room : s.noticeCount + (allSlots.filter (s.goesWith (s.handleAt i))).length ≤ 16) {j : Slot} {p : Order}
    (hj : j ≠ i) (w : s.goesWith (s.handleAt i) j = true) (hp : s.orderAt j = some p) :
    .notice (addressee p.cls) (.retired (s.handleAt j) p.actuator .prereqLost) ∈ (retireCore lane i c s).txQueue := by
  obtain ⟨q, hq, st⟩ := goesWith_waiting hj w
  obtain rfl : p = q := Option.some.inj (hp.symm.trans hq)
  have slot := retireOne_spares (lane := lane) (c := c) h g hj hp st
  have count := retireCore_count (lane := lane) (c := c) h g
  have first := noticeCount_retireOne (lane := lane) h hc
  have live := liveCount_retireOne (lane := lane) (c := c) h
  have dead := retireCore_goes (lane := lane) (c := c) h g w
  rw [retireCore_live h] at count dead ⊢
  have fewer := (cascade_pruned 40 (s.handleAt i) (retireOne lane i c s)).liveCount
  rw [← handleAt_of_gen (congrArg SlotState.gen slot)]
  refine (cascade_noted 40 _ _).noted j p ?_ ?_ (by omega)
  · rw [State.orderAt, slot]; exact hp
  · rw [State.orderAt, dead]

end

theorem OrdersStay.engine {s t u : State} {gone : Slot → Bool} (h : OrdersStay s t gone)
    (k : ∀ j p, t.orderAt j = some p → ∃ q, u.orderAt j = some q ∧ p.kept q ∧ (u.slot j).gen = (t.slot j).gen) :
    OrdersStay s u gone := by
  intro j o stay ho
  obtain ⟨p, hp, kept, gen⟩ := h j o stay ho
  obtain ⟨q, hq, kept', gen'⟩ := k j p hp
  exact ⟨q, hq, Order.kept_trans kept kept', gen'.trans gen⟩

/-- A settle that ends no order leaves every order live. -/
theorem settled_stays (h : Handle) (s : State) (j : Slot) (p : Order) (hp : s.orderAt j = some p) :
    ∃ q, (s.updOrder h.slot fun o => { o with settled := true }).orderAt j = some q ∧ p.kept q ∧
      ((s.updOrder h.slot fun o => { o with settled := true }).slot j).gen = (s.slot j).gen := by
  rw [orderAt_updOrder]
  split
  · next same =>
    subst same
    rw [hp]
    exact ⟨_, rfl, by simp [Order.kept], by simp⟩
  · exact ⟨p, hp, p.kept_refl, by simp⟩

/-- A retirement in a quiet state takes what goes with its order, and no more. -/
theorem retire_stays {i : Slot} {c : Cause} {s : State} {o : Order} (h : s.orderAt i = some o) (law : LaneLaw s)
    (quiet : gateQuiet s) : OrdersStay s (settleGate (retireCore true i c s)) (s.goesWith (s.handleAt i)) := by
  have stays := retireCore_stays (lane := true) (c := c) h (law.govActs o.actuator)
  have frame := retireCore_frame true i c s
  rcases settleGate_quiet quiet (law.namesOwn.mono frame.orders (retireCore_names true i c s)) frame.orders
    (retireCore_waits true i c s) (retireCore_running true i c s) with e | ⟨k, p, -, e⟩
  · rw [e]; exact stays
  · rw [e]; exact stays.engine (settled_stays k _)

theorem laneLaw_received {s : State} (law : LaneLaw s) : LaneLaw (received s) :=
  ⟨law.positions, law.governs, law.alone, law.states, law.running⟩

theorem goesWith_received (s : State) (h : Handle) (i : Slot) : (received s).goesWith h i = s.goesWith h i := by
  rw [State.goesWith, State.goesWith, waitsThrough_received]
  rfl

/-- Settles O21. -/
theorem withdrawRetiresTheOrder : Obligations.WithdrawRetiresTheOrder := by
  intro h o g tag s run live may r n
  obtain ⟨hh, ho⟩ := order?_eq_some live
  have hh : (received s).handleAt h.slot = h := hh
  have ho : (received s).orderAt h.slot = some o := ho
  have goes : (received s).goesWith h = s.goesWith h := funext (goesWith_received s h)
  refine ⟨_, _, execWithdraw_eq run live may, ?self, ?first, ?entry, ?frame, fun law => ?lanes⟩
  case self =>
    have self := (settleGate_frame _).stays_free (retireCore_self (lane := true) (c := .withdrawn) ho)
    rwa [show (received s).slot h.slot = _ from order?_slot live] at self
  case first =>
    have first := (retireCore_first (lane := true) (c := .withdrawn) ho (by simp)).engine (settleGate_frame _)
    rwa [hh] at first
  case entry =>
    intro b e x he hx
    have steady := retire_steady h.slot (c := .withdrawn) (not_silent (by simp)) (received s)
    refine Steady.entry_cleared steady ho ?_ he hx
    rw [State.orderAt, retire_self ho]
  case frame => exact (retireCore_frame _ _ _ _).trans (settleGate_frame _)
  case lanes =>
    have law := laneLaw_received law
    have acts := law.govActs o.actuator
    have count := retireCore_count (lane := true) (c := .withdrawn) ho acts
    have noted := retireCore_noted (lane := true) (c := .withdrawn) ho acts (by simp)
    have gone := fun j => retireCore_goes (lane := true) (c := .withdrawn) (j := j) ho acts
    have stays := retire_stays (c := .withdrawn) ho law
    rw [hh, goes] at count stays noted
    simp only [hh, goes] at gone
    refine ⟨congrArg putByte count, fun i w => ?_, fun room i p ne w hp => ?_, stays⟩
    · exact (settleGate_frame _).stays_free (gone i w)
    · obtain ⟨ns, queue, -⟩ := (settleGate_frame (retireCore true h.slot .withdrawn (received s))).tables.queue
      rw [queue]
      exact List.mem_append_left _ (noted room ne w hp)

end Sys2Proof.Machine
end

section
/-! A channel's fault: the move to the spare, and the actuator taken DOWN with all its orders (R34, R136 to R139). -/

namespace Sys2Proof.Machine

/-! ### The assigned channel -/

theorem assignee_none {s : State} {c : Chan} (h : ∀ a, (s.mapAt a).assigned ≠ some c) : s.assignee c = none := by
  simpa [State.assignee] using fun a _ => h a

theorem assignee_some {s : State} {c : Chan} {a : Actuator} (h : (s.mapAt a).assigned = some c)
    (once : ∀ b, (s.mapAt b).assigned = some c → b = a) : s.assignee c = some a := by
  cases e : s.assignee c with
  | none =>
    have := List.find?_eq_none.1 e a (mem_allActuators a)
    simp [h] at this
  | some b => rw [once b (by simpa using List.find?_some e)]

/-! ### Orders retired without resolution -/

theorem retireCore_pruned (i : Slot) (c : Cause) (s : State) : Pruned s (retireCore false i c s) := by
  cases h : s.orderAt i with
  | none => rw [retireCore_dead h]; exact .refl s
  | some o => rw [retireCore_live h]; exact (retireOne_pruned i c s).trans (cascade_pruned _ _ _)

theorem retireCore_closed {i : Slot} {c : Cause} {s : State} {o : Order} (h : s.orderAt i = some o) :
    Closed s (retireCore false i c s) := by
  rw [retireCore_live h]
  obtain ⟨closed, none⟩ := cascade_closed 40 (s.handleAt i) (retireOne false i c s) (waitingCount_le _)
  exact closed_retired closed none

theorem retireCore_sound {i : Slot} {c : Cause} {s : State} {o : Order} (h : s.orderAt i = some o) {q : Handle}
    (g : Gone s (retireCore false i c s) q) : q = s.handleAt i ∨ WaitsBehind s (s.handleAt i) q := by
  rw [retireCore_live h] at g
  rcases g.split (t := retireOne false i c s) with g | g
  · exact .inl (gone_retireOne g)
  · exact .inr ((retireOne_pruned i c s).behind (cascade_sound 40 _ _ q g))

/-- One turn of the retirement of an actuator's orders. -/
def driveTurn (a : Actuator) : State → Slot → State := fun s i =>
  match s.orderAt i with
  | some o => if o.actuator = a then retireCore false i .driveLost s else s
  | none => s

theorem retireDriveLost_eq (a : Actuator) (s : State) : retireDriveLost a s = allSlots.foldl (driveTurn a) s := rfl

theorem driveTurn_keeps {P : State → Prop} {a : Actuator} {s : State} {i : Slot} (hs : P s)
    (keep : ∀ o, s.orderAt i = some o → o.actuator = a → P (retireCore false i .driveLost s)) : P (driveTurn a s i) := by
  unfold driveTurn
  split
  · next o ho =>
    split
    · next ha => exact keep o ho ha
    · exact hs
  · exact hs

theorem driveTurn_pruned (a : Actuator) (s : State) (i : Slot) : Pruned s (driveTurn a s i) :=
  driveTurn_keeps (P := Pruned s) (.refl s) fun _ _ _ => retireCore_pruned _ _ _

theorem driveTurn_self {a : Actuator} {s : State} {i : Slot} {o : Order} (h : (driveTurn a s i).orderAt i = some o) :
    o.actuator ≠ a := by
  intro ha
  have before := (driveTurn_pruned a s i).orderAt h
  unfold driveTurn at h
  simp only [before, ha, if_true] at h
  rw [State.orderAt, retireCore_self before] at h
  cases h

/-- What the retirement of the orders of `a` does to the table. -/
structure DriveLost (a : Actuator) (s t : State) : Prop where
  pruned : Pruned s t
  closed : Closed s t
  sound : ∀ q, Gone s t q → ∃ j o, s.orderAt j = some o ∧ o.actuator = a ∧
    (q = s.handleAt j ∨ WaitsBehind s (s.handleAt j) q)

theorem driveTurn_lost {a : Actuator} {s t : State} (i : Slot) (h : DriveLost a s t) :
    DriveLost a s (driveTurn a t i) := by
  refine driveTurn_keeps h fun o ho ha => ?_
  have turn := retireCore_pruned i .driveLost t
  refine ⟨h.pruned.trans turn, h.closed.trans (retireCore_closed ho) turn.waits, fun q g => ?_⟩
  rcases g.split (t := t) with g | g
  · exact h.sound q g
  · have before := h.pruned.orderAt ho
    have handle : t.handleAt i = s.handleAt i := handleAt_of_gen (congrArg SlotState.gen (h.pruned.live ho))
    refine ⟨i, o, before, ha, ?_⟩
    rw [← handle]
    exact (retireCore_sound ho g).imp_right h.pruned.behind

theorem retireDriveLost_lost (a : Actuator) (s : State) : DriveLost a s (retireDriveLost a s) := by
  rw [retireDriveLost_eq]
  exact List.foldlRecOn (motive := DriveLost a s) allSlots _
    ⟨.refl s, .refl s, fun q g => absurd g.2 g.1⟩ fun t ht i _ => driveTurn_lost i ht

theorem retireDriveLost_rid (a : Actuator) (s : State) {i : Slot} {o : Order}
    (h : (retireDriveLost a s).orderAt i = some o) : o.actuator ≠ a := by
  refine foldl_establishes (P := fun _ => True) (R := fun i t => ∀ o, t.orderAt i = some o → o.actuator ≠ a)
    (f := driveTurn a) (fun _ _ _ => trivial) (fun t i _ o ho => driveTurn_self ho)
    (fun t i j _ hj o ho => hj o ((driveTurn_pruned a t i).orderAt ho)) allSlots s trivial i (mem_allSlots i) o h

/-- What goes with a DOWN: the actuator's orders and all that waits behind them. -/
def lostWith (s : State) (a : Actuator) (i : Slot) : Prop :=
  ∃ j o, s.orderAt j = some o ∧ o.actuator = a ∧ s.goesWith (s.handleAt j) i = true

theorem retireDriveLost_gone {a : Actuator} {s : State} {i : Slot} :
    Gone s (retireDriveLost a s) (s.handleAt i) ↔ lostWith s a i := by
  obtain ⟨p, closed, sound⟩ := retireDriveLost_lost a s
  have goes : ∀ j, s.goesWith (s.handleAt j) i = true ↔
      s.handleAt i = s.handleAt j ∨ WaitsBehind s (s.handleAt j) (s.handleAt i) := fun j => by
    rw [State.goesWith, Bool.or_eq_true, decide_eq_true_iff, waitsThrough_iff]
    refine or_congr_left ⟨fun e => ?_, fun e => congrArg Handle.slot e⟩
    rw [e]; rfl
  constructor
  · intro g
    obtain ⟨j, o, ho, ha, w⟩ := sound _ g
    exact ⟨j, o, ho, ha, (goes j).2 w⟩
  · rintro ⟨j, o, ho, ha, w⟩
    have root : Gone s (retireDriveLost a s) (s.handleAt j) := by
      refine (gone_handleAt p j).2 ⟨by simp [ho], ?_⟩
      by_contra still
      obtain ⟨o', ho'⟩ := Option.ne_none_iff_exists'.1 still
      have same := p.orderAt ho'
      rw [ho] at same; cases same
      exact retireDriveLost_rid a s ho' ha
    rcases (goes j).1 w with e | w
    · rw [e]; exact root
    · exact gone_of_behind p closed (fun k => Bool.eq_false_iff.2 fun e => closed k _ e root) w

/-! ### What stays -/

theorem planReport_chans (o : Order) (c : Cause) (s : State) : (planReport o c s).chans = s.chans := by
  unfold planReport
  split
  · rfl
  · split
    · rfl
    · simp

theorem freeSlot_chans (o : Order) (i : Slot) (h : Handle) (c : Cause) (s : State) :
    (freeSlot o i h c s).chans = s.chans := by
  unfold freeSlot
  dsimp only
  split <;> simp [planReport_chans]

/-- Without a resolution no command moves. -/
theorem retireOne_false_leaves (i : Slot) (c : Cause) (s : State) :
    (retireOne false i c s).chans = s.chans ∧ (retireOne false i c s).travel = s.travel := by
  cases h : s.orderAt i with
  | none => rw [retireOne_dead h]; exact ⟨rfl, rfl⟩
  | some o =>
    rw [retireOne_live h]
    exact ⟨freeSlot_chans _ _ _ _ _, (freeSlot_leaves _ _ _ _ _).2.2.2⟩

theorem retireCore_false_leaves (i : Slot) (c : Cause) (s : State) :
    (retireCore false i c s).chans = s.chans ∧ (retireCore false i c s).travel = s.travel := by
  cases h : s.orderAt i with
  | none => rw [retireCore_dead h]; exact ⟨rfl, rfl⟩
  | some o =>
    rw [retireCore_live h]
    refine cascade_keeps (P := fun t => t.chans = s.chans ∧ t.travel = s.travel) (fun t j ht => ?_) 40 _ _
      (retireOne_false_leaves i c s)
    exact ⟨(retireOne_false_leaves _ _ _).1.trans ht.1, (retireOne_false_leaves _ _ _).2.trans ht.2⟩

theorem retireDriveLost_leaves (a : Actuator) (s : State) :
    (retireDriveLost a s).chans = s.chans ∧ (retireDriveLost a s).travel = s.travel := by
  rw [retireDriveLost_eq]
  refine List.foldlRecOn (motive := fun t : State => t.chans = s.chans ∧ t.travel = s.travel) allSlots _ ⟨rfl, rfl⟩
    fun t ht i _ => driveTurn_keeps (P := fun t : State => t.chans = s.chans ∧ t.travel = s.travel) ht fun _ _ _ => ?_
  exact ⟨(retireCore_false_leaves _ _ _).1.trans ht.1, (retireCore_false_leaves _ _ _).2.trans ht.2⟩

theorem driveTurn_frame (a : Actuator) (s : State) (i : Slot) : EngineFrame s (driveTurn a s i) :=
  driveTurn_keeps (P := EngineFrame s) (.refl s) fun _ _ _ => retireCore_frame _ _ _ _

theorem retireDriveLost_frame (a : Actuator) (s : State) : EngineFrame s (retireDriveLost a s) :=
  foldl_frame (driveTurn_frame a) allSlots s

/-- The slots before one come first. -/
theorem allSlots_split (i : Slot) : ∃ before after, allSlots = before ++ i :: after ∧ ∀ j ∈ before, j < i := by
  obtain ⟨before, after, split⟩ := List.append_of_mem (mem_allSlots i)
  refine ⟨before, after, split, fun j hj => ?_⟩
  have sorted : allSlots.Pairwise (· < ·) := List.pairwise_lt_finRange 40
  rw [split, List.pairwise_append] at sorted
  exact sorted.2.2 j hj i List.mem_cons_self

/-- The first notice of the retirements is that of the actuator's first order. -/
theorem retireDriveLost_first {a : Actuator} {s : State} {i : Slot} {o : Order} (h : s.orderAt i = some o)
    (ha : o.actuator = a) (first : ∀ j p, j < i → s.orderAt j = some p → p.actuator ≠ a) :
    firstNotice s (retireDriveLost a s) (addressee o.cls) (.retired (s.handleAt i) a .driveLost) := by
  obtain ⟨before, after, split, low⟩ := allSlots_split i
  have skip : before.foldl (driveTurn a) s = s := by
    refine List.foldlRecOn (motive := fun t => t = s) before _ rfl fun t ht j hj => ?_
    subst ht
    refine driveTurn_keeps (P := fun u => u = t) rfl fun p hp pa => absurd pa (first j p (low j hj) hp)
  have turn : driveTurn a s i = retireCore false i .driveLost s := by
    unfold driveTurn
    simp only [h, ha, if_true]
  rw [retireDriveLost_eq, split, List.foldl_append, List.foldl_cons, skip, turn, ← ha]
  exact (retireCore_first h (by simp)).engine (foldl_frame (driveTurn_frame _) after _)

/-! ### The statement's two outcomes -/

theorem fault_noted (c : Chan) (k : FaultKind) {s : State}
    (idle : s.mode = .setup ∨ (s.chan c).fault ≠ none ∨ ∀ a, (s.mapAt a).assigned ≠ some c) :
    exec (.channelFaultReport c k) s = .next (s.setChan c { s.chan c with fault := some k }) := by
  show execChannelFaultReport c k s = _
  unfold execChannelFaultReport
  dsimp only
  split
  · next act =>
    rcases idle with m | f | free
    · rw [m] at act; cases act.1
    · exact absurd act.2 f
    · simp only [assignee_none free]
  · rfl

section
variable {c : Chan} {k : FaultKind} {a : Actuator} {s : State}

/-- The fault in the channel's health. -/
def faulted (c : Chan) (k : FaultKind) (s : State) : State := s.setChan c { s.chan c with fault := some k }

theorem exec_fault (run : s.mode = .run) (ok : (s.chan c).fault = none) (ha : s.assignee c = some a) :
    exec (.channelFaultReport c k) s =
      match (faulted c k s).usableSpare a with
      | some sp => .next (queueNotice .operator (.remapped a (some c) sp) (moveActuator a sp (faulted c k s)))
      | none => .next (actuatorDown a c (faulted c k s)) := by
  show execChannelFaultReport c k s = _
  unfold execChannelFaultReport
  dsimp only
  rw [if_pos ⟨run, ok⟩]
  simp only [ha]
  rfl

theorem faulted_fault (sp : Chan) : ((faulted c k s).chan sp).fault = none ↔ sp ≠ c ∧ (s.chan sp).fault = none := by
  rw [faulted, chan_setChan]
  split
  · next same => simp [same]
  · next apart => simp [apart]

theorem usableSpare_some {sp : Chan} (thawed : (s.mapAt a).frozen = false) (spare : (s.mapAt a).spare = some sp)
    (ok : (s.chan sp).fault = none) (free : s.assignee sp = none) : s.usableSpare a = some sp := by
  simp only [State.usableSpare, thawed, spare, ok, free, and_self, if_true]

theorem usableSpare_none (h : (s.mapAt a).frozen = true ∨ (s.mapAt a).spare = none ∨
    ∃ sp, (s.mapAt a).spare = some sp ∧ ((s.chan sp).fault ≠ none ∨ s.assignee sp ≠ none)) : s.usableSpare a = none := by
  unfold State.usableSpare
  split
  · next sp thawed spare =>
    rcases h with h | h | ⟨sp', hs, h⟩
    · rw [thawed] at h; cases h
    · rw [spare] at h; cases h
    · rw [spare] at hs; cases hs
      rw [if_neg]
      rintro ⟨h1, h2⟩
      exact h.elim (· h1) (· h2)
  · rfl

end

/-! ### The actuator DOWN (R34, R138) -/

/-- The actuator's channel RELEASED and left, and the DOWN notice queued. -/
def unassigned (a : Actuator) (c : Chan) (s : State) : State :=
  assign a none (releaseChan c (queueNotice .operator (.down a (some c)) s))

theorem actuatorDown_eq (a : Actuator) (c : Chan) (s : State) :
    actuatorDown a c s = laneDown a (retireDriveLost a (unassigned a c s)) := rfl

theorem laneDown_leaves (a : Actuator) (s : State) : (laneDown a s).slots = s.slots ∧ (laneDown a s).banks = s.banks ∧
    (laneDown a s).chans = s.chans ∧ (laneDown a s).txQueue = s.txQueue ∧ (laneDown a s).map = s.map ∧
    BlocksKept s (laneDown a s) ∧ (laneDown a s).travel = if a = gate then .cleared else s.travel := by
  unfold laneDown
  dsimp only
  split
  · exact ⟨rfl, rfl, rfl, rfl, rfl, by constructor <;> rfl, rfl⟩
  · exact ⟨rfl, rfl, rfl, rfl, rfl, by constructor <;> rfl, rfl⟩

theorem laneDown_lane (a : Actuator) (s : State) : (laneDown a s).lane a = { s.lane a with
    state := .down, gov := none, maskHold := false, guardHold := false
    command := none, interval := none, detector := .idle } := by
  unfold laneDown
  dsimp only
  split <;> simp [State.lane, State.updLane]

theorem unassigned_leaves (a : Actuator) (c : Chan) (s : State) : (unassigned a c s).slots = s.slots ∧
    (unassigned a c s).banks = s.banks ∧ (unassigned a c s).travel = s.travel ∧
    (unassigned a c s).txQueue = (queueNotice .operator (.down a (some c)) s).txQueue ∧
    (unassigned a c s).chan c = { s.chan c with mode := .released, output := 0 } ∧
    (∀ b, (unassigned a c s).mapAt b = if b = a then { s.mapAt a with assigned := none } else s.mapAt b) ∧
    BlocksKept { s with map := (unassigned a c s).map } (unassigned a c s) := by
  unfold unassigned assign releaseChan
  refine ⟨by simp, by simp, by simp, by simp, by simp [chan_setChan], fun b => by simp [mapAt_setMap], ?_⟩
  constructor <;> simp

theorem BlocksKept.mapped {s t u : State} (h : BlocksKept { s with map := t.map } t) (k : BlocksKept t u) :
    BlocksKept { s with map := u.map } u := by
  have same : u.map = t.map := k.map
  rw [same]
  exact h.trans k

/-! ### The move (R136) -/

section
variable {a : Actuator} {c sp : Chan} {s : State} (ha : (s.mapAt a).assigned = some c)
include ha

/-- The channels of a move before the spare's output follows. -/
def swapped (a : Actuator) (c sp : Chan) (s : State) : State :=
  assign a (some sp) (releaseChan c
    (s.setChan sp { s.chan sp with mode := (s.chan c).mode, localDuty := (s.chan c).localDuty }))

theorem moveActuator_eq : moveActuator a sp s = refreshChan sp (swapped a c sp s) := by
  rw [moveActuator]
  simp only [ha]
  rfl

end

theorem swapped_leaves (a : Actuator) {c sp : Chan} (s : State) (apart : sp ≠ c) :
    (swapped a c sp s).chan c = { s.chan c with mode := .released, output := 0 } ∧
    (swapped a c sp s).chan sp =
      { s.chan sp with mode := (s.chan c).mode, localDuty := (s.chan c).localDuty } ∧
    (∀ d, d ≠ c → d ≠ sp → (swapped a c sp s).chan d = s.chan d) ∧
    (∀ b, (swapped a c sp s).mapAt b = if b = a then { s.mapAt a with assigned := some sp } else s.mapAt b) ∧
    (swapped a c sp s).lanes = s.lanes ∧ (swapped a c sp s).slots = s.slots ∧ (swapped a c sp s).banks = s.banks ∧
    (swapped a c sp s).txQueue = s.txQueue ∧ (∀ b, (swapped a c sp s).cal b = s.cal b) ∧
    BlocksKept { s with map := (swapped a c sp s).map } (swapped a c sp s) := by
  unfold swapped assign releaseChan
  refine ⟨by simp [chan_setChan, apart.symm], by simp [chan_setChan, apart], fun d h1 h2 => by simp [chan_setChan, h1, h2],
    fun b => by simp [mapAt_setMap], by simp, by simp, by simp, by simp, by simp, ?_⟩
  constructor <;> simp

end Sys2Proof.Machine
end

section
/-! The outcomes of a fault report on an assigned channel (R136 to R138). -/

namespace Sys2Proof.Machine

section
variable {c : Chan} {k : FaultKind} {a : Actuator} {s : State}

/-- The state after a move to the spare, with its notice. -/
def remapped (a : Actuator) (c sp : Chan) (s : State) : State :=
  queueNotice .operator (.remapped a (some c) sp) (refreshChan sp (swapped a c sp s))

theorem remapped_leaves (a : Actuator) {c sp : Chan} (s : State) (apart : sp ≠ c) :
    (∀ b, (remapped a c sp s).mapAt b = if b = a then { s.mapAt a with assigned := some sp } else s.mapAt b) ∧
    (remapped a c sp s).lanes = s.lanes ∧ (remapped a c sp s).slots = s.slots ∧ (remapped a c sp s).banks = s.banks ∧
    BlocksKept { s with map := (remapped a c sp s).map } (remapped a c sp s) ∧
    (s.noticeCount < 16 →
      (remapped a c sp s).txQueue = s.txQueue ++ [.notice .operator (.remapped a (some c) sp)]) := by
  obtain ⟨-, -, -, map, lanes, slots, banks, queue, -, blocks⟩ := swapped_leaves a s apart
  have refreshed : BlocksKept (swapped a c sp s) (refreshChan sp (swapped a c sp s)) := (refreshChan_frame _ _).blocks
  have noticed := (queueNotice_frame .operator (.remapped a (some c) sp) (refreshChan sp (swapped a c sp s))).blocks
  refine ⟨fun b => ?_, ?_, ?_, ?_, blocks.mapped (refreshed.trans noticed), fun room => ?_⟩
  · rw [← map b, remapped]
    simp [refreshChan]
  · rw [← lanes, remapped]
    simp [refreshChan]
  · rw [← slots, remapped]
    simp [refreshChan]
  · rw [← banks, remapped]
    simp [refreshChan]
  · rw [remapped, queueNotice, if_pos]
    · show (swapped a c sp s).txQueue ++ _ = _
      rw [queue]
    · rw [State.noticeCount]
      show ((swapped a c sp s).txQueue.filter TxFrame.isNotice).length < 16
      rw [queue]
      exact room

theorem remapped_chan (a : Actuator) (c sp : Chan) (s : State) (d : Chan) : (remapped a c sp s).chan d =
    if d = sp then { (swapped a c sp s).chan sp with output := (swapped a c sp s).outputOf sp }
    else (swapped a c sp s).chan d := by
  rw [remapped]
  simp [refreshChan, chan_setChan]

theorem BlocksKept.of_faulted {m : Vector MapEntry 12} {t : State} (h : BlocksKept { faulted c k s with map := m } t) :
    BlocksKept { s with map := m } t :=
  BlocksKept.trans (by constructor <;> rfl) h

/-- In ORDER the spare follows the command of its new actuator. -/
theorem swapped_output_order {c sp : Chan} {v : Int} (apart : sp ≠ c) (free : ∀ b, (s.mapAt b).assigned ≠ some sp)
    (order : (s.chan c).mode = .order) (command : (s.lane a).command = some v) :
    (swapped a c sp s).outputOf sp = s.dutyOf a v := by
  obtain ⟨-, chan, -, map, lanes, -, -, -, cal, -⟩ := swapped_leaves a s apart
  have assignee : (swapped a c sp s).assignee sp = some a := by
    refine assignee_some (by rw [map]; simp) fun b hb => ?_
    by_contra other
    rw [map, if_neg other] at hb
    exact free b hb
  unfold State.outputOf
  rw [chan]
  simp only [order, assignee, lane_of_lanes lanes, command]
  unfold State.dutyOf
  simp only [cal]

theorem swapped_output_local {c sp : Chan} (apart : sp ≠ c) (mode : (s.chan c).mode = .localDuty) :
    (swapped a c sp s).outputOf sp = (s.chan c).localDuty := by
  obtain ⟨-, chan, -⟩ := swapped_leaves a s apart
  unfold State.outputOf
  rw [chan]
  simp only [mode]

/-- The report of a fault whose actuator can move. -/
theorem exec_fault_moves {sp : Chan} (run : s.mode = .run) (ok : (s.chan c).fault = none)
    (assigned : (s.mapAt a).assigned = some c) (law : MapLaw s) (thawed : (s.mapAt a).frozen = false)
    (spare : (s.mapAt a).spare = some sp) (good : (s.chan sp).fault = none)
    (free : ∀ b, (s.mapAt b).assigned ≠ some sp) :
    exec (.channelFaultReport c k) s = .next (remapped a c sp (faulted c k s)) := by
  have apart : sp ≠ c := by rintro rfl; exact free a assigned
  have assignee : s.assignee c = some a := assignee_some assigned fun b hb => law.assignedOnce b a c hb assigned
  have usable : (faulted c k s).usableSpare a = some sp :=
    usableSpare_some thawed spare ((faulted_fault sp).2 ⟨apart, good⟩) (assignee_none (s := faulted c k s) free)
  have here : ((faulted c k s).mapAt a).assigned = some c := assigned
  rw [exec_fault run ok assignee, usable, remapped, ← moveActuator_eq here]

theorem exec_fault_downs (run : s.mode = .run) (ok : (s.chan c).fault = none)
    (assigned : (s.mapAt a).assigned = some c) (law : MapLaw s)
    (stuck : (s.mapAt a).frozen = true ∨ (s.mapAt a).spare = none ∨
      ∃ sp, (s.mapAt a).spare = some sp ∧ ((s.chan sp).fault ≠ none ∨ ∃ b, (s.mapAt b).assigned = some sp)) :
    exec (.channelFaultReport c k) s =
      .next (laneDown a (retireDriveLost a (unassigned a c (faulted c k s)))) := by
  have assignee : s.assignee c = some a := assignee_some assigned fun b hb => law.assignedOnce b a c hb assigned
  have unusable : (faulted c k s).usableSpare a = none := by
    refine usableSpare_none (stuck.imp_right (.imp_right fun ⟨sp, spare, bad⟩ => ⟨sp, spare, ?_⟩))
    refine bad.imp (fun bad good => bad ((faulted_fault sp).1 good).2) fun ⟨b, taken⟩ => ?_
    rw [show (faulted c k s).assignee sp = some b from
      assignee_some (s := faulted c k s) taken fun d hd => law.assignedOnce d b sp hd taken]
    simp
  rw [exec_fault run ok assignee, unusable, actuatorDown_eq]

end

theorem waitsThrough_of_slots {s t : State} (h : t.slots = s.slots) (n : Nat) (q k : Handle) :
    t.waitsThrough n q k = s.waitsThrough n q k := by
  have order : ∀ q, t.order? q = s.order? q := fun q => order?_of_slot (slot_of_slots h q.slot)
  induction n generalizing q with
  | zero => rfl
  | succ n ih => simp only [State.waitsThrough, order, ih]

theorem lostWith_of_slots {s t : State} (h : t.slots = s.slots) {a : Actuator} {i : Slot} :
    lostWith t a i ↔ lostWith s a i := by
  have slot := slot_of_slots h
  have handle : ∀ j, t.handleAt j = s.handleAt j := fun j => handleAt_of_gen (congrArg SlotState.gen (slot j))
  simp only [lostWith, State.orderAt, slot, State.goesWith, handle, waitsThrough_of_slots h]

/-- Settles O44. -/
theorem aFaultReportMovesTheActuatorOrTakesItDown : Obligations.AFaultReportMovesTheActuatorOrTakesItDown := by
  refine fun c k s law => ⟨fault_noted c k, fun a run ok assigned =>
    ⟨fun sp thawed spare good free => ?moves, fun stuck => ?downs⟩⟩
  case moves =>
    have apart : sp ≠ c := by rintro rfl; exact free a assigned
    have chanC : (faulted c k s).chan c = { s.chan c with fault := some k } := by simp [faulted, chan_setChan]
    have chanSp : (faulted c k s).chan sp = s.chan sp := by simp [faulted, chan_setChan, apart]
    obtain ⟨map, lanes, slots, banks, blocks, queue⟩ := remapped_leaves a (faulted c k s) apart
    obtain ⟨offC, onSp, others, -⟩ := swapped_leaves a (faulted c k s) apart
    have chan := remapped_chan a c sp (faulted c k s)
    refine ⟨_, exec_fault_moves run ok assigned law thawed spare good free, ?_, fun b hb => ?_, ?_, ?_, ?_, ?_,
      fun v order command => ?_, fun mode => ?_, fun d h1 h2 => ?_, lanes, slots, banks, queue, blocks.of_faulted⟩
    · rw [map, if_pos rfl]; rfl
    · rw [map, if_neg hb]; rfl
    · rw [chan, if_neg apart.symm, offC, chanC]
    · rw [chan, if_pos rfl, onSp, chanSp]; exact good
    · rw [chan, if_pos rfl, onSp, chanC]
    · rw [chan, if_pos rfl, onSp, chanC]
    · rw [chan, if_pos rfl]
      exact swapped_output_order (s := faulted c k s) apart free (by rw [chanC]; exact order) command
    · rw [chan, if_pos rfl]
      exact (swapped_output_local (s := faulted c k s) apart (by rw [chanC]; exact mode)).trans (by rw [chanC])
    · rw [chan, if_neg h2, others d h1 h2]
      simp [faulted, chan_setChan, h1]
  case downs =>
    have chanC : (faulted c k s).chan c = { s.chan c with fault := some k } := by simp [faulted, chan_setChan]
    obtain ⟨slots, banks, travel, queue, chan, map, blocks⟩ := unassigned_leaves a c (faulted c k s)
    generalize hv : unassigned a c (faulted c k s) = v at slots banks travel queue chan map blocks
    have frame := retireDriveLost_frame a v
    have lost := retireDriveLost_lost a v
    obtain ⟨chans, travel'⟩ := retireDriveLost_leaves a v
    obtain ⟨dSlots, dBanks, dChans, dQueue, dMap, dBlocks, dTravel⟩ := laneDown_leaves a (retireDriveLost a v)
    have noticed : s.noticeCount < 16 → v.txQueue = s.txQueue ++ [.notice .operator (.down a (some c))] := fun room => by
      have room : (faulted c k s).noticeCount < 16 := room
      rw [queue, queueNotice, if_pos room]
      rfl
    have slots : v.slots = s.slots := slots
    have before : ∀ i, v.slot i = s.slot i := slot_of_slots slots
    have after : ∀ i, (laneDown a (retireDriveLost a v)).slot i = (retireDriveLost a v).slot i := slot_of_slots dSlots
    have mapAt : ∀ b, (laneDown a (retireDriveLost a v)).mapAt b = v.mapAt b := fun b => by
      rw [State.mapAt, dMap, frame.blocks.map]; rfl
    have laneA := laneDown_lane a (retireDriveLost a v)
    refine ⟨_, hv ▸ exec_fault_downs run ok assigned law stuck, by rw [laneA], by rw [laneA], by rw [laneA],
      by rw [laneA], by rw [laneA], by rw [laneA], by rw [laneA], ?_, fun b hb => ?_, ?_, ?_, fun i o ho => ?_,
      fun i p hp => ?_, ⟨fun i gone => ?_, fun i stay => ?_, fun i o b e x gone ho he hx => ?_⟩, fun room => ?_,
      fun i o ho ha first room => ?_, ?_⟩
    · rw [mapAt, map, if_pos rfl]; rfl
    · rw [mapAt, map, if_neg hb]; rfl
    · rw [State.chan, dChans, chans]
      exact chan.trans (by rw [chanC])
    · rw [dTravel, travel', travel]; rfl
    · rw [State.orderAt, after] at ho
      exact retireDriveLost_rid a v ho
    · rw [State.orderAt, after] at hp
      obtain ⟨o, ho, kept, gen⟩ := frame.orders i p hp
      rw [State.orderAt, before] at ho
      exact ⟨o, ho, kept, by rw [after, gen, before]⟩
    · rw [after, ← before]
      exact lost.pruned.slot_of_gone ((retireDriveLost_gone.2 ((lostWith_of_slots slots).2 gone)))
    · rw [after, ← before]
      exact lost.pruned.slot_of_not_gone fun g => stay ((lostWith_of_slots slots).1 (retireDriveLost_gone.1 g))
    · have dead := lost.pruned.slot_of_gone (retireDriveLost_gone.2 ((lostWith_of_slots slots).2 gone))
      rw [entry_of_banks dBanks]
      refine (retireDriveLost_steady a v).entry_cleared (i := i) (o := o) ?_ (by rw [State.orderAt, dead]) he ?_
      · rw [State.orderAt, before]; exact ho
      · rw [entry_of_banks banks]; exact hx
    · obtain ⟨ns, grown, -⟩ := frame.tables.queue
      exact ⟨ns, by rw [dQueue, grown, noticed room, List.append_assoc]; rfl⟩
    · have live : v.orderAt i = some o := by rw [State.orderAt, before]; exact ho
      have noticed := noticed (by omega)
      have count := noticeCount_append_notice (s := s) noticed
      obtain ⟨ns, grown⟩ := retireDriveLost_first live ha
        (fun j p low hp => first j p low (by rw [State.orderAt, before] at hp; exact hp)) (by omega)
      rw [handleAt_of_gen (congrArg SlotState.gen (before i))] at grown
      exact ⟨ns, by rw [dQueue, grown, noticed, List.append_assoc]; rfl⟩
    · exact (blocks.mapped (frame.blocks.trans dBlocks)).of_faulted

end Sys2Proof.Machine
end

section
/-! What a release on another lane leaves of the GATE, and the releases of unguarded orders: they queue nothing and
settle nothing. -/

namespace Sys2Proof.Machine

/-! ### A resolution writes the orders its lane names -/

/-- The lane names no live order of the slot. -/
def Unnamed (a : Actuator) (i : Slot) (s : State) : Prop := ∀ h o, s.names a h → s.order? h = some o → h.slot ≠ i

theorem NamesOwn.unnamed {s : State} (own : NamesOwn s) {a : Actuator} {i : Slot} {o : Order}
    (ho : s.orderAt i = some o) (apart : o.actuator ≠ a) : Unnamed a i s := by
  rintro h p named live rfl
  rw [(order?_eq_some live).2] at ho
  cases ho
  exact apart (own a h _ named live)

theorem Unnamed.governing {a : Actuator} {i : Slot} {s : State} (u : Unnamed a i s) {h : Handle} {o : Order}
    (g : s.governing a = some (h, o)) : i ≠ h.slot := by
  obtain ⟨hk, ho⟩ := governing_eq_some.1 g
  exact (u h o (.inl hk) ho).symm

theorem Unnamed.restood {a : Actuator} {i : Slot} {s t : State} (u : Unnamed a i s) (r : Restood s t)
    (n : ∀ k, t.names a k → s.names a k) : Unnamed a i t := by
  intro h p named live
  obtain ⟨o, ho, -⟩ := r.reached live
  exact u h o (n h named) ho

theorem demote_slot {a : Actuator} {i : Slot} {s : State} {h : Handle} {o : Order} (u : Unnamed a i s)
    (g : s.governing a = some (h, o)) : (demote a s).slot i = s.slot i := by
  unfold demote
  rw [(governing_eq_some.1 g).1]
  dsimp only
  rw [slot_of_slots (updLane_leaves _ _ _).2.1, slot_updOrder, if_neg (u.governing g)]

theorem promote_slot {a : Actuator} {i : Slot} {h : Handle} (s : State) (apart : h.slot ≠ i) :
    (promote a h s).slot i = s.slot i := by
  unfold promote
  rw [slot_of_slots (updLane_leaves _ _ _).2.1, slot_updOrder, if_neg apart.symm]

theorem resolveYield_slot {a : Actuator} {i : Slot} {s : State} (u : Unnamed a i s) :
    (resolveYield a s).slot i = s.slot i := by
  unfold resolveYield
  split
  · next g =>
    split
    · exact demote_slot u g
    · rfl
  · rfl

theorem resolveChoice_slot {a : Actuator} {i : Slot} {s : State} (u : Unnamed a i s) :
    (resolveChoice a s).slot i = s.slot i := by
  have apart : ∀ {c h}, s.candidate a = some (c, h) → h.slot ≠ i := fun e => by
    obtain ⟨inSet, -, -, o, ho, -⟩ := candidate_eq_some e
    exact u _ o (.inr ⟨_, inSet⟩) ho
  unfold resolveChoice
  split
  · next e => exact promote_slot s (apart e)
  · next g e =>
    split
    · rw [promote_slot _ (apart e), demote_slot u g]
    · rfl
  · rfl

theorem takeHolds_slot {a : Actuator} {i : Slot} {s : State} (u : Unnamed a i s) :
    (takeHolds a s).slot i = s.slot i := by
  unfold takeHolds
  split
  · dsimp only
    split
    · rw [slot_of_slots (gateStep_slots _ _), slot_of_slots (updLane_leaves _ _ _).2.1]
    · rw [slot_of_slots (updLane_leaves _ _ _).2.1]
  · next g =>
    dsimp only
    split
    · rw [slot_of_slots (updLane_leaves _ _ _).2.1, slot_updOrder, if_neg (u.governing g)]
    · split
      · rw [slot_of_slots (gateStep_slots _ _), slot_of_slots (updLane_leaves _ _ _).2.1]
      · rw [slot_of_slots (updLane_leaves _ _ _).2.1]

/-- A resolution leaves the slots its lane does not name. -/
theorem resolve_slot {a : Actuator} {i : Slot} {s : State} (u : Unnamed a i s) : (resolve a s).slot i = s.slot i := by
  unfold resolve
  split
  · rfl
  · have u1 := u.restood (resolveYield_resolves a s).slots
      fun k => (resolveYield_resolves a s).names (fun _ h => .inl (resolveYield_gov a s h)) a k
    have u2 := u1.restood (resolveChoice_resolves a _).slots
      fun k => (resolveChoice_resolves a _).names (fun _ h => resolveChoice_gov a _ h) a k
    rw [takeHolds_slot u2, resolveChoice_slot u1, resolveYield_slot u]

/-! ### The GATE's own part of the state -/

/-- What the GATE settles by is as it was: its lane, its travel timer and its orders. -/
structure GateAlike (s t : State) : Prop where
  travel : t.travel = s.travel
  lane : t.lane gate = s.lane gate
  orders : ∀ i o, s.orderAt i = some o → o.actuator = gate → t.slot i = s.slot i

theorem GateAlike.refl (s : State) : GateAlike s s := ⟨rfl, rfl, fun _ _ _ _ => rfl⟩

theorem GateAlike.trans {s t u : State} (h : GateAlike s t) (k : GateAlike t u) : GateAlike s u where
  travel := k.travel.trans h.travel
  lane := k.lane.trans h.lane
  orders i o ho ha := by
    have same := h.orders i o ho ha
    exact (k.orders i o (by rw [State.orderAt, same]; exact ho) ha).trans same

theorem gateSettles_iff {s : State} {h : Handle} : s.gateSettles = some h ↔
    ∃ o, (s.lane gate).gov = some h ∧ s.order? h = some o ∧ (s.lane gate).state = .driven ∧ o.settled = false ∧
      s.travel = .complete ∧ s.atTarget gate o.target = true := by
  refine ⟨gateSettles_eq_some, fun ⟨o, gov, live, c⟩ => ?_⟩
  unfold State.gateSettles
  rw [governing_eq_some.2 ⟨gov, live⟩]
  exact if_pos c

theorem GateAlike.settles {s t : State} (own : NamesOwn s) (k : OrdersKept s t) (g : GateAlike s t)
    (quiet : s.gateSettles = none) : t.gateSettles = none := by
  cases e : t.gateSettles with
  | none => rfl
  | some h =>
    obtain ⟨p, gov, live, c⟩ := gateSettles_iff.1 e
    rw [g.lane] at gov c
    obtain ⟨o, ho, -⟩ := k.reached live
    have same := order?_of_slot (g.orders h.slot o (order?_eq_some ho).2 (own gate h o (.inl gov) ho))
    rw [same] at live
    have before : s.gateSettles = some h :=
      gateSettles_iff.2 ⟨p, gov, live, c.1, c.2.1, g.travel ▸ c.2.2.1, by rw [← c.2.2.2]; simp [State.atTarget, g.lane]⟩
    rw [quiet] at before; cases before

theorem resolve_gateAlike {a : Actuator} {s : State} (own : NamesOwn s) (apart : a ≠ gate) :
    GateAlike s (resolve a s) where
  travel := (resolve_resolves a s).travel apart
  lane := (resolve_resolves a s).lanes gate apart.symm
  orders _ _ ho isGate := resolve_slot (own.unnamed ho (isGate ▸ apart.symm))

/-- A write to an order of another lane. -/
theorem updOrder_gateAlike {s : State} {i : Slot} {f : Order → Order}
    (apart : ∀ o, s.orderAt i = some o → o.actuator ≠ gate) : GateAlike s (s.updOrder i f) where
  travel := by simp
  lane := lane_of_lanes (by simp) gate
  orders j o ho isGate := by
    rw [slot_updOrder, if_neg]
    rintro rfl
    exact apart o ho isGate

/-! ### The release of an order without guards -/

theorem release_unguarded {i : Slot} {s : State} {o : Order} (ho : s.orderAt i = some o) (bare : o.guards = []) :
    release i s = resolve o.actuator (readied i s) := by
  have live : (readied i s).order? (s.handleAt i) = some { o with state := .pending } := by
    rw [readied, order?_updOrder, if_pos (by rfl), order?_handleAt, ho]; rfl
  rw [release_eq, armGuards_unguarded live bare, live]

theorem release_names_unguarded {i : Slot} {s : State} {o : Order} (ho : s.orderAt i = some o) (bare : o.guards = [])
    (a : Actuator) (h : Handle) (n : (release i s).names a h) : s.names a h := by
  rw [release_unguarded ho bare] at n
  exact readied_names.1 (resolve_names _ _ _ _ n)

theorem release_restood {i : Slot} {s : State} {o : Order} (ho : s.orderAt i = some o) (bare : o.guards = []) :
    Restood s (release i s) := by
  rw [release_unguarded ho bare]
  exact (readied_restood i s).trans (resolve_resolves _ _).slots

theorem release_queue {i : Slot} {s : State} {o : Order} (ho : s.orderAt i = some o) (bare : o.guards = []) :
    (release i s).txQueue = s.txQueue := by
  rw [release_unguarded ho bare, (resolve_resolves _ _).queue]
  simp [readied]

theorem release_running {i : Slot} {s : State} {o : Order} (ho : s.orderAt i = some o) (bare : o.guards = [])
    (run : s.travel ≠ .complete) : (release i s).travel ≠ .complete := by
  rw [release_unguarded ho bare]
  exact (resolve_resolves _ _).running (by simpa [readied] using run)

theorem release_gateAlike {i : Slot} {s : State} {o : Order} (own : NamesOwn s) (ho : s.orderAt i = some o)
    (bare : o.guards = []) (apart : o.actuator ≠ gate) : GateAlike s (release i s) := by
  have ready : GateAlike s (readied i s) := updOrder_gateAlike fun p hp => by rw [ho] at hp; cases hp; exact apart
  have own' : NamesOwn (readied i s) :=
    own.mono (readied_frame i s).orders fun _ _ => readied_names.1
  rw [release_unguarded ho bare]
  exact ready.trans (resolve_gateAlike own' apart)

/-! ### Releases that settle nothing -/

/-- All that waits on `h` is unguarded, and where it is the GATE's its travel timer is not complete. -/
def QuietBehind (h : Handle) (s : State) : Prop :=
  ∀ i o, s.orderAt i = some o → s.waitsOn i h = true → o.guards = [] ∧ (o.actuator = gate → s.travel ≠ .complete)

/-- What the releases of a quiet settle leave. -/
structure QuietlyReleased (s t : State) : Prop where
  slots : Restood s t
  queue : t.txQueue = s.txQueue
  names : ∀ a h, t.names a h → s.names a h
  settles : t.gateSettles = none
  gate : s.travel ≠ .complete ∧ t.travel ≠ .complete ∨ GateAlike s t

theorem QuietlyReleased.own {s t : State} (q : QuietlyReleased s t) (own : NamesOwn s) : NamesOwn t := by
  intro a h p n live
  obtain ⟨o, ho, same⟩ := q.slots.reached live
  exact (Order.restands_kept same).2.1.trans (own a h o (q.names a h n) ho)

theorem settleGateBy_none {f : Handle → State → State} {s : State} (h : s.gateSettles = none) :
    settleGateBy f s = s := by
  rw [settleGateBy]
  simp only [h]

theorem releaseTurn_quiet {f : Handle → State → State} {h : Handle} {s t : State} (own : NamesOwn s)
    (behind : QuietBehind h s) (q : QuietlyReleased s t) (i : Slot) : QuietlyReleased s (releaseTurn f h t i) := by
  unfold releaseTurn
  split
  · next w =>
    obtain ⟨p, hp, -⟩ := waitsOn_iff.1 w
    obtain ⟨o, ho, same⟩ := q.slots.was hp
    have kept := Order.restands_kept same
    obtain ⟨unguarded, onGate⟩ := behind i o ho (q.slots.waits i h w)
    have unguarded : p.guards = [] := (Order.restands_guards same).trans unguarded
    have own' := q.own own
    have gate : s.travel ≠ .complete ∧ (release i t).travel ≠ .complete ∨ GateAlike s (release i t) := by
      rcases q.gate with ⟨rs, rt⟩ | alike
      · exact .inl ⟨rs, release_running hp unguarded rt⟩
      · by_cases isGate : o.actuator = Machine.gate
        · have rs := onGate isGate
          exact .inl ⟨rs, release_running hp unguarded (alike.travel ▸ rs)⟩
        · exact .inr (alike.trans (release_gateAlike own' hp unguarded (kept.2.1 ▸ isGate)))
    have settles : (release i t).gateSettles = none := by
      rcases q.gate with ⟨_, rt⟩ | alike
      · exact gateSettles_running (release_running hp unguarded rt)
      · by_cases isGate : o.actuator = Machine.gate
        · exact gateSettles_running (release_running hp unguarded (alike.travel ▸ onGate isGate))
        · exact (release_gateAlike own' hp unguarded (kept.2.1 ▸ isGate)).settles own' (release_frame i t).orders q.settles
    rw [settleGateBy_none settles]
    exact ⟨q.slots.trans (release_restood hp unguarded), (release_queue hp unguarded).trans q.queue,
      fun a k n => q.names a k (release_names_unguarded hp unguarded a k n), settles, gate⟩
  · exact q

/-- Releases of unguarded orders that let nothing settle on the GATE queue no notice. -/
theorem reported_quiet {f : Handle → State → State} {h : Handle} {s : State}
    (own : NamesOwn s) (behind : QuietBehind h s)
    (quiet : (s.updOrder h.slot fun o => { o with settled := true }).gateSettles = none) :
    QuietlyReleased (s.updOrder h.slot fun o => { o with settled := true }) (reported f h s) := by
  have kept := (settled_frame h s).orders
  have own' : NamesOwn (s.updOrder h.slot fun o => { o with settled := true }) :=
    own.mono kept (settled_names h s)
  have behind' : QuietBehind h (s.updOrder h.slot fun o => { o with settled := true }) := by
    intro i p hp w
    obtain ⟨o, ho, same, -⟩ := kept i p hp
    obtain ⟨guards, run⟩ := behind i o ho (settled_waits h s i h w)
    have guards' : p.guards = [] := by simpa [guards] using same.2.2.2.2.2.2.2.2.2.2
    exact ⟨guards', fun g => by simpa using run (same.2.1 ▸ g)⟩
  unfold reported
  exact List.foldlRecOn (motive := QuietlyReleased _) allSlots _
    ⟨.refl _, rfl, fun _ _ => id, quiet, .inr (.refl _)⟩ fun t ht i _ => releaseTurn_quiet own' behind' ht i

end Sys2Proof.Machine
end

section
/-! A settle: its SETTLE order ends, its dependents are released, and the completion is told first (R16, R64). -/

namespace Sys2Proof.Machine

theorem order?_of_live {s : State} {h : Handle} {o : Order} (e : s.slot h.slot = ⟨h.gen, some o⟩) :
    s.order? h = some o := by
  simp [State.order?, State.orderAt, e]

/-! ### A slot ages by the end of its order alone -/

/-- The order `h` is live, or it was the last of its slot. -/
def Aged (h : Handle) (s : State) : Prop := s.slot h.slot = ⟨h.gen + 1, none⟩ ∨ ∃ o, s.slot h.slot = ⟨h.gen, some o⟩

theorem Aged.of_live {h : Handle} {s : State} {o : Order} (live : s.order? h = some o) : Aged h s :=
  .inr ⟨o, order?_slot live⟩

theorem Aged.mapped {h : Handle} {s t : State} (a : Aged h s)
    (same : ∃ f : Order → Order, t.slot h.slot = ⟨(s.slot h.slot).gen, (s.orderAt h.slot).map f⟩) : Aged h t := by
  obtain ⟨f, e⟩ := same
  rcases a with a | ⟨o, a⟩
  · exact .inl (by rw [e, State.orderAt, a]; rfl)
  · exact .inr ⟨f o, by rw [e, State.orderAt, a]; rfl⟩

theorem Aged.restood {h : Handle} {s t : State} (a : Aged h s) (r : Restood s t) : Aged h t :=
  a.mapped (by obtain ⟨f, e, -⟩ := r h.slot; exact ⟨f, e⟩)

theorem Aged.updOrder {h : Handle} {s : State} {i : Slot} {f : Order → Order} (a : Aged h s) :
    Aged h (s.updOrder i f) := by
  refine a.mapped ?_
  rw [slot_updOrder]
  split
  · next same => exact ⟨f, by rw [same]⟩
  · exact ⟨id, by simp [State.orderAt]⟩

theorem Aged.retireOne {h : Handle} {s : State} (a : Aged h s) (lane : Bool) (i : Slot) (c : Cause) :
    Aged h (retireOne lane i c s) := by
  by_cases same : h.slot = i
  · rcases a with a | ⟨o, a⟩
    · rw [retireOne_dead (by rw [State.orderAt, ← same, a])]
      exact .inl a
    · left
      rw [same, retireOne_self (o := o) (by rw [State.orderAt, ← same, a]), ← same, a]
  · exact a.mapped (by obtain ⟨f, e, -⟩ := retireOne_others lane c s same; exact ⟨f, e⟩)

theorem aged_engine (h : Handle) : EngineKeeps (Aged h) (fun _ => True) (fun _ => True) where
  resolved a _ _ := a.restood (resolve_resolves _ _).slots
  lose a _ _ := a.retireOne _ _ _
  cond _ _ a _ := a.updOrder
  trip a _ _ _ _ _ _ := a.retireOne _ _ _
  ready a _ _ := a.updOrder
  waits _ _ _ := trivial
  settles _ _ := trivial
  settled a _ := a.updOrder
  complete a _ _ _ _ := a.retireOne _ _ _

theorem reported_frame {f : Handle → State → State} (hf : ∀ h s, EngineFrame s (f h s)) (h : Handle) (s : State) :
    EngineFrame s (reported f h s) := by
  have turn : ∀ s i, EngineFrame s (releaseTurn f h s i) := fun s i => by
    unfold releaseTurn
    split
    · exact (release_frame i s).trans (settleGateBy_frame hf _)
    · exact .refl s
  exact (settled_frame h s).trans (foldl_frame turn allSlots _)

/-- The last step of a settle whose order completes. -/
theorem settleBy_completes {f : Handle → State → State} {h : Handle} {o : Order} {s : State}
    (live : (reported f h s).order? h = some o) (completes : o.completion = .settle) :
    settleBy f h s = settleGateBy f (retireCore true h.slot .completed (reported f h s)) := by
  rw [settleBy_eq, live]
  exact if_pos completes

/-- A SETTLE order that settles has ended when the settle is over. -/
theorem settleOrder_ends {h : Handle} {o : Order} {s : State} (live : s.order? h = some o)
    (completes : o.completion = .settle) : (settleOrder h s).slot h.slot = ⟨h.gen + 1, none⟩ := by
  have aged := (aged_engine h).reported (f := settleFor 80)
    (fun k s hs _ => (aged_engine h).settleFor 80 k s hs trivial) (.of_live live) (h := h) trivial
  have kept := (reported_frame (settleFor_frame 80) h s).orders
  rw [settleOrder_eq]
  rcases aged with gone | ⟨p, hp⟩
  · have dead : (reported (settleFor 80) h s).order? h = none := by simp [State.order?, gone]
    rw [settleBy_eq, dead]
    exact gone
  · have at' : (reported (settleFor 80) h s).orderAt h.slot = some p := by rw [State.orderAt, hp]
    obtain ⟨q, hq, same, -⟩ := kept h.slot p at'
    obtain rfl : o = q := Option.some.inj ((order?_eq_some live).2.symm.trans hq)
    rw [settleBy_completes (order?_of_live hp) (same.2.2.2.2.1.trans completes)]
    have freed := retireCore_self (lane := true) (c := .completed) at'
    rw [hp] at freed
    exact (settleGateBy_frame (settleFor_frame 80) _).stays_free freed

/-! ### The release of a dependent -/

/-- The order `d` is live under `k`, in some standing; while it waits, the order `h` that it waits on is live and
acts. -/
structure Dependent (h k : Handle) (d : Order) (s : State) : Prop where
  live : ∃ p, s.order? k = some p ∧ d.restands p ∧ (p.state = .waiting → (s.order? h).isSome)
  acts : ∀ p, s.orderAt h.slot = some p → p.state ≠ .waiting
  whole : Incomplete d s

namespace Dependent

variable {h k : Handle} {d : Order} {s t : State}

theorem restood (x : Dependent h k d s) (r : Restood s t) (w : Incomplete d t) : Dependent h k d t where
  live := by
    obtain ⟨p, hp, same, awaits⟩ := x.live
    obtain ⟨q, hq, same'⟩ := r.reach hp
    refine ⟨q, hq, Order.restands_trans same same', fun w => ?_⟩
    obtain ⟨o, ho⟩ := Option.isSome_iff_exists.1 (awaits (same'.2 w))
    obtain ⟨o', ho', -⟩ := r.reach ho
    rw [ho']; rfl
  acts p hp w := by
    obtain ⟨o, ho, same⟩ := r.was hp
    exact x.acts o ho (same.2 w)
  whole := w

theorem of_slots (x : Dependent h k d s) (eh : t.slot h.slot = s.slot h.slot) (ek : t.slot k.slot = s.slot k.slot)
    (w : Incomplete d t) : Dependent h k d t where
  live := by rw [order?_of_slot eh, order?_of_slot ek]; exact x.live
  acts := by rw [State.orderAt, eh]; exact x.acts
  whole := w

theorem acts_apart (x : Dependent h k d s) {i : Slot} {y : Handle} (w : s.waitsOn i y = true) : i ≠ h.slot := by
  rintro rfl
  obtain ⟨p, hp, st, -⟩ := waitsOn_iff.1 w
  exact x.acts p hp st

theorem bare (x : Dependent h k d s) (bare : d.guards = []) {y : Handle} {o : Order} (e : y.slot = k.slot)
    (ho : s.order? y = some o) : o.guards = [] := by
  obtain ⟨p, hp, same, -⟩ := x.live
  obtain ⟨-, rfl⟩ := handle_eq hp ho e.symm
  exact (Order.restands_guards same).trans bare

/-- An order whose prerequisite is gone is not this one. -/
theorem lost_apart (x : Dependent h k d s) (waits : d.prereq = some h) {i : Slot} {y : Handle}
    (w : s.waitsOn i y = true) (dead : s.order? y = none) : i ≠ k.slot := by
  rintro rfl
  obtain ⟨p, hp, same, awaits⟩ := x.live
  obtain ⟨q, hq, st, pre⟩ := waitsOn_iff.1 w
  obtain rfl : q = p := Option.some.inj (hq.symm.trans (order?_eq_some hp).2)
  rw [(Order.restands_kept same).2.2.2.2.2.1, waits] at pre
  cases pre
  simpa [dead] using awaits st

/-- The completion of an order that nothing waits on. -/
theorem completed (x : Dependent h k d s) (waits : d.prereq = some h) {y : Handle} {o : Order}
    (hy : y ≠ k ∨ d.completion = .standing) (ho : s.order? y = some o) (done : o.completion = .settle)
    (unawaited : ∀ i, s.waitsOn i y = false) : Dependent h k d (retireOne true y.slot .completed s) := by
  have whole := x.whole.engine (retireOne_frame true y.slot .completed s).orders (retireOne_names _ _ _ _)
  obtain ⟨p, hp, same, awaits⟩ := x.live
  obtain ⟨f, hf, hr⟩ := retireOne_others true .completed s (completes_apart hp same hy ho done)
  have acts : ∀ {p}, p.state = .waiting → (retireOne true y.slot .completed s).orderAt h.slot = some p → False := by
    intro q st hq
    by_cases e : h.slot = y.slot
    · rw [e, retireOne_slot_dead] at hq; cases hq
    · obtain ⟨f, hf, hr⟩ := retireOne_others true .completed s e
      rw [State.orderAt, hf] at hq
      obtain ⟨p, hp, rfl⟩ := Option.map_eq_some_iff.1 hq
      exact x.acts p hp ((hr p).2 st)
  refine ⟨⟨f p, order?_of_live ?_, Order.restands_trans same (hr p), fun st => ?_⟩, fun q hq st => acts st hq, whole⟩
  · rw [hf, State.orderAt, order?_slot hp]; rfl
  · have st := (hr p).2 st
    obtain ⟨q, hq⟩ := Option.isSome_iff_exists.1 (awaits st)
    have apart : h.slot ≠ y.slot := by
      intro e
      obtain ⟨rfl, -⟩ := handle_eq hq ho e
      have w : s.waitsOn k.slot h = true :=
        waitsOn_iff.2 ⟨p, (order?_eq_some hp).2, st, (Order.restands_kept same).2.2.2.2.2.1.trans waits⟩
      rw [unawaited] at w; cases w
    obtain ⟨g, hg, -⟩ := retireOne_others true .completed s apart
    rw [order?_of_live (o := g q) (by rw [hg, State.orderAt, order?_slot hq]; rfl)]
    rfl

end Dependent

theorem setCond_slot_bare {h : Handle} {g : Nat} {c : Cond} {s : State} {i : Slot}
    (bare : ∀ o, s.orderAt i = some o → h.slot = i → o.guards = []) : (setCond h g c s).slot i = s.slot i := by
  rw [setCond, slot_updOrder]
  split
  · next e =>
    subst e
    conv_rhs => rw [slot_eta]
    congr 1
    cases ho : s.orderAt h.slot with
    | none => rfl
    | some o =>
      have none := bare o ho rfl
      cases o
      cases none
      simp
  · rfl

/-- Whatever the engine does, a dependent without guards that cannot complete is not lost (R16, R64). -/
theorem dependent_engine {h k : Handle} {d : Order} (waits : d.prereq = some h) (bare : d.guards = []) :
    EngineKeeps (Dependent h k d) (fun y => y ≠ k ∨ d.completion = .standing) (fun i => i ≠ h.slot) where
  resolved x _ _ := x.restood (resolve_resolves _ _).slots (x.whole.engine (resolve_frame _ _).orders (resolve_names _ _))
  lose x w dead := x.of_slots (retireOne_slot _ _ (x.acts_apart w).symm) (retireOne_slot _ _ (x.lost_apart waits w dead).symm)
    (x.whole.engine (retireOne_frame _ _ _ _).orders (retireOne_names _ _ _ _))
  cond {s y} g c x hw := x.of_slots (by rw [setCond, slot_updOrder, if_neg (Ne.symm hw)])
    (setCond_slot_bare fun o ho e => x.bare bare (y := s.handleAt k.slot) rfl ((order?_handleAt s _).trans ho))
    (x.whole.engine (setCond_frame _ g c _).orders (setCond_names _ g c _))
  trip {s y o e} x hw ho he _ _ _ := x.of_slots (retireOne_slot _ _ (Ne.symm hw))
    (retireOne_slot _ _ fun same => by rw [x.bare bare same.symm ho] at he; cases he)
    (x.whole.engine (retireOne_frame _ _ _ _).orders (retireOne_names _ _ _ _))
  ready x _ _ := x.restood (readied_restood _ _) (x.whole.engine (readied_frame _ _).orders fun _ _ => readied_names.1)
  waits x _ w := x.acts_apart w
  settles x g := by
    obtain ⟨p, hp, same, -⟩ := x.live
    exact x.whole.settles hp same g
  settled x _ := x.restood (settled_restood _ _) (x.whole.engine (settled_frame _ _).orders (settled_names _ _))
  complete x hy ho done unawaited := x.completed waits hy ho done unawaited

theorem settleOrder_none (h : Handle) (s : State) (i : Slot) : (settleOrder h s).waitsOn i h = false := by
  have none := reported_none (settleFor_waits 80) h s
  rw [settleOrder_eq, settleBy_eq]
  split
  · split
    · exact ((retireCore_waits _ _ _ _).trans (settleGateBy_waits (settleFor_waits 80) _)).none none i
    · exact none i
  · exact none i

/-- A settle releases each dependent without guards that cannot complete: PENDING or GOVERNING, with its fields. -/
theorem settleOrder_releases {h : Handle} {o d : Order} {i : Slot} {s : State} (live : s.order? h = some o)
    (acts : o.state ≠ .waiting) (hd : s.orderAt i = some d) (st : d.state = .waiting) (waits : d.prereq = some h)
    (bare : d.guards = []) (whole : Incomplete d s) :
    ∃ d', (settleOrder h s).orderAt i = some d' ∧ d.kept d' ∧ (d'.state = .pending ∨ d'.state = .governing) ∧
      ((settleOrder h s).slot i).gen = (s.slot i).gen := by
  have apart : h ≠ s.handleAt i := by
    rintro rfl
    rw [order?_handleAt, hd] at live
    cases live
    exact acts st
  have start : Dependent h (s.handleAt i) d s :=
    ⟨⟨d, (order?_handleAt s i).trans hd, Order.restands_refl d, fun _ => by simp [live]⟩,
      fun p hp => by rw [(order?_eq_some live).2] at hp; cases hp; exact acts, whole⟩
  obtain ⟨p, hp, same, -⟩ := ((dependent_engine waits bare).settleOrder start (h := h) (.inl apart)).live
  have kept := Order.restands_kept same
  have slot := order?_slot hp
  change (settleOrder h s).slot i = _ at slot
  refine ⟨p, (order?_eq_some hp).2, kept, ?_, by rw [slot]; rfl⟩
  cases e : p.state with
  | pending => exact .inl rfl
  | governing => exact .inr rfl
  | waiting =>
    have w : (settleOrder h s).waitsOn i h = true :=
      waitsOn_iff.2 ⟨p, (order?_eq_some hp).2, e, kept.2.2.2.2.2.1.trans waits⟩
    rw [settleOrder_none] at w; cases w

end Sys2Proof.Machine
end

section
/-! The settle dwell runs out on a SETTLE order (R62, R64). -/

namespace Sys2Proof.Machine

theorem setDetector_names {a : Actuator} {d : Detector} {s : State} (b : Actuator) (h : Handle)
    (n : (setDetector a d s).names b h) : s.names b h := by
  unfold State.names setDetector at n
  rw [lane_updLane] at n
  split at n
  · next same => subst same; exact n
  · exact n

theorem setDetector_settles {a : Actuator} {d : Detector} {s : State} (quiet : s.gateSettles = none) :
    (setDetector a d s).gateSettles = none := by
  cases e : (setDetector a d s).gateSettles with
  | none => rfl
  | some h =>
    obtain ⟨o, gov, live, st, unsettled, complete, at'⟩ := gateSettles_iff.1 e
    unfold State.atTarget at at'
    simp only [setDetector, lane_updLane] at gov st at'
    have before : s.gateSettles = some h := by
      refine gateSettles_iff.2 ⟨o, ?_, live, ?_, unsettled, complete, ?_⟩
      · split at gov
        · next same => subst same; exact gov
        · exact gov
      · split at st
        · next same => subst same; exact st
        · exact st
      · unfold State.atTarget
        split at at'
        · next same => subst same; exact at'
        · exact at'
    rw [quiet] at before; cases before

theorem settled_settles {h : Handle} {s : State} (quiet : s.gateSettles = none) :
    (s.updOrder h.slot fun o => { o with settled := true }).gateSettles = none := by
  cases e : (s.updOrder h.slot fun o => { o with settled := true }).gateSettles with
  | none => rfl
  | some k =>
    obtain ⟨o, gov, live, st, unsettled, complete, at'⟩ := gateSettles_iff.1 e
    rw [order?_updOrder] at live
    split at live
    · obtain ⟨p, -, rfl⟩ := Option.map_eq_some_iff.1 live
      cases unsettled
    · have before : s.gateSettles = some k := by
        refine gateSettles_iff.2 ⟨o, by simpa using gov, live, by simpa using st, unsettled, by simpa using complete, ?_⟩
        simpa [State.atTarget] using at'
      rw [quiet] at before; cases before

/-- What is told first of a settle that completes an order with unguarded dependents: the completion (R64). -/
theorem settleOrder_first {h : Handle} {o : Order} {s : State} (live : s.order? h = some o)
    (completes : o.completion = .settle) (own : NamesOwn s) (behind : QuietBehind h s)
    (quiet : (s.updOrder h.slot fun o => { o with settled := true }).gateSettles = none) :
    firstNotice s (settleOrder h s) (addressee o.cls) (.retired h o.actuator .completed) := by
  have released := reported_quiet (f := settleFor 80) own behind quiet
  have slots := (settled_restood h s).trans released.slots
  obtain ⟨p, hp, same⟩ := slots.reach live
  have kept := Order.restands_kept same
  obtain ⟨hh, hp'⟩ := order?_eq_some hp
  have first := (retireCore_first (lane := true) (c := .completed) hp' (by simp)).engine
    (settleGateBy_frame (settleFor_frame 80) _)
  rw [hh, ← settleBy_completes hp (kept.2.2.2.2.1.trans completes), ← settleOrder_eq, kept.1, kept.2.1] at first
  have queue : (reported (settleFor 80) h s).txQueue = s.txQueue := released.queue.trans (by simp)
  unfold firstNotice State.noticeCount at first ⊢
  rw [queue] at first
  exact first

theorem execSettleDwellExpiry_due {a : Actuator} {h : Handle} {o : Order} {n : Nat} {s : State}
    (st : (s.lane a).state = .driven) (gov : (s.lane a).gov = some h) (live : s.order? h = some o)
    (timing : (s.lane a).detector = .timing n) (due : (s.lane a).dwell ≤ n) :
    exec (.settleDwellExpiry a) s = .next (settleOrder h (setDetector a .settled s)) := by
  show execSettleDwellExpiry a s = _
  unfold execSettleDwellExpiry
  rw [st, governing_eq_some.2 ⟨gov, live⟩]
  simp [Lane.dwellDue, timing, due]

/-- Settles O31: the releases come before the retirement, and a release without guards queues nothing. -/
theorem completionReleasesDependentsFirst : Obligations.CompletionReleasesDependentsFirst := by
  intro a h o n i d s st gov live timing due completes acts hd wait pre standing bare law
  have whole : Incomplete d (setDetector a .settled s) := .inl standing
  have live' : (setDetector a .settled s).order? h = some o := live
  obtain ⟨d', hd', kept, stands, -⟩ := settleOrder_releases (i := i) live' (by simp [acts]) hd wait pre bare whole
  refine ⟨_, d', execSettleDwellExpiry_due st gov live timing due, settleOrder_ends live' completes, hd', kept, stands,
    fun quiet behind => ?_, (setDetector_frame a .settled s).trans (settleOrder_frame h _)⟩
  have own : NamesOwn (setDetector a .settled s) :=
    law.namesOwn.mono (setDetector_frame a .settled s).orders setDetector_names
  have quietBehind : QuietBehind h (setDetector a .settled s) := by
    intro j p hp w
    obtain ⟨q, hq, wait, pre⟩ := waitsOn_iff.1 w
    obtain rfl : p = q := Option.some.inj (hp.symm.trans hq)
    exact behind j p hp wait pre
  have first := settleOrder_first live' completes own quietBehind (settled_settles (setDetector_settles quiet))
  exact first

end Sys2Proof.Machine
end

section
/-! The gate travel timer completes: the settle of the GATE's order with its dependents on other lanes (R16, R60, R63,
R64). -/

namespace Sys2Proof.Machine

/-! ### Retirements that no lane resolves on -/

/-- A retirement without resolution takes the order out of its position, and no more, of a lane it does not govern. -/
theorem retireOne_false_lane {i : Slot} {c : Cause} {s : State} {b : Actuator}
    (g : (s.lane b).gov ≠ some (s.handleAt i)) : ∃ set : PerClass (Option Handle),
      (retireOne false i c s).lane b = { s.lane b with orderSet := set } ∧
      ∀ d k, set.get d = some k → (s.lane b).orderSet.get d = some k := by
  cases ho : s.orderAt i with
  | none => exact ⟨_, by rw [retireOne_dead ho], fun _ _ => id⟩
  | some o =>
    rw [retireOne_live ho, lane_of_lanes (freeSlot_leaves _ _ _ _ _).2.1]
    simp only [leaveLane, Bool.false_and, Bool.false_eq_true, if_false, dropFromLane, lane_updLane]
    split
    · next same =>
      subst same
      refine ⟨_, by rw [if_neg g, if_neg g], fun d k hk => ?_⟩
      split at hk
      · rw [PerClass.get_set] at hk
        split at hk
        · cases hk
        · exact hk
      · exact hk
    · exact ⟨_, rfl, fun _ _ => id⟩

theorem cascade_unawaited {h : Handle} {s : State} (none : ∀ i, s.waitsOn i h = false) :
    ∀ n, cascade n h s = s
  | 0 => rfl
  | n + 1 => by
    rw [cascade_succ]
    refine List.foldl_fixed' (fun i => ?_) allSlots
    rw [cascadeTurn, none i]
    rfl

/-! ### The GATE held by its settled order -/

/-- The settled order `q` governs the DRIVEN GATE under `h`, with its command and the timer complete; the orders, their
positions on the GATE and what waits are among those of `s`. -/
structure GateHeld (h : Handle) (q : Order) (s t : State) : Prop where
  order : t.slot h.slot = ⟨h.gen, some q⟩
  travel : t.travel = .complete
  state : (t.lane gate).state = .driven
  gov : (t.lane gate).gov = some h
  command : (t.lane gate).command = some q.target
  positions : ∀ c k, (t.lane gate).orderSet.get c = some k → (s.lane gate).orderSet.get c = some k
  own : NamesOwn t
  kept : OrdersKept s t
  waits : WaitsOnly s t

namespace GateHeld

variable {h : Handle} {q : Order} {s t u : State}

theorem settles (x : GateHeld h q s t) (settled : q.settled = true) : t.gateSettles = none := by
  cases e : t.gateSettles with
  | none => rfl
  | some k =>
    obtain ⟨p, gov, live, -, unsettled, -⟩ := gateSettles_iff.1 e
    rw [x.gov] at gov
    cases gov
    rw [order?_of_live x.order] at live
    cases live
    rw [settled] at unsettled; cases unsettled

/-- A write that leaves the GATE's lane and timer and its order's slot. -/
theorem alike (x : GateHeld h q s t) (travel : u.travel = t.travel) (lane : u.lane gate = t.lane gate)
    (slot : u.slot h.slot = t.slot h.slot) (names : ∀ a k, u.names a k → t.names a k) (kept : OrdersKept t u)
    (waits : WaitsOnly t u) : GateHeld h q s u where
  order := slot.trans x.order
  travel := travel.trans x.travel
  state := lane ▸ x.state
  gov := lane ▸ x.gov
  command := lane ▸ x.command
  positions := lane ▸ x.positions
  own := x.own.mono kept names
  kept := x.kept.trans kept
  waits := x.waits.trans waits

theorem retired (x : GateHeld h q s t) {i : Slot} (apart : i ≠ h.slot) (c : Cause) :
    GateHeld h q s (retireOne false i c t) := by
  have other : (t.lane gate).gov ≠ some (t.handleAt i) := by
    rw [x.gov]
    intro e
    cases e
    exact apart rfl
  obtain ⟨set, lane, sub⟩ := retireOne_false_lane (c := c) other
  exact {
    order := (retireOne_slot c t apart.symm).trans x.order
    travel := (retireOne_false_leaves i c t).2.trans x.travel
    state := by rw [lane]; exact x.state
    gov := by rw [lane]; exact x.gov
    command := by rw [lane]; exact x.command
    positions := by rw [lane]; exact fun d k hk => x.positions d k (sub d k hk)
    own := x.own.mono (retireOne_frame _ _ _ _).orders (retireOne_names _ _ _ _)
    kept := x.kept.trans (retireOne_frame _ _ _ _).orders
    waits := x.waits.trans (retireOne_waits _ _ _ _) }

theorem not_waiting (x : GateHeld h q s t) (acts : q.state ≠ .waiting) {i : Slot} {k : Handle}
    (w : t.waitsOn i k = true) : i ≠ h.slot := by
  rintro rfl
  obtain ⟨p, hp, st, -⟩ := waitsOn_iff.1 w
  rw [State.orderAt, x.order] at hp
  cases hp
  exact acts st

end GateHeld

/-- The slot holds no order of the GATE. -/
def OffGate (s : State) (i : Slot) : Prop := ∀ d, s.orderAt i = some d → d.actuator ≠ gate

theorem OffGate.apart {s : State} {i j : Slot} {o : Order} (may : OffGate s i) (ho : s.orderAt j = some o)
    (onGate : o.actuator = gate) : i ≠ j := by
  rintro rfl
  exact may o ho onGate

/-- Releases on other lanes leave the GATE to its settled order. -/
theorem gateHeld_releases {h : Handle} {q o : Order} {s : State} (acts : q.state ≠ .waiting)
    (ho : s.orderAt h.slot = some o) (onGate : o.actuator = gate) : ReleaseKeeps (GateHeld h q s) (OffGate s) where
  resolved {t k p} x may hp := by
    obtain ⟨d, hd, same, -⟩ := x.kept k.slot p (order?_eq_some hp).2
    have apart : p.actuator ≠ gate := fun e => may d hd (same.2.1.symm.trans e)
    obtain ⟨o', ho', sameq, -⟩ := x.kept h.slot q (by rw [State.orderAt, x.order])
    obtain rfl := Option.some.inj (ho.symm.trans ho')
    have qGate : q.actuator = gate := sameq.2.1.trans onGate
    have alike := resolve_gateAlike x.own apart
    exact x.alike alike.travel alike.lane (alike.orders _ q (by rw [State.orderAt, x.order]) qGate) (resolve_names _ _)
      (resolve_frame _ _).orders (resolve_resolves _ _).slots.waits
  lose x w _ := x.retired (x.not_waiting acts w) _
  cond {t k} g c x may := x.alike (by simp [setCond]) (lane_of_lanes (by simp [setCond]) _)
    (by rw [setCond, slot_updOrder, if_neg (may.apart ho onGate).symm]) (setCond_names k g c t)
    (setCond_frame k g c t).orders (setCond_waits k g c t)
  trip x may _ _ _ _ _ := x.retired (may.apart ho onGate) _
  ready {t i k} x may _ := x.alike (by simp [readied]) (lane_of_lanes (by simp [readied]) _)
    (by rw [readied, slot_updOrder, if_neg (may.apart ho onGate).symm]) (fun _ _ => readied_names.1)
    (readied_frame i t).orders (readied_waits i t)

theorem reported_gateHeld {f : Handle → State → State} {h : Handle} {q o : Order} {s : State} (acts : q.state ≠ .waiting)
    (settled : q.settled = true) (ho : s.orderAt h.slot = some o) (onGate : o.actuator = gate)
    (elsewhere : ∀ i, s.waitsOn i h = true → OffGate s i) {u : State}
    (start : GateHeld h q s (u.updOrder h.slot fun o => { o with settled := true })) :
    GateHeld h q s (reported f h u) := by
  unfold reported
  refine List.foldlRecOn (motive := GateHeld h q s) allSlots _ start fun t ht i _ => ?_
  unfold releaseTurn
  split
  · next w =>
    have released := (gateHeld_releases acts ho onGate).release ht (elsewhere i (ht.waits i h w)) w
    rwa [settleGateBy_none (released.settles settled)]
  · exact ht

/-! ### The GATE's last order ends -/

theorem gateStep_lane (v : Int) (s : State) : (gateStep v s).lane gate = { s.lane gate with command := some v } := by
  unfold gateStep
  split
  · next held => rw [← held]
  · rw [setCommand_lane, if_pos rfl]; rfl

theorem gateStep_travel (v : Int) (s : State) :
    (gateStep v s).travel = if (s.lane gate).command = some v then s.travel else .running 0 := by
  unfold gateStep
  split
  · rfl
  · exact (handCommand_leaves gate _).2.2.2.2.2

/-- The GATE without an order rests and steps to 0 (R31, R60). -/
structure GateRests (s t : State) : Prop where
  state : (t.lane gate).state = .rest
  gov : (t.lane gate).gov = none
  command : (t.lane gate).command = some 0
  travel : t.travel = if (s.lane gate).command = some 0 then s.travel else .running 0

theorem resolve_unordered {s : State} (state : (s.lane gate).state = .driven) (gov : (s.lane gate).gov = none)
    (empty : ∀ c, (s.lane gate).orderSet.get c = none) : GateRests s (resolve gate s) := by
  have none : s.governing gate = none := by simp [State.governing, gov]
  have noCandidate : s.candidate gate = Option.none := by
    cases e : s.candidate gate with
    | none => rfl
    | some x =>
      obtain ⟨inSet, -⟩ := candidate_eq_some (c := x.1) (h := x.2) e
      rw [empty] at inSet; cases inSet
  have yield : resolveYield gate s = s := by simp only [resolveYield, none]
  have choice : resolveChoice gate s = s := by simp only [resolveChoice, none, noCandidate]
  have rest : resolve gate s = gateStep 0 (s.updLane gate fun l =>
      { l with gov := Option.none, maskHold := false, guardHold := false, state := .rest, detector := .idle }) := by
    rw [resolve, if_neg (by simp [state]), yield, choice, takeHolds]
    simp only [none, if_true]
  rw [rest]
  exact ⟨by rw [gateStep_lane, lane_updLane, if_pos rfl], by rw [gateStep_lane, lane_updLane, if_pos rfl],
    by rw [gateStep_lane], by rw [gateStep_travel, lane_updLane, if_pos rfl]; simp⟩

theorem retireOne_rests {h : Handle} {q : Order} {c : Cause} {t : State} (slot : t.slot h.slot = ⟨h.gen, some q⟩)
    (onGate : q.actuator = gate) (acts : q.state ≠ .waiting) (state : (t.lane gate).state = .driven)
    (gov : (t.lane gate).gov = some h)
    (only : ∀ d k, (t.lane gate).orderSet.get d = some k → k = h ∧ d = q.cls) :
    GateRests t (retireOne true h.slot c t) := by
  have at' : t.orderAt h.slot = some q := by rw [State.orderAt, slot]
  have handle : t.handleAt h.slot = h := by rw [State.handleAt, slot]
  have lane : (dropFromLane gate q.cls h t).lane gate = { t.lane gate with
      orderSet := if (t.lane gate).orderSet.get q.cls = some h then (t.lane gate).orderSet.set q.cls none
        else (t.lane gate).orderSet
      gov := none, detector := .idle } := by
    rw [dropFromLane, lane_updLane, if_pos rfl, if_pos gov, if_pos gov]
  have empty : ∀ d, ((dropFromLane gate q.cls h t).lane gate).orderSet.get d = none := by
    intro d
    rw [lane]
    dsimp only
    cases e : (t.lane gate).orderSet.get d with
    | none =>
      split
      · rw [PerClass.get_set, e]; simp
      · exact e
    | some k =>
      obtain ⟨rfl, rfl⟩ := only d k e
      rw [if_pos e, PerClass.get_set, if_pos rfl]
  have rests := resolve_unordered (s := dropFromLane gate q.cls h t) (by rw [lane]; exact state) (by rw [lane]) empty
  have leaves := freeSlot_leaves q h.slot h c (resolve gate (dropFromLane gate q.cls h t))
  have eq : retireOne true h.slot c t = freeSlot q h.slot h c (resolve gate (dropFromLane gate q.cls h t)) := by
    rw [retireOne_live at', leaveLane, if_pos (by simp [acts]), handle, onGate]
  have same := lane_of_lanes leaves.2.1 gate
  rw [eq]
  refine ⟨by rw [same]; exact rests.state, by rw [same]; exact rests.gov, by rw [same]; exact rests.command, ?_⟩
  rw [leaves.2.2.2, rests.travel, lane]
  simp [dropFromLane]

theorem gateSettles_ungoverned {s : State} (gov : (s.lane gate).gov = none) : s.gateSettles = none := by
  cases e : s.gateSettles with
  | none => rfl
  | some k =>
    obtain ⟨p, gov', -⟩ := gateSettles_iff.1 e
    rw [gov] at gov'; cases gov'

/-- The settle of the GATE's only order, when it completes: nothing waits on it any more, and nothing is left to settle
there. -/
theorem settleOrder_completes {h : Handle} {q : Order} {s : State}
    (slot : (reported (settleFor 80) h s).slot h.slot = ⟨h.gen, some q⟩) (completes : q.completion = .settle)
    (rests : GateRests (reported (settleFor 80) h s) (retireOne true h.slot .completed (reported (settleFor 80) h s))) :
    settleOrder h s = retireOne true h.slot .completed (reported (settleFor 80) h s) := by
  have at' : (reported (settleFor 80) h s).orderAt h.slot = some q := by rw [State.orderAt, slot]
  have handle : (reported (settleFor 80) h s).handleAt h.slot = h := by rw [State.handleAt, slot]
  have none := (retireOne_waits true h.slot .completed _).none (reported_none (settleFor_waits 80) h s)
  rw [settleOrder_eq, settleBy_completes (order?_of_live slot) completes, retireCore_live at', handle,
    cascade_unawaited none, settleGateBy_none (gateSettles_ungoverned rests.gov)]

end Sys2Proof.Machine
end

section
/-! The settle of the GATE's order when the travel timer completes (R60, R63, R64). -/

namespace Sys2Proof.Machine

/-- The travel timer stands complete. -/
def arrived (s : State) : State := { s with travel := .complete }

theorem settled_lane (h : Handle) (s : State) (a : Actuator) :
    (s.updOrder h.slot fun o => { o with settled := true }).lane a = s.lane a := lane_of_lanes (by simp) a

theorem arrived_frame (s : State) : EngineFrame s (arrived s) := travel_frame s _

theorem exec_travel_running {n : Nat} {s : State} (run : s.travel = .running n) (early : n < 1000 * s.travelLimit) :
    exec .gateTravelComplete s = .next s := by
  show execGateTravelComplete s = _
  rw [execGateTravelComplete, if_neg (by simp [State.travelDue, run]; omega)]

theorem exec_travel_complete {n : Nat} {s : State} (run : s.travel = .running n) (due : 1000 * s.travelLimit ≤ n) :
    exec .gateTravelComplete s = .next (settleGate (arrived s)) := by
  show execGateTravelComplete s = _
  rw [execGateTravelComplete, if_pos (by simp [State.travelDue, run, due])]
  rfl

theorem gate_atTarget (s : State) (v : Int) : s.atTarget gate v = true ↔ (s.lane gate).command = some v := by
  unfold State.atTarget toCommand
  rw [if_pos (show kindOf gate = .gate from rfl)]
  simp

section
variable {h : Handle} {o : Order} {s : State} (gov : (s.lane gate).gov = some h) (live : s.order? h = some o)
include gov live

theorem arrived_settles : (arrived s).gateSettles = some h ↔
    ((s.lane gate).state = .driven ∧ o.settled = false ∧ (s.lane gate).command = some o.target) := by
  rw [gateSettles_iff]
  constructor
  · rintro ⟨p, -, live', st, unsettled, -, at'⟩
    obtain rfl : o = p := Option.some.inj (live.symm.trans live')
    exact ⟨st, unsettled, (gate_atTarget s _).1 at'⟩
  · rintro ⟨st, unsettled, at'⟩
    exact ⟨o, gov, live, st, unsettled, rfl, (gate_atTarget s _).2 at'⟩

theorem arrived_unsettled (not : ¬ ((s.lane gate).state = .driven ∧ o.settled = false ∧
    (s.lane gate).command = some o.target)) : (arrived s).gateSettles = none := by
  cases e : (arrived s).gateSettles with
  | none => rfl
  | some k =>
    obtain ⟨p, gov', -⟩ := gateSettles_iff.1 e
    obtain rfl : h = k := Option.some.inj (gov.symm.trans gov')
    exact absurd ((arrived_settles gov live).1 e) not

omit live in
/-- The settled order does not settle again. -/
theorem settled_gateSettles :
    ((arrived s).updOrder h.slot fun o => { o with settled := true }).gateSettles = none := by
  cases e : ((arrived s).updOrder h.slot fun o => { o with settled := true }).gateSettles with
  | none => rfl
  | some k =>
    obtain ⟨p, gov', live', -, unsettled, -⟩ := gateSettles_iff.1 e
    obtain rfl : h = k := Option.some.inj (gov.symm.trans (settled_lane h (arrived s) gate ▸ gov'))
    rw [order?_updOrder, if_pos rfl] at live'
    obtain ⟨q, -, rfl⟩ := Option.map_eq_some_iff.1 live'
    cases unsettled

end

/-- What the settle of the GATE's order by the travel timer has for its premises, dependents on other lanes alone. -/
structure GateArrives (h : Handle) (o : Order) (s : State) : Prop where
  gov : (s.lane gate).gov = some h
  live : s.order? h = some o
  driven : (s.lane gate).state = .driven
  unsettled : o.settled = false
  arrived : (s.lane gate).command = some o.target
  elsewhere : ∀ i d, s.orderAt i = some d → s.waitsOn i h = true → d.actuator ≠ gate
  law : LaneLaw s

namespace GateArrives

variable {h : Handle} {o : Order} {s : State}

theorem onGate (x : GateArrives h o s) : o.actuator = gate ∧ o.state = .governing := by
  obtain ⟨p, hp, ha, st⟩ := x.law.governs gate h x.gov
  obtain rfl : o = p := Option.some.inj (x.live.symm.trans hp)
  exact ⟨ha, st⟩

theorem settles (x : GateArrives h o s) : settleGate (Machine.arrived s) = settleOrder h (Machine.arrived s) :=
  settleGate_some ((arrived_settles x.gov x.live).2 ⟨x.driven, x.unsettled, x.arrived⟩)

theorem own (x : GateArrives h o s) : NamesOwn (Machine.arrived s) :=
  x.law.namesOwn.mono (arrived_frame s).orders fun _ _ => id

/-- The GATE is held by its order when it is reported. -/
theorem held (x : GateArrives h o s) (f : Handle → State → State) :
    GateHeld h { o with settled := true } s (reported f h (Machine.arrived s)) := by
  obtain ⟨ha, st⟩ := x.onGate
  refine reported_gateHeld (by simp [st]) rfl (order?_eq_some x.live).2 ha
    (fun i w d hd => x.elsewhere i d hd w) ?_
  have slot : (Machine.arrived s).slot h.slot = ⟨h.gen, some o⟩ := order?_slot x.live
  exact {
    order := by rw [slot_updOrder, if_pos rfl, State.orderAt, slot]; rfl
    travel := by simp [Machine.arrived]
    state := by rw [settled_lane]; exact x.driven
    gov := by rw [settled_lane]; exact x.gov
    command := by rw [settled_lane]; exact x.arrived
    positions := fun c k hk => by rwa [settled_lane] at hk
    own := x.own.mono (settled_frame h _).orders (settled_names h _)
    kept := ((arrived_frame s).trans (settled_frame h _)).orders
    waits := settled_waits h (Machine.arrived s) }

theorem releases (x : GateArrives h o s) {i : Slot} {d : Order} (hd : s.orderAt i = some d)
    (w : s.waitsOn i h = true) (bare : d.guards = []) :
    ∃ d', (settleOrder h (Machine.arrived s)).orderAt i = some d' ∧ d.kept d' ∧
      (d'.state = .pending ∨ d'.state = .governing) ∧
      ((settleOrder h (Machine.arrived s)).slot i).gen = (s.slot i).gen := by
  obtain ⟨p, hp, wait, pre⟩ := waitsOn_iff.1 w
  obtain rfl : d = p := Option.some.inj (hd.symm.trans hp)
  exact settleOrder_releases (s := Machine.arrived s) x.live (by simp [x.onGate.2]) hd wait pre bare
    (.inr ⟨x.elsewhere i d hd w, x.own⟩)

theorem quietBehind (x : GateArrives h o s)
    (unguarded : ∀ i d, s.orderAt i = some d → s.waitsOn i h = true → d.guards = []) :
    QuietBehind h (Machine.arrived s) :=
  fun i d hd w => ⟨unguarded i d hd w, fun e => absurd e (x.elsewhere i d hd w)⟩

/-- A STANDING order settles: the report, with its releases, is all. -/
theorem standing (x : GateArrives h o s) (standing : o.completion = .standing) :
    settleOrder h (Machine.arrived s) = reported (settleFor 80) h (Machine.arrived s) := by
  rw [settleOrder_eq, settleBy_eq, order?_of_live (x.held (settleFor 80)).order]
  exact if_neg (by simp [standing])

theorem standing_quiet (x : GateArrives h o s)
    (unguarded : ∀ i d, s.orderAt i = some d → s.waitsOn i h = true → d.guards = []) :
    (reported (settleFor 80) h (Machine.arrived s)).lane gate = s.lane gate ∧
      (reported (settleFor 80) h (Machine.arrived s)).txQueue = s.txQueue := by
  have quiet := reported_quiet (f := settleFor 80) x.own (x.quietBehind unguarded) (settled_gateSettles x.gov)
  refine ⟨?_, quiet.queue.trans (by simp [Machine.arrived])⟩
  rcases quiet.gate with ⟨run, -⟩ | alike
  · exact absurd (by simp [Machine.arrived]) run
  · exact alike.lane.trans (settled_lane h _ gate)

theorem rests (x : GateArrives h o s) (completes : o.completion = .settle)
    (only : ∀ d k, (s.lane gate).orderSet.get d = some k → k = h) :
    ((settleOrder h (Machine.arrived s)).lane gate).state = .rest ∧
      ((settleOrder h (Machine.arrived s)).lane gate).gov = none ∧
      ((settleOrder h (Machine.arrived s)).lane gate).command = some 0 ∧
      (settleOrder h (Machine.arrived s)).travel = if o.target = 0 then .complete else .running 0 := by
  obtain ⟨ha, st⟩ := x.onGate
  have held := x.held (settleFor 80)
  have rest := retireOne_rests (c := .completed) held.order ha (by simp [st]) held.state held.gov fun d k hk => by
    have hk := held.positions d k hk
    have same := only d k hk
    rw [same] at hk
    obtain ⟨p, hp, -, cls⟩ := x.law.positions gate d h hk
    obtain rfl : o = p := Option.some.inj (x.live.symm.trans hp)
    exact ⟨same, cls.symm⟩
  rw [settleOrder_completes held.order completes rest]
  refine ⟨rest.state, rest.gov, rest.command, ?_⟩
  rw [rest.travel, held.command, held.travel]
  simp

end GateArrives

/-- Settles O32. -/
theorem gateTravelCompletionSettlesTheGate : Obligations.GateTravelCompletionSettlesTheGate := by
  intro n s run c u
  refine ⟨exec_travel_running run, fun due ungoverned => ?_, ?_⟩
  · have none : (arrived s).gateSettles = none := gateSettles_ungoverned ungoverned
    rw [exec_travel_complete run due, settleGate_none none]
    rfl
  intro h o due gov live settles elsewhere unguarded released
  refine ⟨fun not => ?_, fun yes standing none => ?_, fun yes standing away law => ?_, fun yes completes away law => ?_⟩
  · rw [exec_travel_complete run due, settleGate_none (arrived_unsettled gov live not)]
    rfl
  · have live' : (arrived s).order? h = some o := live
    rw [exec_travel_complete run due, settleGate_some ((arrived_settles gov live).2 yes),
      settleOrder_standing live' standing none, updOrder_eq live']
    rfl
  · have x : GateArrives h o s := ⟨gov, live, yes.1, yes.2.1, yes.2.2, away, law⟩
    have held := x.held (settleFor 80)
    have releases := fun i d hd w bare => x.releases (i := i) (d := d) hd w bare
    rw [x.standing standing] at releases
    refine ⟨_, by rw [exec_travel_complete run due, x.settles, x.standing standing], order?_of_live held.order, held.travel,
      held.state, held.gov, held.command, releases, x.standing_quiet,
      (arrived_frame s).trans (reported_frame (settleFor_frame 80) h _)⟩
  · have x : GateArrives h o s := ⟨gov, live, yes.1, yes.2.1, yes.2.2, away, law⟩
    refine ⟨_, by rw [exec_travel_complete run due, x.settles], settleOrder_ends (s := arrived s) live completes,
      fun i d hd w bare => x.releases hd w bare, fun bare => ?_, x.rests completes,
      (arrived_frame s).trans (settleOrder_frame h _)⟩
    have first := settleOrder_first (s := arrived s) live completes x.own (x.quietBehind bare)
      (settled_gateSettles gov)
    rw [x.onGate.1] at first
    exact first

end Sys2Proof.Machine
end

section
/-! PLACE and ISSUE past their checks: the order they let through is placed (R14, R15, R157, R158). -/

namespace Sys2Proof.Machine

/-! ### The values of the fields -/

theorem bind_ok {α β : Type} {e : Except Code α} {x : α} (h : e = .ok x) (k : α → Except Code β) : (e >>= k) = k x := by
  rw [h]; rfl

theorem rampField_ok {a : Actuator} {n : Nat} (h : n ≤ maxRamp a) :
    rampField a n = .ok (if n = 0 then none else some n) := by
  unfold rampField
  split
  · rfl
  · next positive =>
    have gate : kindOf a ≠ .gate := by
      intro g
      rw [maxRamp, g] at h
      exact positive (Nat.le_zero.1 h)
    simp [gate]

theorem prereqField_form (pre : Option Handle) : prereqField (prereqForm pre) = .ok pre := by
  cases pre with
  | none => rfl
  | some q =>
    have names : HandleForm.isNone ⟨q.slot.val, q.gen⟩ = false := by
      have := q.slot.isLt
      simp [HandleForm.isNone]
      omega
    unfold prereqField prereqForm
    rw [names, handleField_handle]
    rfl

theorem guardField_form {g : Guard} (allowed : guardAllowed g) : guardField (guardForm g) = .ok g := by
  obtain ⟨range, step, most⟩ := allowed
  unfold guardField guardForm
  rw [bind_ok (pointField_val g.point), range, decide_eq_true step, decide_eq_true most]
  rfl

theorem guardFields_form : ∀ {gs : List Guard}, (∀ g ∈ gs, guardAllowed g) → guardFields (gs.map guardForm) = .ok gs
  | [], _ => rfl
  | g :: gs, allowed => by
    rw [List.map_cons, guardFields, guardField_form (allowed g (by simp)),
      guardFields_form fun g hg => allowed g (List.mem_cons_of_mem _ hg)]
    rfl

theorem checkPosition_ok {s : State} {a : Actuator} {c : Cls} {pre : Option Handle} (up : (s.lane a).state ≠ .down)
    (accepted : s.prereqOk a c pre = true) (room : s.hasRoom a c = true) : checkPosition s a c pre = .ok () := by
  unfold checkPosition
  rw [decide_eq_true up, accepted, room]
  rfl

/-! ### What is placed -/

theorem guardBytes_length (g : GuardForm) : (guardBytes g).length = 7 := rfl

theorem guardBytes_flatMap_length (gs : List GuardForm) : (gs.flatMap guardBytes).length = 7 * gs.length := by
  induction gs with
  | nil => rfl
  | cons g gs ih =>
    rw [List.flatMap_cons, List.length_append, ih, guardBytes_length, List.length_cons]
    omega

theorem placeBody_length {f : PlaceForm} (fits : placeFits f) : (placeBody f).length ≤ 120 := by
  obtain ⟨-, -, -, -, -, two, -⟩ := fits
  have rest : (placeBody f).length = 12 + (f.guards.flatMap guardBytes).length := by
    unfold placeBody handleBytes putByte putS16 putU16
    cases f.tethered <;> simp [putFlag] <;> omega
  rw [rest, guardBytes_flatMap_length]
  omega

/-- A placement the checks let through is answered from `placed`. -/
def Places (c : Instr) (kind : Byte) (r : Req) (o : Order) (s : State) : Prop :=
  s.prereqOk o.actuator o.cls o.prereq = true → s.hasRoom o.actuator o.cls = true →
    exec c s = .next (answered kind r (placed o (received s)).code (placed o (received s)).body (placed o (received s)).st)

theorem prereqOk_received (s : State) (a : Actuator) (c : Cls) (pre : Option Handle) :
    (received s).prereqOk a c pre = s.prereqOk a c pre := by
  simp only [State.prereqOk, waitsThrough_received, received_leaves]

theorem checkPlace_ok {s : State} {c : Cls} {f : PlaceForm} {a : Actuator} {pre : Option Handle} {gs : List Guard}
    (actuator : f.actuator = a.val) (prereq : f.prereq = prereqForm pre) (guards : f.guards = gs.map guardForm)
    (allowed : ∀ g ∈ gs, guardAllowed g) (may : applicable c a = true)
    (target : inRange ((s.lane a).lo, (s.lane a).hi) f.target = true) (ramp : f.ramp ≤ maxRamp a) (lease : f.lease ≤ 3600)
    (up : (s.lane a).state ≠ .down) (accepted : s.prereqOk a c pre = true) (room : s.hasRoom a c = true) :
    checkPlace s c f = .ok (newOrder c a f.target (if f.ramp = 0 then none else some f.ramp) f.completion pre gs
      (if f.lease = 0 then none else some f.lease) f.tethered none none) := by
  have inLimits : targetField s a f.target = .ok () := by rw [targetField, targetOk, target]; rfl
  unfold checkPlace
  rw [actuator, actuatorField_val, bind_ok rfl, may, require_true, bind_ok rfl, inLimits, bind_ok rfl, rampField_ok ramp,
    bind_ok rfl, prereq, prereqField_form, bind_ok rfl, leaseField_le lease, bind_ok rfl, guards, guardFields_form allowed,
    bind_ok rfl, checkPosition_ok up accepted room, bind_ok rfl]

theorem places_place {f : PlaceForm} {a : Actuator} {pre : Option Handle} {gs : List Guard} {o : Origin} {tag : Word}
    {s : State} (fits : placeFits f) (actuator : f.actuator = a.val) (prereq : f.prereq = prereqForm pre)
    (guards : f.guards = gs.map guardForm) (allowed : ∀ g ∈ gs, guardAllowed g) (run : s.mode = .run)
    (may : applicable (classOf o) a = true) (target : inRange ((s.lane a).lo, (s.lane a).hi) f.target = true)
    (ramp : f.ramp ≤ maxRamp a) (lease : f.lease ≤ 3600) (up : (s.lane a).state ≠ .down) :
    Places (.place ⟨o, tag, placeBody f⟩) 0x10 ⟨o, tag, placeBody f⟩
      (newOrder (classOf o) a f.target (if f.ramp = 0 then none else some f.ramp) f.completion pre gs
        (if f.lease = 0 then none else some f.lease) f.tethered none none) s := by
  intro accepted room
  have ok := checkPlace_ok (s := received s) actuator prereq guards allowed may target ramp lease up
    ((prereqOk_received s a (classOf o) pre).trans accepted) room
  show execPlace _ s = _
  unfold execPlace
  rw [request_eq (placeBody_length fits), inRun_run (s := received s) run, formPlace_placeBody f fits, formed_some, ok,
    checked_ok]

theorem checkIssue_ok {s : State} {c : Cls} {f : IssueForm} {x : TemplateIx} {m : Template} {pre : Option Handle}
    (index : f.index = x.val) (prereq : f.prereq = prereqForm pre) (filled : s.template x = some m)
    (may : applicable c m.actuator = true)
    (target : inRange ((s.lane m.actuator).lo, (s.lane m.actuator).hi) (f.target.getD m.target) = true)
    (up : (s.lane m.actuator).state ≠ .down) (accepted : s.prereqOk m.actuator c pre = true)
    (room : s.hasRoom m.actuator c = true) :
    checkIssue s c f = .ok (newOrder c m.actuator (f.target.getD m.target) m.ramp m.completion pre m.guards m.lease
      m.tethered none (some x)) := by
  have inLimits : targetField s m.actuator (f.target.getD m.target) = .ok () := by
    rw [targetField, targetOk, target]; rfl
  unfold checkIssue
  rw [index, templateField_val, bind_ok rfl]
  simp only [filled]
  rw [may, require_true, bind_ok rfl, inLimits, bind_ok rfl, prereq, prereqField_form, bind_ok rfl,
    checkPosition_ok up accepted room, bind_ok rfl]

theorem issueBody_length (f : IssueForm) : (issueBody f).length = 6 := by
  unfold issueBody
  cases f.target <;> rfl

theorem prereqForm_slot (pre : Option Handle) : (prereqForm pre).slot < 256 := by
  cases pre with
  | none => exact Nat.lt_of_sub_eq_succ rfl
  | some q =>
    have := q.slot.isLt
    show q.slot.val < 256
    omega

theorem places_issue {f : IssueForm} {x : TemplateIx} {m : Template} {pre : Option Handle} {o : Origin} {tag : Word}
    {s : State} (fits : fits16 (f.target.getD 0)) (index : f.index = x.val) (prereq : f.prereq = prereqForm pre)
    (filled : s.template x = some m) (run : s.mode = .run) (may : applicable (classOf o) m.actuator = true)
    (target : inRange ((s.lane m.actuator).lo, (s.lane m.actuator).hi) (f.target.getD m.target) = true)
    (up : (s.lane m.actuator).state ≠ .down) :
    Places (.issue ⟨o, tag, issueBody f⟩) 0x11 ⟨o, tag, issueBody f⟩
      (newOrder (classOf o) m.actuator (f.target.getD m.target) m.ramp m.completion pre m.guards m.lease m.tethered none
        (some x)) s := by
  intro accepted room
  have small : f.index < 256 := by
    have := x.isLt
    omega
  have form := formIssue_issueBody f small (prereq ▸ prereqForm_slot pre) fits
  have ok := checkIssue_ok (s := received s) index prereq filled may target up
    ((prereqOk_received s m.actuator (classOf o) pre).trans accepted) room
  show execIssue _ s = _
  unfold execIssue
  rw [request_eq (by rw [issueBody_length]; omega), inRun_run (s := received s) run, form, formed_some, ok, checked_ok]

end Sys2Proof.Machine
end

section
/-! The arming of a new order's guards before it reaches its lane (R77). -/

namespace Sys2Proof.Machine

theorem violated_iff (s : State) (g : Guard) : violated s g = true ↔ ¬ guardMet s g := by
  unfold violated guardMet
  split
  · next v valid value =>
    simp only [valid, value, Option.some.injEq, exists_eq_left', true_and]
    cases g.relation <;> simp [relationHolds]
  · next other =>
    simp only [true_iff]
    rintro ⟨valid, v, value, -⟩
    exact other v valid value

theorem setSlot_self {s : State} {i : Slot} {x : SlotState} (h : s.slot i = x) : s.setSlot i x = s := by
  subst h
  simp [State.setSlot, State.slot]

theorem violated_setSlot (s : State) (i : Slot) (x : SlotState) (g : Guard) :
    violated (s.setSlot i x) g = violated s g := rfl

theorem tripsAtOnce_setSlot (s : State) (i : Slot) (x : SlotState) (g : Guard) :
    tripsAtOnce (s.setSlot i x) g ↔ tripsAtOnce s g := Iff.rfl

/-- The condition a guard that does not trip at once takes. -/
def armCond (s : State) (g : Guard) : Cond :=
  if violated s g then if g.dwell = 0 then .active else .timing 0 else .satisfied

/-- A guard entry as it is armed. -/
def armEntry (s : State) (e : GuardEntry) : GuardEntry := { e with cond := armCond s e.guard }

theorem armedAs_armCond {s : State} {g : Guard} (stays : ¬ tripsAtOnce s g) : armedAs s g (armCond s g) := by
  unfold armCond
  by_cases bad : violated s g
  · have unmet := (violated_iff s g).1 bad
    rw [if_pos bad]
    split
    · next zero =>
      cases act : g.action with
      | retire => exact absurd ⟨unmet, zero, act⟩ stays
      | freeze => exact .inr (.inr ⟨unmet, zero, act, rfl⟩)
    · next positive => exact .inr (.inl ⟨unmet, Nat.pos_of_ne_zero positive, rfl⟩)
  · rw [if_neg bad]
    exact .inl ⟨not_not.1 fun unmet => bad ((violated_iff s g).2 unmet), rfl⟩

section
variable {g : Nat} {h : Handle} {s : State} {o : Order} (live : s.order? h = some o)
include live

theorem armGuard_absent (he : o.guards[g]? = none) : armGuard g h s = s := by
  simp only [armGuard, live, he]

theorem armGuard_stays {e : GuardEntry} (he : o.guards[g]? = some e) (stays : ¬ tripsAtOnce s e.guard) :
    armGuard g h s =
      s.setSlot h.slot ⟨h.gen, some { o with guards := o.guards.modify g fun e => armEntry s e }⟩ := by
  have write : ∀ c, c = armCond s e.guard → setCond h g c s =
      s.setSlot h.slot ⟨h.gen, some { o with guards := o.guards.modify g fun e => armEntry s e }⟩ := by
    rintro c rfl
    have inRange : ∃ lt : g < o.guards.length, o.guards[g] = e := List.getElem?_eq_some_iff.1 he
    rw [setCond, updOrder_eq live]
    congr 4
    refine List.ext_getElem? fun k => ?_
    rw [List.getElem?_modify, List.getElem?_modify]
    by_cases same : g = k
    · subst same; simp [he, armEntry]
    · simp [same]
  simp only [armGuard, live, he]
  by_cases bad : violated s e.guard
  · rw [if_pos bad]
    split
    · next zero =>
      cases act : e.guard.action with
      | retire => exact absurd ⟨(violated_iff s _).1 bad, zero, act⟩ stays
      | freeze => exact write _ (by simp [armCond, bad, zero])
    · next positive => exact write _ (by simp [armCond, bad, positive])
  · rw [if_neg bad]
    exact write _ (by simp [armCond, bad])

theorem armGuard_trips {e : GuardEntry} (he : o.guards[g]? = some e) (trips : tripsAtOnce s e.guard) :
    armGuard g h s = retireCore false h.slot .guardTrip s := by
  obtain ⟨unmet, zero, act⟩ := trips
  simp only [armGuard, live, he, (violated_iff s _).2 unmet, zero, act, if_true]

/-- Guards none of which trips at once: each takes its condition, and nothing else changes. -/
theorem armGuards_stay (two : o.guards.length ≤ 2) (stays : ∀ e ∈ o.guards, ¬ tripsAtOnce s e.guard) :
    armGuards h s = s.setSlot h.slot ⟨h.gen, some { o with guards := o.guards.map (armEntry s) }⟩ := by
  unfold armGuards
  rcases shape : o.guards with _ | ⟨e, _ | ⟨e', _ | ⟨e'', rest⟩⟩⟩
  · rw [armGuard_absent live (by simp [shape]), armGuard_absent live (by simp [shape])]
    rw [List.map_nil, ← shape]
    exact (setSlot_self (order?_slot live)).symm
  · rw [armGuard_stays live (by simp [shape]) (stays e (by simp [shape])),
      armGuard_absent (order?_setSlot _ _ _) (by simp [shape])]
    simp [shape]
  · rw [armGuard_stays live (e := e) (by simp [shape]) (stays e (by simp [shape])),
      armGuard_stays (e := e') (order?_setSlot _ _ _) (by simp [shape])
        (by rw [tripsAtOnce_setSlot]; exact stays e' (by simp [shape])), setSlot_setSlot]
    simp [shape, armEntry, armCond, violated_setSlot]
  · rw [shape] at two
    simp at two

/-- A guard that trips as it is armed: the order has retired, its notice first. -/
theorem armGuards_trip (two : o.guards.length ≤ 2) (trips : ∃ e ∈ o.guards, tripsAtOnce s e.guard) :
    (armGuards h s).slot h.slot = ⟨h.gen + 1, none⟩ ∧
      firstNotice s (armGuards h s) (addressee o.cls) (.retired h o.actuator .guardTrip) := by
  have retired : ∀ {u : State} {p : Order}, u.order? h = some p → p.cls = o.cls → p.actuator = o.actuator →
      u.txQueue = s.txQueue → (retireCore false h.slot .guardTrip u).slot h.slot = ⟨h.gen + 1, none⟩ ∧
        firstNotice s (retireCore false h.slot .guardTrip u) (addressee o.cls) (.retired h o.actuator .guardTrip) := by
    intro u p hp cls act queue
    obtain ⟨hh, at'⟩ := order?_eq_some hp
    have slot := retireCore_self (lane := false) (c := .guardTrip) at'
    have first := retireCore_first (lane := false) (c := .guardTrip) at' (by simp)
    rw [order?_slot hp] at slot
    rw [hh, cls, act] at first
    unfold firstNotice State.noticeCount at first ⊢
    rw [queue] at first
    exact ⟨slot, first⟩
  have done : ∀ {u : State}, u.slot h.slot = ⟨h.gen + 1, none⟩ → armGuard 1 h u = u := by
    intro u slot
    have dead : u.order? h = none := by simp [State.order?, slot]
    simp only [armGuard, dead]
  unfold armGuards
  rcases shape : o.guards with _ | ⟨e, rest⟩
  · simp [shape] at trips
  · by_cases first : tripsAtOnce s e.guard
    · have gone := retired live rfl rfl rfl
      rw [armGuard_trips live (e := e) (by simp [shape]) first, done gone.1]
      exact gone
    · rw [armGuard_stays live (e := e) (by simp [shape]) first]
      rcases rest with _ | ⟨e', _ | ⟨e'', rest⟩⟩
      · simp [shape, first] at trips
      · have second : tripsAtOnce s e'.guard := by simpa [shape, first] using trips
        rw [armGuard_trips (e := e') (order?_setSlot _ _ _) (by simp [shape]) (by rwa [tripsAtOnce_setSlot])]
        exact retired (order?_setSlot _ _ _) rfl rfl rfl
      · rw [shape] at two
        simp at two

end

end Sys2Proof.Machine
end

section
/-! A new order on its lane: the record in its slot and its position, the resolution, and what may settle on the GATE
(R10, R36, R38). -/

namespace Sys2Proof.Machine

/-! ### A slot to take -/

/-- The slot is free, no lane names the handle its next order takes, and lanes name their own orders. -/
structure Takes (i : Slot) (s : State) : Prop where
  free : s.orderAt i = none
  own : NamesOwn s
  unnamed : ∀ a, ¬ s.names a (s.handleAt i)

theorem LaneLaw.named_live {s : State} (law : LaneLaw s) {a : Actuator} {h : Handle} (n : s.names a h) :
    ∃ o, s.order? h = some o ∧ o.actuator = a := by
  rcases n with n | ⟨c, n⟩
  · obtain ⟨o, ho, ha, -⟩ := law.governs a h n
    exact ⟨o, ho, ha⟩
  · obtain ⟨o, ho, ha, -⟩ := law.positions a c h n
    exact ⟨o, ho, ha⟩

theorem LaneLaw.takes {s : State} (law : LaneLaw s) {i : Slot} (free : s.orderAt i = none) : Takes i s where
  free := free
  own := law.namesOwn
  unnamed a n := by
    obtain ⟨o, ho, -⟩ := law.named_live n
    rw [order?_handleAt, free] at ho; cases ho

/-- The order `p` in slot `i` and in its lane's position. -/
def seated (p : Order) (i : Slot) (s : State) : State :=
  (s.setSlot i ⟨(s.slot i).gen, some p⟩).updLane p.actuator fun l =>
    { l with orderSet := l.orderSet.set p.cls (some (s.handleAt i)) }

section
variable {p : Order} {i : Slot} {s : State}

theorem seated_slot (j : Slot) : (seated p i s).slot j = if j = i then ⟨(s.slot i).gen, some p⟩ else s.slot j := by
  rw [seated, slot_of_slots (updLane_leaves _ _ _).2.1, slot_setSlot]

theorem seated_order? : (seated p i s).order? (s.handleAt i) = some p :=
  order?_of_live (by rw [seated_slot]; exact if_pos rfl)

theorem seated_lane (a : Actuator) : (seated p i s).lane a = if a = p.actuator then
    { s.lane a with orderSet := (s.lane a).orderSet.set p.cls (some (s.handleAt i)) } else s.lane a := by
  rw [seated, lane_updLane]
  split
  · next same => subst same; rfl
  · rfl

theorem seated_handleAt (j : Slot) : (seated p i s).handleAt j = s.handleAt j := by
  refine handleAt_of_gen ?_
  rw [seated_slot]
  split
  · next same => rw [same]
  · rfl

theorem seated_position : ((seated p i s).lane p.actuator).orderSet.get p.cls = some (s.handleAt i) := by
  rw [seated_lane, if_pos rfl, PerClass.get_set, if_pos rfl]

theorem seated_names {a : Actuator} {h : Handle} (n : (seated p i s).names a h) :
    s.names a h ∨ (a = p.actuator ∧ h = s.handleAt i) := by
  unfold State.names at n
  rw [seated_lane] at n
  split at n
  · next same =>
    rcases n with n | ⟨c, n⟩
    · exact .inl (.inl n)
    · rw [PerClass.get_set] at n
      split at n
      · exact .inr ⟨same, (Option.some.inj n).symm⟩
      · exact .inl (.inr ⟨c, n⟩)
  · exact .inl n

theorem seated_waitsOn (acts : p.state ≠ .waiting) {j : Slot} {h : Handle} (w : (seated p i s).waitsOn j h = true) :
    s.waitsOn j h = true := by
  obtain ⟨q, hq, st, pre⟩ := waitsOn_iff.1 w
  rw [State.orderAt, seated_slot] at hq
  split at hq
  · cases hq
    exact absurd st acts
  · exact waitsOn_iff.2 ⟨q, hq, st, pre⟩

/-- An order a lane of `s` named is one of `s`. -/
theorem Takes.back (x : Takes i s) {a : Actuator} {h : Handle} {o : Order} (n : s.names a h)
    (live : (seated p i s).order? h = some o) : h.slot ≠ i ∧ s.order? h = some o := by
  have apart : h.slot ≠ i := by
    rintro rfl
    obtain ⟨hh, -⟩ := order?_eq_some live
    rw [seated_handleAt] at hh
    exact x.unnamed a (hh ▸ n)
  have slot : (seated p i s).slot h.slot = s.slot h.slot := by rw [seated_slot, if_neg apart]
  exact ⟨apart, by rw [← live, order?_of_slot slot]⟩

theorem Takes.seated_own (x : Takes i s) : NamesOwn (seated p i s) := by
  intro a h o n live
  rcases seated_names n with n | ⟨ha, rfl⟩
  · exact x.own a h o n (x.back n live).2
  · rw [seated_order?] at live
    cases live
    exact ha.symm

/-- A new order lets nothing settle by being recorded. -/
theorem Takes.seated_settles (x : Takes i s) (quiet : s.gateSettles = none) : (seated p i s).gateSettles = none := by
  cases e : (seated p i s).gateSettles with
  | none => rfl
  | some h =>
    obtain ⟨o, gov, live, st, unsettled, complete, at'⟩ := gateSettles_iff.1 e
    have same : ((seated p i s).lane gate).gov = (s.lane gate).gov ∧
        ((seated p i s).lane gate).state = (s.lane gate).state ∧
        ((seated p i s).lane gate).command = (s.lane gate).command := by
      rw [seated_lane]
      split <;> exact ⟨rfl, rfl, rfl⟩
    obtain ⟨sameGov, sameState, sameCommand⟩ := same
    have before : s.gateSettles = some h := by
      rw [sameGov] at gov
      refine gateSettles_iff.2 ⟨o, gov, (x.back (.inl gov) live).2, sameState ▸ st, unsettled, complete, ?_⟩
      rw [State.atTarget, sameCommand] at at'
      exact at'
    rw [quiet] at before; cases before

theorem Takes.seated_stays (x : Takes i s) : OrdersStay s (seated p i s) fun _ => false := by
  intro j o _ ho
  have apart : j ≠ i := by
    rintro rfl
    rw [x.free] at ho; cases ho
  have slot : (seated p i s).slot j = s.slot j := by rw [seated_slot, if_neg apart]
  exact ⟨o, by rw [State.orderAt, slot]; exact ho, o.kept_refl, by rw [slot]⟩

theorem seated_quiet (acts : p.state ≠ .waiting) (whole : p.actuator = gate → p.completion = .standing)
    (quiet : gateQuiet s) (none : ∀ k, s.waitsOn k (s.handleAt i) = false) : gateQuiet (seated p i s) := by
  refine quiet.imp id fun still j q hq onGate => ?_
  have unawaited : ∀ h, (∀ k, s.waitsOn k h = false) → ∀ k, (seated p i s).waitsOn k h = false := fun h none k =>
    Bool.eq_false_iff.2 fun w => by
      have before := seated_waitsOn acts w
      rw [none k] at before; cases before
  rw [seated_handleAt]
  rw [State.orderAt, seated_slot] at hq
  split at hq
  · next same =>
    cases hq
    exact ⟨whole onGate, unawaited _ (same ▸ none)⟩
  · obtain ⟨standing, none⟩ := still j q hq onGate
    exact ⟨standing, unawaited _ none⟩

end

/-! ### What the engine leaves of a position -/

theorem resolve_orderSet (a b : Actuator) (s : State) : ((resolve a s).lane b).orderSet = (s.lane b).orderSet := by
  by_cases same : b = a
  · subst same; exact (resolve_resolves b s).orderSet
  · rw [(resolve_resolves a s).lanes b same]

theorem dropFromLane_position {a b : Actuator} {c d : Cls} {h k : Handle} {s : State} (apart : k ≠ h)
    (pos : (s.lane b).orderSet.get c = some k) : ((dropFromLane a d h s).lane b).orderSet.get c = some k := by
  rw [dropFromLane, lane_updLane]
  split
  · next same =>
    subst same
    dsimp only
    split
    · next held =>
      rw [PerClass.get_set, if_neg, pos]
      rintro rfl
      exact apart (Option.some.inj (pos.symm.trans held))
    · exact pos
  · exact pos

theorem updOrder_lane (s : State) (i : Slot) (f : Order → Order) (a : Actuator) : (s.updOrder i f).lane a = s.lane a :=
  lane_of_lanes (by simp) a

/-- A position is lost with its order alone. -/
theorem retireOne_position {lane : Bool} {i : Slot} {x : Cause} {s : State} {b : Actuator} {c : Cls} {k : Handle}
    (apart : k.slot ≠ i) (pos : (s.lane b).orderSet.get c = some k) :
    ((retireOne lane i x s).lane b).orderSet.get c = some k := by
  cases ho : s.orderAt i with
  | none => rwa [retireOne_dead ho]
  | some o =>
    have drop := dropFromLane_position (a := o.actuator) (d := o.cls) (h := s.handleAt i)
      (fun e => apart (congrArg Handle.slot e)) pos
    rw [retireOne_live ho, lane_of_lanes (freeSlot_leaves _ _ _ _ _).2.1, leaveLane]
    split
    · rwa [resolve_orderSet]
    · exact drop

/-- The order `o` is live under `h`, acts, cannot complete, and stands in its position. -/
def Seated (h : Handle) (o : Order) (s : State) : Prop :=
  (Stays h o s ∧ Incomplete o s) ∧ (s.lane o.actuator).orderSet.get o.cls = some h

theorem seated_engine (h : Handle) (o : Order) : EngineKeeps (Seated h o)
    (fun k => k ≠ h ∨ o.completion = .standing) (fun i => i ≠ h.slot) :=
  have K := stays_engine h o
  { resolved := fun ⟨x, pos⟩ w live => ⟨K.resolved x w live, by rwa [resolve_orderSet]⟩
    lose := fun ⟨x, pos⟩ w dead => ⟨K.lose x w dead, retireOne_position (x.1.not_waiting w).symm pos⟩
    cond := fun g c ⟨x, pos⟩ w => ⟨K.cond g c x w, by rwa [setCond, updOrder_lane]⟩
    trip := fun ⟨x, pos⟩ w live he bad zero act =>
      ⟨K.trip x w live he bad zero act, retireOne_position (Ne.symm w) pos⟩
    ready := fun ⟨x, pos⟩ w wait => ⟨K.ready x w wait, by rwa [readied, updOrder_lane]⟩
    waits := fun ⟨x, _⟩ q w => K.waits x q w
    settles := fun ⟨x, _⟩ g => K.settles x g
    settled := fun ⟨x, pos⟩ q => ⟨K.settled x q, by rwa [settled_lane]⟩
    complete := fun ⟨x, pos⟩ q live done none => by
      obtain ⟨p, hp, same, -⟩ := x.1
      exact ⟨K.complete x q live done none, retireOne_position (completes_apart hp same q live done) pos⟩ }

/-! ### The order installed -/

/-- The record a new order starts with when it is PENDING and no guard of its trips. -/
def started (o : Order) (s : State) : Order := { o with state := .pending, guards := o.guards.map (armEntry s) }

theorem started_kept (o : Order) (s : State) : o.kept (started o s) := by
  simp [Order.kept, started, armEntry]

theorem started_bare {o : Order} (s : State) (bare : o.guards = []) : started o s = { o with state := .pending } := by
  simp [started, bare]

section
variable {o : Order} {i : Slot} {s : State}

theorem recordOrder_live {h : Handle} {a : Actuator} {c : Cls} {p : Order} (live : s.order? h = some p) :
    recordOrder h a c s = s.updLane a fun l => { l with orderSet := l.orderSet.set c (some h) } :=
  if_pos (by rw [live]; rfl)

theorem entered_started (pending : s.initialState o.prereq = .pending) (two : o.guards.length ≤ 2)
    (stays : ∀ e ∈ o.guards, ¬ tripsAtOnce s e.guard) : entered o i s = seated (started o s) i s := by
  have live := written_self o i s
  rw [pending] at live
  have armed : armedNew o i s = s.setSlot i ⟨(s.slot i).gen, some (started o s)⟩ := by
    rw [armedNew, if_pos pending, armGuards_stay live two stays, written]
    exact setSlot_setSlot _ _ _ _
  have placed : (s.setSlot i ⟨(s.slot i).gen, some (started o s)⟩).order? (s.handleAt i) = some (started o s) :=
    order?_setSlot s (s.handleAt i) _
  rw [entered, armed, recordOrder_live placed]
  rfl

theorem entered_waiting (waiting : s.initialState o.prereq = .waiting) :
    entered o i s = seated { o with state := .waiting } i s := by
  have live := written_self o i s
  have armed : armedNew o i s = written o i s := if_neg (by rw [waiting]; simp)
  rw [entered, armed, recordOrder_live live, written, waiting]
  rfl

theorem installOrder_started {replaced : Bool} (pending : s.initialState o.prereq = .pending) (two : o.guards.length ≤ 2)
    (stays : ∀ e ∈ o.guards, ¬ tripsAtOnce s e.guard) :
    installOrder o i replaced s = settleGate (resolve o.actuator (seated (started o s) i s)) := by
  rw [installOrder_eq, resolvedNew, if_pos (.inl pending), entered_started pending two stays]

/-- A PENDING order that no guard ends and that nothing completes is live after its placement, in its position. -/
theorem Takes.installed (x : Takes i s) {replaced : Bool} (pending : s.initialState o.prereq = .pending)
    (two : o.guards.length ≤ 2) (stays : ∀ e ∈ o.guards, ¬ tripsAtOnce s e.guard)
    (whole : o.actuator = gate → o.completion = .standing) :
    ∃ p, (installOrder o i replaced s).order? (s.handleAt i) = some p ∧ (p.state = .pending ∨ p.state = .governing) ∧
      o.kept p ∧ (∀ e ∈ p.guards, armedAs s e.guard e.cond) ∧
      ((installOrder o i replaced s).lane o.actuator).orderSet.get o.cls = some (s.handleAt i) := by
  have start : Stays (s.handleAt i) (started o s) (seated (started o s) i s) :=
    ⟨_, seated_order?, Order.restands_refl _, by simp [started]⟩
  have cannot : Incomplete (started o s) (seated (started o s) i s) := by
    by_cases onGate : o.actuator = gate
    · exact .inl (whole onGate)
    · exact .inr ⟨onGate, x.seated_own⟩
  have pos : ((seated (started o s) i s).lane o.actuator).orderSet.get o.cls = some (s.handleAt i) := seated_position
  have resolved : Seated (s.handleAt i) (started o s) (resolve o.actuator (seated (started o s) i s)) :=
    ⟨⟨start.restood (resolve_resolves _ _).slots, cannot.engine (resolve_frame _ _).orders (resolve_names _ _)⟩,
      by rw [resolve_orderSet]; exact pos⟩
  obtain ⟨⟨⟨p, hp, same, acts⟩, -⟩, pos⟩ := (seated_engine _ _).settleGate resolved
  rw [installOrder_started pending two stays]
  refine ⟨p, hp, ?_, Order.kept_trans (started_kept o s) (Order.restands_kept same), fun e he => ?_, pos⟩
  · cases e : p.state with
    | pending => exact .inl rfl
    | governing => exact .inr rfl
    | waiting => exact absurd e acts
  · rw [Order.restands_guards same] at he
    obtain ⟨e', he', rfl⟩ := List.mem_map.1 he
    exact armedAs_armCond (stays e' he')

/-- The resolution of another lane leaves the GATE as it was. -/
theorem Takes.resolved_settles (x : Takes i s) {p : Order} (apart : p.actuator ≠ gate) (quiet : s.gateSettles = none) :
    (resolve p.actuator (seated p i s)).gateSettles = none :=
  (resolve_gateAlike x.seated_own apart).settles x.seated_own (resolve_frame _ _).orders (x.seated_settles quiet)

/-- A placement lets no other order go where nothing on the GATE does. -/
theorem Takes.installed_stays (x : Takes i s) {replaced : Bool} (pending : s.initialState o.prereq = .pending)
    (two : o.guards.length ≤ 2) (stays : ∀ e ∈ o.guards, ¬ tripsAtOnce s e.guard)
    (whole : o.actuator = gate → o.completion = .standing) (quiet : s.gateSettles = none)
    (still : o.actuator = gate → gateQuiet s ∧ ∀ k, s.waitsOn k (s.handleAt i) = false) :
    OrdersStay s (installOrder o i replaced s) fun _ => false := by
  have resolves := resolve_resolves o.actuator (seated (started o s) i s)
  have stay : OrdersStay s (resolve o.actuator (seated (started o s) i s)) fun _ => false :=
    x.seated_stays.engine fun j p hp => by
      obtain ⟨q, hq, same⟩ := resolves.slots.live hp
      exact ⟨q, hq, Order.restands_kept same, resolves.slots.gen j⟩
  rw [installOrder_started pending two stays]
  by_cases onGate : o.actuator = gate
  · obtain ⟨quietGate, none⟩ := still onGate
    rcases settleGate_quiet (seated_quiet (p := started o s) (i := i) (by simp [started]) whole quietGate none)
      (x.seated_own.mono (resolve_frame o.actuator _).orders (resolve_names _ _)) (resolve_frame o.actuator _).orders
      resolves.slots.waits resolves.running with e | ⟨k, p, -, e⟩
    · rw [e]; exact stay
    · rw [e]; exact stay.engine (settled_stays k _)
  · have none : (resolve o.actuator (seated (started o s) i s)).gateSettles = none :=
      x.resolved_settles (p := started o s) onGate quiet
    rw [settleGate_none none]
    exact stay

/-- A guard that trips as it is armed ends the placement's own order first of all. -/
theorem installOrder_trips {replaced : Bool} (pending : s.initialState o.prereq = .pending) (two : o.guards.length ≤ 2)
    (trips : ∃ e ∈ o.guards, tripsAtOnce s e.guard) :
    (installOrder o i replaced s).slot i = ⟨(s.slot i).gen + 1, none⟩ ∧
      firstNotice s (installOrder o i replaced s) (addressee o.cls) (.retired (s.handleAt i) o.actuator .guardTrip) := by
  have live := written_self o i s
  rw [pending] at live
  obtain ⟨freed, first⟩ := armGuards_trip live two trips
  have after : EngineFrame (armGuards (s.handleAt i) (written o i s)) (installOrder o i replaced s) := by
    rw [installOrder_eq, resolvedNew, if_pos (.inl pending), entered, armedNew, if_pos pending]
    exact ((recordOrder_frame _ _ _ _).trans (resolve_frame _ _)).trans (settleGate_frame _)
  exact ⟨after.stays_free freed, first.engine after⟩

end

theorem PlaceFrame.final {s t : State} {i : Slot} {o p : Order} (h : PlaceFrame s t i o) (hp : t.orderAt i = some p) :
    PlaceFrame s t i p where
  blocks := h.blocks
  interlocks := h.interlocks
  tables := h.tables
  orders j q hq := by
    refine (h.orders j q hq).imp id fun ⟨same, _⟩ => ⟨same, ?_⟩
    subst same
    obtain rfl : p = q := Option.some.inj (hp.symm.trans hq)
    exact p.kept_refl
  free := h.free

end Sys2Proof.Machine
end

section
/-! The one unmasked order of a lane governs at once (R38, R40, R58, R60). -/

namespace Sys2Proof.Machine

theorem updLane_updLane (s : State) (a : Actuator) (f g : Lane → Lane) :
    (s.updLane a f).updLane a g = s.updLane a fun l => g (f l) := by
  simp [State.updLane, State.lane]

theorem updLane_updOrder (s : State) (a : Actuator) (f : Lane → Lane) (i : Slot) (g : Order → Order) :
    (s.updLane a f).updOrder i g = (s.updOrder i g).updLane a f := by
  simp only [State.updOrder, show (s.updLane a f).orderAt i = s.orderAt i from rfl]
  split <;> rfl

/-- The order `p` governs its lane from slot `i`: what is recorded of it, the command apart. -/
def governed (p : Order) (i : Slot) (s : State) : State :=
  (s.setSlot i ⟨(s.slot i).gen, some { p with state := .governing }⟩).updLane p.actuator fun l =>
    { l with
      orderSet := l.orderSet.set p.cls (some (s.handleAt i)), state := .driven, gov := some (s.handleAt i)
      maskHold := false, guardHold := false, detector := .idle }

/-- A lane that takes part in resolution has no governing order and no other order than one of the class `c`, which is
unmasked. -/
structure Vacant (a : Actuator) (c : Cls) (s : State) : Prop where
  gov : (s.lane a).gov = none
  empty : ∀ d, d ≠ c → (s.lane a).orderSet.get d = none
  listed : c ∈ (s.lane a).precedence
  unmasked : (s.lane a).mask.get c = false
  on : (s.lane a).state ≠ .off
  up : (s.lane a).state ≠ .down

theorem findSome?_only {α β : Type} {f : α → Option β} {x : α} {y : β} (hx : f x = some y) (only : ∀ z, z ≠ x → f z = none) :
    ∀ {l : List α}, x ∈ l → l.findSome? f = some y
  | z :: l, mem => by
    rw [List.findSome?_cons]
    by_cases same : z = x
    · rw [same, hx]
    · rw [only z same]
      exact findSome?_only hx only ((List.mem_cons.1 mem).resolve_left (Ne.symm same))

section
variable {p : Order} {i : Slot} {s : State} (v : Vacant p.actuator p.cls s)
include v

theorem Vacant.candidate (acts : p.state ≠ .waiting) :
    (seated p i s).candidate p.actuator = some (p.cls, s.handleAt i) := by
  have lane := seated_lane (p := p) (i := i) (s := s) p.actuator
  rw [if_pos rfl] at lane
  have eligible : (seated p i s).eligible p.actuator p.cls = some (s.handleAt i) := by
    unfold State.eligible
    rw [seated_position]
    dsimp only
    rw [seated_order?]
    exact if_neg acts
  unfold State.candidate
  refine findSome?_only (x := p.cls) ?_ (fun d other => ?_) (by rw [lane]; exact v.listed)
  · rw [if_neg (by rw [lane]; simp [Lane.masked, v.unmasked]), eligible]
    rfl
  · have none : (seated p i s).eligible p.actuator d = none := by
      unfold State.eligible
      rw [lane]
      dsimp only
      rw [PerClass.get_set, if_neg other, v.empty d other]
    rw [none]
    simp

theorem Vacant.resolve_eq (acts : p.state ≠ .waiting) (bare : p.guards = []) : resolve p.actuator (seated p i s) =
    if p.actuator = gate then gateStep p.target (governed p i s) else governed p i s := by
  have lane := seated_lane (p := p) (i := i) (s := s) p.actuator
  rw [if_pos rfl] at lane
  have ungoverned : (seated p i s).governing p.actuator = none := by
    rw [State.governing, lane]
    dsimp only
    rw [v.gov]
  have yield : resolveYield p.actuator (seated p i s) = seated p i s := by simp only [resolveYield, ungoverned]
  have choice : resolveChoice p.actuator (seated p i s) = promote p.actuator (s.handleAt i) (seated p i s) := by
    simp only [resolveChoice, ungoverned, v.candidate acts]
  have promoted : promote p.actuator (s.handleAt i) (seated p i s) =
      (s.setSlot i ⟨(s.slot i).gen, some { p with state := .governing }⟩).updLane p.actuator fun l =>
        { l with
          orderSet := l.orderSet.set p.cls (some (s.handleAt i)), gov := some (s.handleAt i), detector := .idle } := by
    rw [promote, seated, updLane_updOrder, updLane_updLane]
    exact congrArg (fun t : State => t.updLane p.actuator _) (updOrder_setSlot s i _ p _)
  have governs : (promote p.actuator (s.handleAt i) (seated p i s)).governing p.actuator =
      some (s.handleAt i, { p with state := .governing }) := by
    rw [governing_eq_some, promoted]
    exact ⟨by rw [lane_updLane, if_pos rfl], order?_setSlot s (s.handleAt i) _⟩
  have free : ((promote p.actuator (s.handleAt i) (seated p i s)).lane p.actuator).masked p.cls = false := by
    rw [promoted, lane_updLane, if_pos rfl]
    exact (Bool.and_eq_false_iff).2 (.inr v.unmasked)
  have unfrozen : Order.frozen { p with state := .governing } = false := by simp [Order.frozen, bare]
  have taken : takeHolds p.actuator (promote p.actuator (s.handleAt i) (seated p i s)) =
      if p.actuator = gate then gateStep p.target (governed p i s) else governed p i s := by
    have held : ((promote p.actuator (s.handleAt i) (seated p i s)).updLane p.actuator fun l =>
        { l with maskHold := false, guardHold := false, state := .driven }) = governed p i s := by
      rw [promoted, updLane_updLane]
      rfl
    unfold takeHolds
    rw [governs]
    dsimp only
    rw [free, unfrozen, held]
    rfl
  rw [resolve, if_neg (by rw [lane]; simp [v.on, v.up]), yield, choice, taken]

end

section
variable {p : Order} {i : Slot} {s : State}

theorem governed_slot (j : Slot) : (governed p i s).slot j =
    if j = i then ⟨(s.slot i).gen, some { p with state := .governing }⟩ else s.slot j := by
  rw [governed, slot_of_slots (updLane_leaves _ _ _).2.1, slot_setSlot]

theorem governed_lane : (governed p i s).lane p.actuator = { s.lane p.actuator with
    orderSet := (s.lane p.actuator).orderSet.set p.cls (some (s.handleAt i)), state := .driven, gov := some (s.handleAt i)
    maskHold := false, guardHold := false, detector := .idle } := by
  rw [governed, lane_updLane, if_pos rfl]
  rfl

theorem governed_gate (onGate : p.actuator = gate) : (governed p i s).lane gate = { s.lane gate with
    orderSet := (s.lane gate).orderSet.set p.cls (some (s.handleAt i)), state := .driven, gov := some (s.handleAt i)
    maskHold := false, guardHold := false, detector := .idle } := by
  have lane := governed_lane (p := p) (i := i) (s := s)
  rwa [onGate] at lane

theorem governed_settled : ((governed p i s).updOrder i fun o => { o with settled := true }) =
    governed { p with settled := true } i s := by
  unfold governed
  rw [updLane_updOrder]
  exact congrArg (fun t : State => t.updLane _ _) (updOrder_setSlot s i _ _ _)

end

end Sys2Proof.Machine
end

section
/-! A placement that supersedes: what the retirement of the old order leaves for the new one (R8, R10, R11). -/

namespace Sys2Proof.Machine

/-! ### Lanes that no order enters and none resolves -/

/-- Lanes have lost orders and no more: governing orders and positions are among those of `s`. -/
structure LanesShrink (s t : State) : Prop where
  state : ∀ a, (t.lane a).state = (s.lane a).state
  command : ∀ a, (t.lane a).command = (s.lane a).command
  gov : ∀ a k, (t.lane a).gov = some k → (s.lane a).gov = some k
  positions : ∀ a c k, (t.lane a).orderSet.get c = some k → (s.lane a).orderSet.get c = some k

theorem LanesShrink.refl (s : State) : LanesShrink s s := ⟨fun _ => rfl, fun _ => rfl, fun _ _ => id, fun _ _ _ => id⟩

theorem LanesShrink.trans {s t u : State} (h : LanesShrink s t) (k : LanesShrink t u) : LanesShrink s u :=
  ⟨fun a => (k.state a).trans (h.state a), fun a => (k.command a).trans (h.command a),
    fun a x e => h.gov a x (k.gov a x e), fun a c x e => h.positions a c x (k.positions a c x e)⟩

theorem dropFromLane_shrinks (a : Actuator) (c : Cls) (h : Handle) (s : State) : LanesShrink s (dropFromLane a c h s) := by
  have lane := lane_updLane s a fun l => { l with
    orderSet := if l.orderSet.get c = some h then l.orderSet.set c none else l.orderSet
    gov := if l.gov = some h then none else l.gov
    detector := if l.gov = some h then .idle else l.detector }
  refine ⟨fun b => ?_, fun b => ?_, fun b k e => ?_, fun b d k e => ?_⟩ <;> rw [dropFromLane, lane] at *
  · split
    · next same => rw [same]
    · rfl
  · split
    · next same => rw [same]
    · rfl
  · split at e
    · next same =>
      subst same
      dsimp only at e
      split at e
      · cases e
      · exact e
    · exact e
  · split at e
    · next same =>
      subst same
      dsimp only at e
      split at e
      · rw [PerClass.get_set] at e
        split at e
        · cases e
        · exact e
      · exact e
    · exact e

theorem retireOne_shrinks (i : Slot) (c : Cause) (s : State) : LanesShrink s (retireOne false i c s) := by
  cases ho : s.orderAt i with
  | none => rw [retireOne_dead ho]; exact .refl s
  | some o =>
    have lanes := lane_of_lanes (freeSlot_leaves o i (s.handleAt i) c (leaveLane false o (s.handleAt i) s)).2.1
    have drop := dropFromLane_shrinks o.actuator o.cls (s.handleAt i) s
    rw [retireOne_live ho]
    exact ⟨fun a => by rw [lanes]; exact drop.state a, fun a => by rw [lanes]; exact drop.command a,
      fun a k e => drop.gov a k (by rwa [lanes] at e), fun a d k e => drop.positions a d k (by rwa [lanes] at e)⟩

theorem cascade_shrinks (n : Nat) (h : Handle) (s : State) : LanesShrink s (cascade n h s) :=
  cascade_keeps (P := LanesShrink s) (fun _ _ ht => ht.trans (retireOne_shrinks _ _ _)) n h s (.refl s)

theorem retireCore_shrinks (i : Slot) (c : Cause) (s : State) : LanesShrink s (retireCore false i c s) := by
  cases h : s.orderAt i with
  | none => rw [retireCore_dead h]; exact .refl s
  | some o => rw [retireCore_live h]; exact (retireOne_shrinks _ _ _).trans (cascade_shrinks _ _ _)

/-- A retired order governs no more. -/
theorem retireCore_ungoverned {i : Slot} {c : Cause} {s : State} {o : Order} (h : s.orderAt i = some o) :
    ((retireCore false i c s).lane o.actuator).gov ≠ some (s.handleAt i) := by
  intro e
  rw [retireCore_live h] at e
  have e := (cascade_shrinks _ _ _).gov _ _ e
  rw [retireOne_live h, lane_of_lanes (freeSlot_leaves _ _ _ _ _).2.1] at e
  simp only [leaveLane, Bool.false_and, Bool.false_eq_true, if_false, dropFromLane, lane_updLane, if_true] at e
  split at e
  · cases e
  · next other => exact other e

theorem retireCore_settles {i : Slot} {c : Cause} {s : State} (quiet : s.gateSettles = none) :
    (retireCore false i c s).gateSettles = none := by
  cases e : (retireCore false i c s).gateSettles with
  | none => rfl
  | some h =>
    obtain ⟨o, gov, live, st, unsettled, complete, at'⟩ := gateSettles_iff.1 e
    have shrinks := retireCore_shrinks i c s
    have before : s.gateSettles = some h :=
      gateSettles_iff.2 ⟨o, shrinks.gov gate h gov, (retireCore_pruned i c s).order? live,
        (shrinks.state gate).symm.trans st, unsettled, (retireCore_false_leaves i c s).2.symm.trans complete, by
          rw [State.atTarget, shrinks.command gate] at at'
          exact at'⟩
    rw [quiet] at before; cases before

theorem gateQuiet.pruned {s t : State} (q : gateQuiet s) (p : Pruned s t) (travel : t.travel = s.travel) : gateQuiet t := by
  refine q.imp (fun run => travel ▸ run) fun still j o ho onGate => ?_
  obtain ⟨standing, none⟩ := still j o (p.orderAt ho) onGate
  refine ⟨standing, p.waits.none ?_⟩
  rwa [handleAt_of_gen (congrArg SlotState.gen (p.live ho))]

/-! ### The slot taken -/

theorem findOrder_holds {s : State} {a : Actuator} {c : Cls} {j : Slot} {o : Order} (h : s.findOrder a c = some j)
    (ho : s.orderAt j = some o) : o.actuator = a ∧ o.cls = c := by
  have found := List.find?_some h
  simpa [ho] using found

theorem freeSlot?_lowest {s : State} {i : Slot} (free : s.orderAt i = none) (lowest : ∀ k, k < i → s.orderAt k ≠ none) :
    s.freeSlot? = some i := by
  obtain ⟨before, after, split, below⟩ := allSlots_split i
  rw [State.freeSlot?, split, List.find?_append, List.find?_eq_none.2 fun k hk => by simp [lowest k (below k hk)]]
  simp [free]

theorem gen_succ_ne (g : BitVec 8) : g + 1 ≠ g := by simp

/-- The handle an order takes in a slot that is free, or becomes so as its order goes. -/
def nextHandle (i : Slot) (s : State) : Handle := ⟨i, if s.orderAt i = none then (s.slot i).gen else (s.slot i).gen + 1⟩

theorem nextHandle_dead (i : Slot) (s : State) : s.order? (nextHandle i s) = none := by
  unfold State.order? nextHandle
  dsimp only
  split
  · next free => simp [free]
  · exact if_neg fun e => gen_succ_ne _ e.symm

section
variable {j : Slot} {o : Order} {c : Cause} {s : State} (ho : s.orderAt j = some o) (law : LaneLaw s)
include ho law

theorem retireCore_free {i : Slot} : (retireCore false j c s).orderAt i = none ↔
    (s.orderAt i = none ∨ s.goesWith (s.handleAt j) i = true) := by
  have acts := law.govActs o.actuator
  constructor
  · intro dead
    by_contra both
    obtain ⟨live, stays⟩ := not_or.1 both
    obtain ⟨p, hp⟩ := Option.ne_none_iff_exists'.1 live
    obtain ⟨q, hq, -⟩ := retireCore_stays (lane := false) (c := c) ho acts i p (by simpa using stays) hp
    rw [dead] at hq; cases hq
  · rintro (free | goes)
    · rw [State.orderAt, (retireCore_frame false j c s).free i free]
      exact free
    · rw [State.orderAt, retireCore_goes ho acts goes]

theorem retireCore_nextHandle {i : Slot} (dead : s.orderAt i = none ∨ s.goesWith (s.handleAt j) i = true) :
    (retireCore false j c s).handleAt i = nextHandle i s := by
  unfold State.handleAt nextHandle
  by_cases free : s.orderAt i = none
  · rw [(retireCore_frame false j c s).free i free, if_pos free]
  · rw [retireCore_goes ho (law.govActs o.actuator) (dead.resolve_left free), if_neg free]

theorem retireCore_takes {i : Slot} (dead : s.orderAt i = none ∨ s.goesWith (s.handleAt j) i = true) :
    Takes i (retireCore false j c s) where
  free := (retireCore_free ho law).2 dead
  own := law.namesOwn.mono (retireCore_frame false j c s).orders (retireCore_names false j c s)
  unnamed a n := by
    rw [retireCore_nextHandle ho law dead] at n
    obtain ⟨p, hp, -⟩ := law.named_live (retireCore_names false j c s a _ n)
    rw [nextHandle_dead] at hp; cases hp

theorem retireCore_vacant {d : Cls} (empty : ∀ e, e ≠ d → (s.lane o.actuator).orderSet.get e = none)
    (gov : ∀ k, (s.lane o.actuator).gov = some k → k = s.handleAt j) (listed : d ∈ (s.lane o.actuator).precedence)
    (unmasked : (s.lane o.actuator).mask.get d = false) (run : s.mode = .run) (up : (s.lane o.actuator).state ≠ .down) :
    Vacant o.actuator d (retireCore false j c s) := by
  have shrinks := retireCore_shrinks j c s
  obtain ⟨precedence, mask, -⟩ := (retireCore_frame false j c s).tables.lanes o.actuator
  exact {
    gov := by
      cases e : ((retireCore false j c s).lane o.actuator).gov with
      | none => rfl
      | some k =>
        obtain rfl := gov k (shrinks.gov _ k e)
        exact absurd e (retireCore_ungoverned ho)
    empty := fun x other => by
      cases e : ((retireCore false j c s).lane o.actuator).orderSet.get x with
      | none => rfl
      | some k =>
        have before := shrinks.positions _ x k e
        rw [empty x other] at before; cases before
    listed := precedence ▸ listed
    unmasked := mask ▸ unmasked
    on := by rw [shrinks.state]; exact law.running run o.actuator
    up := by rw [shrinks.state]; exact up }

end

end Sys2Proof.Machine
end

section
/-! PLACE and ISSUE: the courses of an accepted placement (R10, R11, R13, R14, R157). -/

namespace Sys2Proof.Machine

/-! ### The one order of its lane -/

section
variable {o : Order} {i : Slot} {s : State} {replaced : Bool}

theorem Vacant.installed (v : Vacant o.actuator o.cls s) (pending : s.initialState o.prereq = .pending)
    (bare : o.guards = []) : installOrder o i replaced s = settleGate (if o.actuator = gate then
      gateStep o.target (governed { o with state := .pending } i s) else governed { o with state := .pending } i s) := by
  have alone := Vacant.resolve_eq (p := { o with state := .pending }) (i := i) v (by simp) bare
  rw [installOrder_started pending (by simp [bare]) (by simp [bare]), started_bare s bare]
  exact congrArg settleGate alone

/-- On a proportional lane the new order governs, and nothing settles. -/
theorem Vacant.installed_lane (v : Vacant o.actuator o.cls s) (x : Takes i s)
    (pending : s.initialState o.prereq = .pending) (bare : o.guards = []) (apart : o.actuator ≠ gate)
    (quiet : s.gateSettles = none) : installOrder o i replaced s = governed { o with state := .pending } i s := by
  have alone := Vacant.resolve_eq (p := { o with state := .pending }) (i := i) v (by simp) bare
  rw [if_neg apart] at alone
  have none := x.resolved_settles (p := { o with state := .pending }) apart quiet
  rw [v.installed pending bare, if_neg apart, settleGate_none (alone ▸ none)]

end

/-- What the GATE is under an order that is new to it, once it has stepped to the order's target. -/
structure GateTaken (p : Order) (h : Handle) (s t : State) : Prop where
  order : t.slot h.slot = ⟨h.gen, some p⟩
  state : (t.lane gate).state = .driven
  gov : (t.lane gate).gov = some h
  command : (t.lane gate).command = some p.target
  travel : t.travel = if (s.lane gate).command = some p.target then s.travel else .running 0

section
variable {p : Order} {i : Slot} {s : State}

theorem stepped_taken (onGate : p.actuator = gate) : GateTaken { p with state := .governing } (s.handleAt i) s
    (gateStep p.target (governed p i s)) := by
  have lane := governed_gate (i := i) (s := s) onGate
  exact {
    order := by
      rw [slot_of_slots (gateStep_slots _ _), governed_slot]
      exact if_pos rfl
    state := by rw [gateStep_lane, lane]
    gov := by rw [gateStep_lane, lane]
    command := by rw [gateStep_lane]
    travel := by rw [gateStep_travel, lane]; rfl }

theorem governed_waitsOn {j : Slot} {h : Handle} (w : (governed p i s).waitsOn j h = true) : s.waitsOn j h = true := by
  obtain ⟨q, hq, st, pre⟩ := waitsOn_iff.1 w
  rw [State.orderAt, governed_slot] at hq
  split at hq
  · cases hq
    cases st
  · exact waitsOn_iff.2 ⟨q, hq, st, pre⟩

theorem governed_unawaited {h : Handle} (none : ∀ k, s.waitsOn k h = false) (k : Slot) :
    (governed p i s).waitsOn k h = false :=
  Bool.eq_false_iff.2 fun w => by
    have before := governed_waitsOn w
    rw [none k] at before; cases before

theorem waitsOn_of_slots {s t : State} (h : t.slots = s.slots) (j : Slot) (k : Handle) : t.waitsOn j k = s.waitsOn j k := by
  simp only [State.waitsOn, State.orderAt, slot_of_slots h]

theorem stepped_unawaited {v : Int} {h : Handle} (none : ∀ k, s.waitsOn k h = false) (k : Slot) :
    (gateStep v (governed p i s)).waitsOn k h = false := by
  rw [waitsOn_of_slots (gateStep_slots _ _)]
  exact governed_unawaited none k

theorem GateTaken.settles {h k : Handle} {t : State} (x : GateTaken p h s t) (g : t.gateSettles = some k) : k = h := by
  obtain ⟨q, gov, -⟩ := gateSettles_iff.1 g
  exact Option.some.inj (gov.symm.trans x.gov)

/-- A STANDING order new to the GATE, which nothing waits on, governs it, settled or not. -/
theorem GateTaken.standing {h : Handle} {t : State} (x : GateTaken p h s t) (standing : p.completion = .standing)
    (none : ∀ k, t.waitsOn k h = false) : ∃ settled, GateTaken { p with settled := settled } h s (settleGate t) := by
  cases g : t.gateSettles with
  | none => exact ⟨p.settled, by rw [settleGate_none g]; exact x⟩
  | some k =>
    obtain rfl := x.settles g
    rw [settleGate_some g, settleOrder_standing (order?_of_live x.order) standing none]
    exact ⟨true, {
      order := by rw [slot_updOrder, if_pos rfl, State.orderAt, x.order]; rfl
      state := by rw [settled_lane]; exact x.state
      gov := by rw [settled_lane]; exact x.gov
      command := by rw [settled_lane]; exact x.command
      travel := by simpa using x.travel }⟩

end

/-! ### The answer -/

theorem stateCode_live {s : State} {h : Handle} {p : Order} (live : s.order? h = some p) :
    s.stateCode h = p.state.code := by
  simp only [State.stateCode, live]

theorem stateCode_dead {s : State} {h : Handle} (dead : s.order? h = none) : s.stateCode h = 0 := by
  simp only [State.stateCode, dead]

/-- The answer to a placement: the handle, the state it has come to, the handle superseded. -/
def placeAnswer (kind : Byte) (r : Req) (h : Handle) (state : Nat) (old : Option Handle) (t : State) : State :=
  answered kind r .done (putHandle (some h) ++ putByte state ++ putHandle old) t

section
variable {c : Instr} {kind : Byte} {r : Req} {o : Order} {s : State} (places : Places c kind r o s)
include places

/-- A placement in a free slot. -/
theorem Places.free {i : Slot} (accepted : s.prereqOk o.actuator o.cls o.prereq = true)
    (vacant : s.findOrder o.actuator o.cls = none) (free : s.freeSlot? = some i) :
    exec c s = .next (placeAnswer kind r (s.handleAt i)
      ((installOrder o i false (received s)).stateCode (s.handleAt i)) none (installOrder o i false (received s))) := by
  have none : supersede o.actuator o.cls (received s) = received s := by
    have vacant : (received s).findOrder o.actuator o.cls = none := vacant
    simp only [supersede, vacant]
  have holder : (received s).holder o.actuator o.cls = Option.none := by
    have vacant : (received s).findOrder o.actuator o.cls = Option.none := vacant
    simp [State.holder, vacant]
  have placement := placeOrder_free (o := o) (s := received s) (i := i) (by rw [none]; exact free)
  rw [none, holder] at placement
  rw [places accepted (by rw [State.hasRoom, free]; simp), placed, placement]
  rfl

/-- A placement that supersedes. -/
theorem Places.superseding {i j : Slot} (accepted : s.prereqOk o.actuator o.cls o.prereq = true)
    (held : s.findOrder o.actuator o.cls = some j)
    (free : (retireCore false j .superseded (received s)).freeSlot? = some i) :
    exec c s = .next (placeAnswer kind r ((retireCore false j .superseded (received s)).handleAt i)
      ((installOrder o i true (retireCore false j .superseded (received s))).stateCode
        ((retireCore false j .superseded (received s)).handleAt i)) (some (s.handleAt j))
      (installOrder o i true (retireCore false j .superseded (received s)))) := by
  have held : (received s).findOrder o.actuator o.cls = some j := held
  have retired : supersede o.actuator o.cls (received s) = retireCore false j .superseded (received s) := by
    simp only [supersede, held]
  have holder : (received s).holder o.actuator o.cls = some (s.handleAt j) := by
    rw [State.holder, held]; rfl
  have placement := placeOrder_free (o := o) (s := received s) (i := i) (by rw [retired]; exact free)
  rw [retired, holder] at placement
  rw [places accepted (by rw [State.hasRoom, show s.findOrder o.actuator o.cls = some j from held]; rfl), placed,
    placement]
  rfl

end

/-! ### The prerequisite -/

theorem initialState_ready {s : State} {pre : Option Handle} (live : ∀ q, pre = some q → ∃ d, s.order? q = some d)
    (ready : prereqReady s pre) : s.initialState pre = .pending := by
  cases pre with
  | none => rfl
  | some q =>
    obtain ⟨d, hd⟩ := live q rfl
    simp only [State.initialState, hd]
    exact if_pos (ready q d rfl hd)

theorem initialState_unready {s : State} {pre : Option Handle} (unready : ¬ prereqReady s pre) :
    s.initialState pre = .waiting := by
  cases pre with
  | none => exact absurd (fun q d e => by cases e) unready
  | some q =>
    unfold State.initialState
    dsimp only
    split
    · next d hd =>
      refine if_neg fun ready => unready fun q' d' e hd' => ?_
      cases e
      rw [hd] at hd'
      cases hd'
      exact ready
    · rfl

theorem prereqOk_live {s : State} {a : Actuator} {c : Cls} {pre : Option Handle}
    (live : ∀ q, pre = some q → ∃ d, s.order? q = some d ∧ d.actuator ≠ a) (vacant : s.findOrder a c = none) :
    s.prereqOk a c pre = true := by
  cases pre with
  | none => rfl
  | some q =>
    obtain ⟨d, hd, apart⟩ := live q rfl
    simp [State.prereqOk, hd, apart, vacant]

end Sys2Proof.Machine
end

section
/-! What PLACE and ISSUE do, in one statement for both (R10, R11, R13, R14, R77, R157). -/

namespace Sys2Proof.Machine

theorem firstNotice.place {s t u : State} {i : Slot} {p : Order} {o : Origin} {n : Notice} (h : firstNotice s t o n)
    (k : PlaceFrame t u i p) : firstNotice s u o n := by
  intro room
  obtain ⟨ns, hns⟩ := h room
  obtain ⟨ms, hms, -⟩ := k.tables.queue
  exact ⟨ns ++ ms, by rw [hms, hns]; simp⟩

/-- What the statement of a placement asks of the order, the state and the instruction. -/
structure Placing (c : Instr) (kind : Byte) (r : Req) (o : Order) (s : State) : Prop where
  places : Places c kind r o s
  waiting : o.state = .waiting
  two : o.guards.length ≤ 2
  live : ∀ q, o.prereq = some q → ∃ d, s.order? q = some d ∧ d.actuator ≠ o.actuator
  whole : o.actuator = gate → o.completion = .standing
  run : s.mode = .run
  up : (s.lane o.actuator).state ≠ .down
  law : LaneLaw s

section
variable {c : Instr} {kind : Byte} {r : Req} {o : Order} {s : State} (x : Placing c kind r o s)
include x

/-! ### Without an order to supersede -/

section
variable {i : Slot} (vacant : s.findOrder o.actuator o.cls = none) (free : s.freeSlot? = some i)
include vacant free

theorem Placing.exec_free : exec c s = .next (placeAnswer kind r (s.handleAt i)
    ((installOrder o i false (received s)).stateCode (s.handleAt i)) none (installOrder o i false (received s))) :=
  x.places.free (prereqOk_live x.live vacant) vacant free

omit vacant in
theorem Placing.takes : Takes i (received s) := (laneLaw_received x.law).takes (freeSlot?_free free)

theorem Placing.ready_runs (ready : prereqReady s o.prereq) (stays : ∀ e ∈ o.guards, ¬ tripsAtOnce s e.guard) :
    ∃ t p, exec c s = .next (placeAnswer kind r (s.handleAt i) p.state.code none t) ∧
      t.order? (s.handleAt i) = some p ∧ (p.state = .pending ∨ p.state = .governing) ∧ o.kept p ∧
      (∀ e ∈ p.guards, armedAs s e.guard e.cond) ∧ (t.lane o.actuator).orderSet.get o.cls = some (s.handleAt i) ∧
      PlaceFrame (received s) t i p ∧
      (s.gateSettles = none → (o.actuator = gate → gateQuiet s ∧ ∀ k, s.waitsOn k (s.handleAt i) = false) →
        OrdersStay s t fun _ => false) := by
  have pending : (received s).initialState o.prereq = .pending :=
    initialState_ready (s := s) (fun q e => (x.live q e).imp fun _ h => h.1) ready
  have takes := x.takes free
  obtain ⟨p, hp, stands, kept, armed, pos⟩ := takes.installed (replaced := false) pending x.two stays x.whole
  refine ⟨_, p, ?_, hp, stands, kept, armed, pos, (installOrder_frame o i false _).final (order?_eq_some hp).2,
    fun quiet still => takes.installed_stays pending x.two stays x.whole quiet still⟩
  rw [x.exec_free vacant free, show s.handleAt i = (received s).handleAt i from rfl, stateCode_live hp]

theorem Placing.trip_runs (ready : prereqReady s o.prereq) (trips : ∃ e ∈ o.guards, tripsAtOnce s e.guard) :
    ∃ t, exec c s = .next (placeAnswer kind r (s.handleAt i) 0 none t) ∧
      t.slot i = ⟨(s.handleAt i).gen + 1, none⟩ ∧
      firstNotice s t (addressee o.cls) (.retired (s.handleAt i) o.actuator .guardTrip) ∧
      PlaceFrame (received s) t i o := by
  have pending : (received s).initialState o.prereq = .pending :=
    initialState_ready (s := s) (fun q e => (x.live q e).imp fun _ h => h.1) ready
  obtain ⟨freed, first⟩ := installOrder_trips (i := i) (replaced := false) pending x.two trips
  have dead : (installOrder o i false (received s)).order? (s.handleAt i) = none := by
    unfold State.order? State.orderAt
    rw [show (s.handleAt i).slot = i from rfl, freed]
    simp
  refine ⟨_, ?_, freed, first, installOrder_frame o i false (received s)⟩
  rw [x.exec_free vacant free, stateCode_dead dead]

theorem Placing.waiting_runs (unready : ¬ prereqReady s o.prereq) (quiet : s.gateSettles = none) :
    exec c s = .next (placeAnswer kind r (s.handleAt i) 1 none (seated o i (received s))) := by
  have waiting : (received s).initialState o.prereq = .waiting := initialState_unready (s := s) unready
  have same : ({ o with state := .waiting } : Order) = o := by rw [← x.waiting]
  have none := (x.takes free).seated_settles (p := o) quiet
  have placed : installOrder o i false (received s) = seated o i (received s) := by
    rw [installOrder_eq, resolvedNew, if_neg (by rw [waiting]; simp), entered_waiting waiting, same, settleGate_none none]
  have live : (seated o i (received s)).order? (s.handleAt i) = some o := seated_order?
  rw [x.exec_free vacant free, placed, stateCode_live live, x.waiting]
  rfl

end

end

/-! ### With an order to supersede -/

/-- The state once the order of slot `j` has retired SUPERSEDED. -/
def superseded (j : Slot) (s : State) : State := retireCore false j .superseded (received s)

/-- A placement without prerequisite and guards that supersedes the order `old` of slot `j`, and takes slot `i`, the
lowest then free. -/
structure Superseding (o : Order) (i j : Slot) (old : Order) (s : State) : Prop where
  held : s.findOrder o.actuator o.cls = some j
  oldLive : s.orderAt j = some old
  unprompted : o.prereq = none
  bare : o.guards = []
  dead : s.orderAt i = none ∨ s.goesWith (s.handleAt j) i = true
  lowest : ∀ k, k < i → s.orderAt k ≠ none ∧ s.goesWith (s.handleAt j) k = false

namespace Superseding

variable {o old : Order} {i j : Slot} {s : State} (y : Superseding o i j old s) (law : LaneLaw s)
include y law

theorem free_iff (k : Slot) : (superseded j s).orderAt k = none ↔
    (s.orderAt k = none ∨ s.goesWith (s.handleAt j) k = true) := by
  rw [← goesWith_received]
  exact retireCore_free (s := received s) y.oldLive (laneLaw_received law)

theorem freeSlot : (superseded j s).freeSlot? = some i := by
  refine freeSlot?_lowest ((y.free_iff law i).2 y.dead) fun k below dead => ?_
  obtain ⟨live, stays⟩ := y.lowest k below
  rcases (y.free_iff law k).1 dead with free | goes
  · exact live free
  · rw [stays] at goes; cases goes

omit law in
theorem dead_received : (received s).orderAt i = none ∨ (received s).goesWith ((received s).handleAt j) i = true := by
  rw [goesWith_received]
  exact y.dead

theorem handle : (superseded j s).handleAt i = nextHandle i s :=
  retireCore_nextHandle (s := received s) y.oldLive (laneLaw_received law) y.dead_received

theorem takes : Takes i (superseded j s) :=
  retireCore_takes (s := received s) y.oldLive (laneLaw_received law) y.dead_received

theorem goes {k : Slot} (w : s.goesWith (s.handleAt j) k = true) :
    (superseded j s).slot k = ⟨(s.slot k).gen + 1, none⟩ :=
  retireCore_goes (s := received s) y.oldLive ((laneLaw_received law).govActs old.actuator)
    ((goesWith_received s _ k).trans w)

theorem stays : OrdersStay s (superseded j s) (s.goesWith (s.handleAt j)) := fun k p stay hp =>
  retireCore_stays (s := received s) y.oldLive ((laneLaw_received law).govActs old.actuator) k p
    ((goesWith_received s _ k).trans stay) hp

omit law in
theorem first : firstNotice s (superseded j s) (addressee old.cls) (.retired (s.handleAt j) o.actuator .superseded) := by
  have first := retireCore_first (lane := false) (c := .superseded) (s := received s) y.oldLive (by simp)
  rw [(findOrder_holds y.held y.oldLive).1] at first
  exact first

omit law in
theorem pending : (superseded j s).initialState o.prereq = .pending := by rw [y.unprompted]; rfl

/-- What is quiet on the GATE before the old order goes is so after. -/
theorem still (quiet : gateQuiet s) (none : ∀ k, s.waitsOn k (nextHandle i s) = false) :
    gateQuiet (superseded j s) ∧ ∀ k, (superseded j s).waitsOn k ((superseded j s).handleAt i) = false := by
  have pruned : Pruned (received s) (superseded j s) := retireCore_pruned j .superseded (received s)
  rw [y.handle law]
  exact ⟨gateQuiet.pruned (s := received s) quiet pruned (retireCore_false_leaves j .superseded (received s)).2,
    pruned.waits.none none⟩

theorem vacant (empty : ∀ d, d ≠ o.cls → (s.lane o.actuator).orderSet.get d = none)
    (gov : ∀ k, (s.lane o.actuator).gov = some k → k = s.handleAt j) (listed : o.cls ∈ (s.lane o.actuator).precedence)
    (unmasked : (s.lane o.actuator).mask.get o.cls = false) (run : s.mode = .run)
    (up : (s.lane o.actuator).state ≠ .down) : Vacant o.actuator o.cls (superseded j s) := by
  rw [← (findOrder_holds y.held y.oldLive).1] at empty gov listed unmasked up ⊢
  exact retireCore_vacant (s := received s) y.oldLive (laneLaw_received law) empty gov listed unmasked run up

end Superseding

section
variable {c : Instr} {kind : Byte} {r : Req} {o : Order} {s : State} (x : Placing c kind r o s)
  {i j : Slot} {old : Order} (y : Superseding o i j old s)
include x y

theorem Placing.supersede_runs :
    ∃ t p, exec c s = .next (placeAnswer kind r (nextHandle i s) p.state.code (some (s.handleAt j)) t) ∧
      t.order? (nextHandle i s) = some p ∧ (p.state = .pending ∨ p.state = .governing) ∧ o.kept p ∧
      (t.lane o.actuator).orderSet.get o.cls = some (nextHandle i s) ∧
      (∀ k, k ≠ i → s.goesWith (s.handleAt j) k = true → t.slot k = ⟨(s.slot k).gen + 1, none⟩) ∧
      firstNotice s t (addressee old.cls) (.retired (s.handleAt j) o.actuator .superseded) ∧
      PlaceFrame (received s) t i p ∧
      (s.gateSettles = none → (o.actuator = gate → gateQuiet s ∧ ∀ k, s.waitsOn k (nextHandle i s) = false) →
        OrdersStay s t (s.goesWith (s.handleAt j))) ∧ t = installOrder o i true (superseded j s) := by
  have takes := y.takes x.law
  have bare : ∀ e ∈ o.guards, ¬ tripsAtOnce (superseded j s) e.guard := by simp [y.bare]
  obtain ⟨p, hp, stands, kept, -, pos⟩ := takes.installed (replaced := true) y.pending x.two bare x.whole
  have placed := installOrder_frame o i true (superseded j s)
  have run := x.places.superseding (i := i) (by rw [y.unprompted]; rfl) y.held (y.freeSlot x.law)
  rw [show retireCore false j .superseded (received s) = superseded j s from rfl, stateCode_live hp, y.handle x.law] at run
  rw [y.handle x.law] at hp pos
  refine ⟨_, p, run, hp, stands, kept, pos, fun k other goes => ?_, y.first.place placed,
    ((retireCore_frame _ _ _ _).then_place placed).final (order?_eq_some hp).2, fun quiet still => ?_, rfl⟩
  · have slot := y.goes x.law goes
    rw [placed.free k other (by rw [State.orderAt, slot]), slot]
  · have stay := takes.installed_stays (replaced := true) y.pending x.two bare x.whole
      (retireCore_settles (s := received s) quiet) fun onGate => (still onGate).elim (y.still x.law)
    exact (y.stays x.law).engine fun k q hq => stay k q rfl hq

/-- Alone and unmasked on its lane the new order governs at once. -/
theorem Placing.supersede_governs (v : Vacant o.actuator o.cls (superseded j s)) (quiet : s.gateSettles = none) {p : Order}
    (hp : (installOrder o i true (superseded j s)).order? (nextHandle i s) = some p) :
    (o.actuator ≠ gate → p.state = .governing ∧
      ((installOrder o i true (superseded j s)).lane o.actuator).state = .driven ∧
      ((installOrder o i true (superseded j s)).lane o.actuator).gov = some (nextHandle i s) ∧
      ((installOrder o i true (superseded j s)).lane o.actuator).command = (s.lane o.actuator).command ∧
      ((installOrder o i true (superseded j s)).lane o.actuator).detector = .idle) ∧
    (o.actuator = gate → (∀ k, s.waitsOn k (nextHandle i s) = false) → p.state = .governing ∧
      ((installOrder o i true (superseded j s)).lane o.actuator).state = .driven ∧
      ((installOrder o i true (superseded j s)).lane o.actuator).gov = some (nextHandle i s) ∧
      ((installOrder o i true (superseded j s)).lane o.actuator).command = some p.target ∧
      (installOrder o i true (superseded j s)).travel =
        if (s.lane o.actuator).command = some p.target then s.travel else .running 0) := by
  have shrinks := retireCore_shrinks j .superseded (received s)
  refine ⟨fun apart => ?_, fun onGate none => ?_⟩
  · have governs := v.installed_lane (replaced := true) (y.takes x.law) y.pending y.bare apart
      (retireCore_settles (s := received s) quiet)
    have lane := governed_lane (p := { o with state := .pending }) (i := i) (s := superseded j s)
    rw [governs, ← y.handle x.law] at hp ⊢
    rw [order?_of_live (h := (superseded j s).handleAt i) (by rw [governed_slot]; exact if_pos rfl)] at hp
    obtain rfl := Option.some.inj hp
    dsimp only at lane
    rw [lane]
    exact ⟨rfl, rfl, rfl, shrinks.command _, rfl⟩
  · have taken := stepped_taken (p := { o with state := .pending }) (i := i) (s := superseded j s) onGate
    have none : ∀ k, (superseded j s).waitsOn k ((superseded j s).handleAt i) = false := by
      rw [y.handle x.law]
      exact (retireCore_pruned j .superseded (received s)).waits.none none
    obtain ⟨settled, taken⟩ := taken.standing (x.whole onGate) (stepped_unawaited none)
    have governs := v.installed (i := i) (replaced := true) y.pending y.bare
    rw [if_pos onGate] at governs
    rw [← show _ = _ from governs, y.handle x.law] at taken
    rw [order?_of_live taken.order] at hp
    obtain rfl := Option.some.inj hp
    have command := shrinks.command gate
    have travel : (superseded j s).travel = s.travel := (retireCore_false_leaves j .superseded (received s)).2
    rw [onGate]
    refine ⟨rfl, taken.state, taken.gov, taken.command, ?_⟩
    rw [taken.travel, travel, show ((superseded j s).lane gate).command = (s.lane gate).command from command]

end

/-- The statement of a placement holds of what passes its checks. -/
theorem Placing.runs {c : Instr} {kind : Byte} {r : Req} {o : Order} {s : State} (x : Placing c kind r o s) :
    PlacementRuns c kind r o s := by
  refine ⟨fun i vacant free => ⟨x.ready_runs vacant free, x.trip_runs vacant free, x.waiting_runs vacant free⟩,
    fun i j old held at' unprompted bare dead lowest => ?_⟩
  have y : Superseding o i j old s := ⟨held, at', unprompted, bare, dead, lowest⟩
  obtain ⟨t, p, run, hp, stands, kept, pos, gone, first, frame, stay, rfl⟩ := x.supersede_runs y
  refine ⟨_, p, run, hp, stands, kept, pos, gone, first, frame, stay, fun empty gov listed unmasked quiet => ?_⟩
  exact x.supersede_governs y (y.vacant x.law empty gov listed unmasked x.run x.up) quiet hp

/-- The lease of a new order, at its reload value (R10). -/
theorem lease_form (n : Nat) : ((if n = 0 then none else some n).map fun n => (⟨n, 1000 * n⟩ : Lease)) =
    if n = 0 then none else some ⟨n, 1000 * n⟩ := by
  split <;> rfl

/-- Settles O15. -/
theorem placeCreatesTheOrder : Obligations.PlaceCreatesTheOrder := by
  intro f a pre gs o tag s fits actuator prereq guards allowed live run may target ramp lease up whole law r
  have two : gs.length ≤ 2 := by
    obtain ⟨-, -, -, -, -, two, -⟩ := fits
    simpa [guards] using two
  have x : Placing (.place r) 0x10 r (newOrder (classOf o) a f.target (if f.ramp = 0 then none else some f.ramp)
      f.completion pre gs (if f.lease = 0 then none else some f.lease) f.tethered none none) s :=
    ⟨places_place fits actuator prereq guards allowed run may target ramp lease up, rfl, by simpa [newOrder] using two, live,
      whole, run, up, law⟩
  have runs := x.runs
  rw [newOrder, lease_form] at runs
  exact runs

/-- Settles O18. -/
theorem issueCopiesTheTemplate : Obligations.IssueCopiesTheTemplate := by
  intro f x m pre o tag s fits index prereq filled two live run may target up whole law r
  have placing : Placing (.issue r) 0x11 r (newOrder (classOf o) m.actuator (f.target.getD m.target) m.ramp m.completion
      pre m.guards m.lease m.tethered none (some x)) s :=
    ⟨places_issue fits index prereq filled run may target up, rfl, by simpa [newOrder] using two, live, whole, run, up, law⟩
  exact placing.runs

end Sys2Proof.Machine
end

section
/-! An order placed on a resting lane, and the step of the GATE (R38, R40, R58, R60, R63). -/

namespace Sys2Proof.Machine

/-! ### The step of the GATE -/

theorem gateStep_held {v : Int} {s : State} (held : (s.lane gate).command = some v) : gateStep v s = s := if_pos held

theorem handCommand_chan (a : Actuator) (s : State) {c : Chan} (other : (s.mapAt a).assigned ≠ some c) :
    (handCommand a s).chan c = s.chan c := by
  unfold handCommand
  split
  · next d hd =>
    split
    · rw [refreshChan, chan_setChan, if_neg]
      rintro rfl
      exact other hd
    · rfl
  · rfl

/-- The channel a lane hands its command to follows it in ORDER, and stays in any other mode (R57, R133). -/
theorem handCommand_assigned {a : Actuator} {s : State} {c : Chan} (assigned : (s.mapAt a).assigned = some c) :
    (handCommand a s).chan c =
      if (s.chan c).mode = .order then { s.chan c with output := s.outputOf c } else s.chan c := by
  simp only [handCommand, assigned]
  split
  · rw [refreshChan, chan_setChan, if_pos rfl]
  · rfl

theorem outputOf_order {a : Actuator} {s : State} {c : Chan} {v : Int} (mode : (s.chan c).mode = .order)
    (assignee : s.assignee c = some a) (command : (s.lane a).command = some v) : s.outputOf c = s.dutyOf a v := by
  simp only [State.outputOf, mode, assignee, command]

/-- The GATE with a new command, before its channel follows. -/
def stepping (v : Int) (s : State) : State :=
  State.updLane { s with travel := .running 0 } gate fun l => { l with command := some v }

theorem gateStep_steps {v : Int} {s : State} (steps : (s.lane gate).command ≠ some v) :
    gateStep v s = handCommand gate (stepping v s) := if_neg steps

theorem stepping_command (v : Int) (s : State) : ((stepping v s).lane gate).command = some v := by
  rw [stepping, lane_updLane, if_pos rfl]

/-- What the step of the GATE does, and leaves (R60). -/
theorem gateStep_does (v : Int) (s : State) : ((s.lane gate).command = some v → gateStep v s = s) ∧
    ((s.lane gate).command ≠ some v →
      let t := gateStep v s
      t.travel = .running 0 ∧ t.lane gate = { s.lane gate with command := some v } ∧
        (∀ b, b ≠ gate → t.lane b = s.lane b) ∧ (∀ c, (s.mapAt gate).assigned ≠ some c → t.chan c = s.chan c) ∧
        (∀ c, (s.mapAt gate).assigned = some c →
          ((s.chan c).mode ≠ .order → t.chan c = s.chan c) ∧
          ((s.chan c).mode = .order → s.assignee c = some gate →
            t.chan c = { s.chan c with output := s.dutyOf gate v })) ∧
        t.slots = s.slots ∧ t.banks = s.banks ∧ t.txQueue = s.txQueue ∧ t.noticesLost = s.noticesLost ∧
        t.interlocks = s.interlocks ∧ BlocksKept s t) := by
  refine ⟨gateStep_held, fun steps => ?_⟩
  have resolves := gateStep_resolves v s
  refine ⟨by rw [gateStep_travel, if_neg steps], gateStep_lane v s, resolves.lanes, fun c other => ?_, fun c assigned => ⟨?_, ?_⟩,
    gateStep_slots v s, resolves.banks, resolves.queue, resolves.lost, (gateStep_frame v s).interlocks,
    (gateStep_frame v s).blocks⟩
  · rw [gateStep_steps steps]
    exact handCommand_chan gate (stepping v s) other
  · intro mode
    rw [gateStep_steps steps, handCommand_assigned (s := stepping v s) assigned]
    exact if_neg mode
  · intro mode assignee
    rw [gateStep_steps steps, handCommand_assigned (s := stepping v s) assigned,
      outputOf_order (s := stepping v s) mode assignee (stepping_command v s)]
    exact if_pos mode

/-! ### The order placed -/

/-- What the statement asks of an order placed without prerequisite and guards on a resting lane. -/
structure Resting (c : Instr) (kind : Byte) (r : Req) (o : Order) (i : Slot) (s : State) : Prop where
  places : Places c kind r o s
  unprompted : o.prereq = none
  bare : o.guards = []
  vacant : s.findOrder o.actuator o.cls = none
  free : s.freeSlot? = some i
  rest : (s.lane o.actuator).state = .rest
  gov : (s.lane o.actuator).gov = none
  empty : ∀ d, (s.lane o.actuator).orderSet.get d = none
  listed : o.cls ∈ (s.lane o.actuator).precedence
  unmasked : (s.lane o.actuator).mask.get o.cls = false
  quiet : s.gateSettles = none
  law : LaneLaw s

namespace Resting

variable {c : Instr} {kind : Byte} {r : Req} {o : Order} {i : Slot} {s : State} (x : Resting c kind r o i s)
include x

theorem lone : Vacant o.actuator o.cls (received s) where
  gov := x.gov
  empty d _ := x.empty d
  listed := x.listed
  unmasked := x.unmasked
  on := by
    rw [show (received s).lane o.actuator = s.lane o.actuator from rfl, x.rest]
    simp
  up := by
    rw [show (received s).lane o.actuator = s.lane o.actuator from rfl, x.rest]
    simp

theorem exec_eq : exec c s = .next (placeAnswer kind r (s.handleAt i)
    ((installOrder o i false (received s)).stateCode (s.handleAt i)) none (installOrder o i false (received s))) :=
  x.places.free (by rw [x.unprompted]; rfl) x.vacant x.free

theorem pending : (received s).initialState o.prereq = .pending := by rw [x.unprompted]; rfl

theorem answers {p : Order} {t : State} (installed : installOrder o i false (received s) = t)
    (slot : t.slot i = ⟨(s.slot i).gen, some p⟩) (governs : p.state = .governing) :
    exec c s = .next (placeAnswer kind r (s.handleAt i) 3 none t) := by
  have live : t.order? (s.handleAt i) = some p := order?_of_live slot
  rw [x.exec_eq, installed, stateCode_live live, governs]
  rfl

theorem proportional (apart : o.actuator ≠ gate) : exec c s = .next (placeAnswer kind r (s.handleAt i) 3 none
    (governed { o with state := .pending } i (received s))) := by
  have takes := (laneLaw_received x.law).takes (i := i) (freeSlot?_free x.free)
  refine x.answers (p := { o with state := .governing }) (x.lone.installed_lane takes x.pending x.bare apart x.quiet) ?_ rfl
  rw [governed_slot, if_pos rfl]
  rfl

theorem installed_gate (onGate : o.actuator = gate) : installOrder o i false (received s) =
    settleGate (gateStep o.target (governed { o with state := .pending } i (received s))) := by
  have installed := x.lone.installed (i := i) (replaced := false) x.pending x.bare
  rwa [if_pos onGate] at installed

omit x in
theorem taken (onGate : o.actuator = gate) : GateTaken { o with state := .governing } (s.handleAt i) (received s)
    (gateStep o.target (governed { o with state := .pending } i (received s))) :=
  stepped_taken (p := { o with state := .pending }) (i := i) (s := received s) onGate

/-- The GATE that travels does not settle. -/
theorem travels (onGate : o.actuator = gate)
    (away : (s.lane gate).command ≠ some o.target ∨ s.travel ≠ .complete) :
    exec c s = .next (placeAnswer kind r (s.handleAt i) 3 none
      (gateStep o.target (governed { o with state := .pending } i (received s)))) := by
  have taken := taken (i := i) (s := s) onGate
  have running : (gateStep o.target (governed { o with state := .pending } i (received s))).travel ≠ .complete := by
    rw [taken.travel]
    split
    · next held => exact away.resolve_left fun other => other held
    · simp
  exact x.answers (by rw [x.installed_gate onGate, settleGate_none (gateSettles_running running)]) taken.order rfl

section
variable (onGate : o.actuator = gate) (unsettled : o.settled = false) (there : (s.lane gate).command = some o.target)
  (complete : s.travel = .complete) (alone : ∀ k, s.waitsOn k (s.handleAt i) = false)
include onGate there

omit x in
theorem stands : gateStep o.target (governed { o with state := .pending } i (received s)) =
    governed { o with state := .pending } i (received s) := by
  refine gateStep_held ?_
  rw [governed_gate (p := { o with state := .pending }) (s := received s) onGate]
  exact there

include unsettled complete

/-- At the target with the timer complete the new order settles at once (R63). -/
theorem settles : installOrder o i false (received s) =
    settleOrder (s.handleAt i) (governed { o with state := .pending } i (received s)) := by
  have taken := taken (i := i) (s := s) onGate
  have travel : (received s).travel = .complete := complete
  rw [x.installed_gate onGate]
  rw [stands onGate there] at taken ⊢
  refine settleGate_some (gateSettles_iff.2 ⟨_, taken.gov, order?_of_live taken.order, taken.state, unsettled, ?_,
    (gate_atTarget _ _).2 taken.command⟩)
  rw [taken.travel, travel]
  simp [there]

include alone

theorem standing (standing : o.completion = .standing) : exec c s = .next (placeAnswer kind r (s.handleAt i) 3 none
    (governed { o with state := .pending, settled := true } i (received s))) := by
  have taken := taken (i := i) (s := s) onGate
  rw [stands onGate there] at taken
  have unawaited := governed_unawaited (p := { o with state := .pending }) (i := i) (s := received s) alone
  refine x.answers (p := { o with state := .governing, settled := true }) ?_ ?_ rfl
  · rw [x.settles onGate unsettled there complete, settleOrder_standing (order?_of_live taken.order) standing unawaited,
      show (s.handleAt i).slot = i from rfl, governed_settled]
  · rw [governed_slot, if_pos rfl]
    rfl

theorem completing (completes : o.completion = .settle) : ∃ t,
    exec c s = .next (placeAnswer kind r (s.handleAt i) 0 none t) ∧ t.slot i = ⟨(s.slot i).gen + 1, none⟩ ∧
      firstNotice s t (addressee o.cls) (.retired (s.handleAt i) gate .completed) ∧
      (t.lane gate).state = .rest ∧ (t.lane gate).command = some 0 := by
  have unawaited := governed_unawaited (p := { o with state := .pending }) (i := i) (s := received s) alone
  have reports : reported (settleFor 80) (s.handleAt i) (governed { o with state := .pending } i (received s)) =
      governed { o with state := .pending, settled := true } i (received s) :=
    (reported_unawaited unawaited).trans governed_settled
  have slot : (governed { o with state := .pending, settled := true } i (received s)).slot (s.handleAt i).slot =
      ⟨(s.handleAt i).gen, some { o with state := .governing, settled := true }⟩ := by
    rw [governed_slot]
    exact if_pos rfl
  have lane := governed_gate (p := { o with state := .pending, settled := true }) (i := i) (s := received s) onGate
  have rests := retireOne_rests (c := .completed) slot onGate (by simp) (by rw [lane]) (by rw [lane]; rfl) fun d k hk => by
    rw [lane] at hk
    dsimp only at hk
    rw [PerClass.get_set] at hk
    split at hk
    · next same => exact ⟨(Option.some.inj hk).symm, same⟩
    · have empty := x.empty d
      rw [onGate] at empty
      rw [show ((received s).lane gate).orderSet.get d = none from empty] at hk
      cases hk
  have ends : settleOrder (s.handleAt i) (governed { o with state := .pending } i (received s)) =
      retireOne true i .completed (governed { o with state := .pending, settled := true } i (received s)) := by
    rw [settleOrder_completes (q := { o with state := .governing, settled := true }) (by rw [reports]; exact slot) completes
      (by rw [reports]; exact rests), reports]
    rfl
  have at' : (governed { o with state := .pending, settled := true } i (received s)).orderAt i =
      some { o with state := .governing, settled := true } := by
    rw [State.orderAt]
    exact congrArg SlotState.order slot
  have freed := retireOne_self (lane := true) (c := .completed) at'
  have first := retireOne_first (lane := true) (c := .completed) at' (by simp)
  have gen : ((governed { o with state := .pending, settled := true } i (received s)).slot i).gen = (s.slot i).gen :=
    (congrArg SlotState.gen slot :)
  refine ⟨settleOrder (s.handleAt i) (governed { o with state := .pending } i (received s)), ?_, ?_, ?_, ?_, ?_⟩
  · have dead : (settleOrder (s.handleAt i) (governed { o with state := .pending } i (received s))).order?
        (s.handleAt i) = none := by
      rw [ends, State.order?, State.orderAt, show (s.handleAt i).slot = i from rfl, freed]
      simp
    rw [x.exec_eq, x.settles onGate unsettled there complete, stateCode_dead dead]
  · rw [ends, freed, gen]
  · rw [ends]
    rw [handleAt_of_gen (s := s) gen] at first
    have named : Notice.retired (s.handleAt i) gate .completed = .retired (s.handleAt i) o.actuator .completed := by
      rw [onGate]
    rw [named]
    exact first
  · rw [ends]; exact rests.state
  · rw [ends]; exact rests.command

end

end Resting

/-- Settles O16. -/
theorem anOrderPlacedOnARestingLaneGoverns : Obligations.AnOrderPlacedOnARestingLaneGoverns := by
  refine ⟨fun f a o tag i s fits actuator prereq guards run may target ramp lease vacant free rest gov empty listed
    unmasked quiet law => ?_, gateStep_does⟩
  intro r h fresh governing answer
  have x : Resting (.place r) 0x10 r (newOrder (classOf o) a f.target (if f.ramp = 0 then none else some f.ramp)
      f.completion none [] (if f.lease = 0 then none else some f.lease) f.tethered none none) i s :=
    ⟨places_place (pre := none) (gs := []) fits actuator prereq guards (by simp) run may target ramp lease
      (by rw [rest]; simp), rfl, rfl, vacant, free, rest, gov, empty, listed, unmasked, quiet, law⟩
  rw [newOrder, lease_form] at x
  exact ⟨x.proportional, x.travels, fun onGate there complete none =>
    ⟨x.standing onGate rfl there complete none, x.completing onGate rfl there complete none⟩⟩

end Sys2Proof.Machine
end

section
/-! The candidate of a lane: the highest in the precedence list of the orders it may take (R37). -/

namespace Sys2Proof.Machine

/-- The order `h` may govern the lane of `a` for its class: unmasked and eligible, in its position (R37). -/
def State.mayGovern (s : State) (a : Actuator) (c : Cls) (h : Handle) : Prop :=
  c ∈ (s.lane a).precedence ∧ (c = .guard ∨ (s.lane a).mask.get c = false) ∧ (s.lane a).orderSet.get c = some h ∧
    ∃ o, s.order? h = some o ∧ (o.state = .pending ∨ o.state = .governing)

theorem masked_eq_false {l : Lane} {c : Cls} : l.masked c = false ↔ c = .guard ∨ l.mask.get c = false := by
  cases c <;> simp [Lane.masked]

theorem not_waiting_iff {x : OrderState} : x ≠ .waiting ↔ x = .pending ∨ x = .governing := by cases x <;> simp

theorem eligible_eq_some {s : State} {a : Actuator} {c : Cls} {h : Handle} :
    s.eligible a c = some h ↔ (s.lane a).orderSet.get c = some h ∧
      ∃ o, s.order? h = some o ∧ (o.state = .pending ∨ o.state = .governing) := by
  unfold State.eligible
  cases hc : (s.lane a).orderSet.get c with
  | none => simp
  | some k =>
    dsimp only
    rw [Option.some.injEq]
    cases ho : s.order? k with
    | none => exact ⟨by rintro ⟨⟩, by rintro ⟨rfl, o, live, -⟩; rw [ho] at live; cases live⟩
    | some o =>
      dsimp only
      split
      · next w => exact ⟨by rintro ⟨⟩, by rintro ⟨rfl, p, live, acts⟩; rw [ho] at live; cases live; simp [w] at acts⟩
      · next acts => exact ⟨by rintro ⟨⟩; exact ⟨rfl, o, ho, not_waiting_iff.1 acts⟩, fun x => congrArg some x.1⟩

/-- What the search for the candidate finds at a class of the list. -/
theorem mayGovern_iff {s : State} {a : Actuator} {c : Cls} {h : Handle} :
    s.mayGovern a c h ↔ c ∈ (s.lane a).precedence ∧
      (if (s.lane a).masked c then none else (s.eligible a c).map fun k => (c, k)) = some (c, h) := by
  unfold State.mayGovern
  rw [← masked_eq_false, ← eligible_eq_some]
  cases (s.lane a).masked c <;> simp

theorem candidate_mayGovern {s : State} {a : Actuator} {c : Cls} {h : Handle} (e : s.candidate a = some (c, h)) :
    s.mayGovern a c h := by
  obtain ⟨pos, unmasked, listed, o, ho, acts⟩ := candidate_eq_some e
  exact ⟨listed, masked_eq_false.1 unmasked, pos, o, ho, not_waiting_iff.1 acts⟩

theorem candidate_none {s : State} {a : Actuator} (e : s.candidate a = none) (c : Cls) (h : Handle) :
    ¬ s.mayGovern a c h := by
  intro m
  obtain ⟨listed, found⟩ := mayGovern_iff.1 m
  rw [List.findSome?_eq_none_iff.1 e c listed] at found
  cases found

/-- A search that answers stops at the first element that has an answer. -/
theorem findSome?_first {α β : Type} [DecidableEq α] {f : α → Option β} {x y : α} {b b' : β} :
    ∀ {l : List α}, l.findSome? f = some b → f x = some b → (∀ z, f z = some b → z = x) → f y = some b' → y ∈ l →
      ¬ l.idxOf y < l.idxOf x
  | [], _, _, _, _, mem => by cases mem
  | z :: l, found, hx, only, hy, mem => by
    rw [List.findSome?_cons] at found
    cases hz : f z with
    | some b'' =>
      rw [hz] at found
      cases found
      rw [only z hz, List.idxOf_cons_self]
      omega
    | none =>
      rw [hz] at found
      have ny : z ≠ y := by rintro rfl; rw [hz] at hy; cases hy
      have nx : z ≠ x := by rintro rfl; rw [hz] at hx; cases hx
      rw [List.idxOf_cons_ne _ ny, List.idxOf_cons_ne _ nx]
      have := findSome?_first found hx only hy ((List.mem_cons.1 mem).resolve_left (Ne.symm ny))
      omega

/-- No order the lane may take stands before the candidate in the precedence list. -/
theorem candidate_highest {s : State} {a : Actuator} {c d : Cls} {h k : Handle} (e : s.candidate a = some (c, h))
    (m : s.mayGovern a d k) : ¬ (s.lane a).precedence.idxOf d < (s.lane a).precedence.idxOf c := by
  have first := mayGovern_iff.1 (candidate_mayGovern e)
  have found := mayGovern_iff.1 m
  refine findSome?_first e first.2 (fun z hz => ?_) found.2 found.1
  split at hz
  · cases hz
  · obtain ⟨_, _, e⟩ := Option.map_eq_some_iff.1 hz
    exact congrArg Prod.fst e

/-- Settles O25. -/
theorem theCandidateIsTheHighestUnmaskedEligibleOrder :
    Obligations.TheCandidateIsTheHighestUnmaskedEligibleOrder := by
  intro s a l open_
  refine ⟨fun c h => ⟨fun e => ⟨candidate_mayGovern e, fun d k m => candidate_highest e m⟩, fun ⟨m, highest⟩ => ?_⟩,
    candidate_none, fun none => ?_⟩
  · cases e : s.candidate a with
    | none => exact absurd m (candidate_none e c h)
    | some x =>
      obtain ⟨d, k⟩ := x
      have same : l.precedence.idxOf c = l.precedence.idxOf d :=
        Nat.le_antisymm (Nat.le_of_not_lt (highest d k (candidate_mayGovern e))) (Nat.le_of_not_lt (candidate_highest e m))
      obtain rfl := (List.idxOf_inj m.1).1 same
      have there : some k = some h := (candidate_mayGovern e).2.2.1.symm.trans m.2.2.1
      rw [Option.some.inj there]
  · cases e : s.candidate a with
    | none => rfl
    | some x => exact absurd (candidate_mayGovern e) (none x.1 x.2)

end Sys2Proof.Machine
end

section
/-! Operations under which the orders and the lanes stand as they did: they end, create and move no order, and resolve no
lane. -/

namespace Sys2Proof.Machine

/-! ### The relation -/

/-- `p` is the order `o` in its position and state. -/
def Order.stands (o p : Order) : Prop := p.cls = o.cls ∧ p.actuator = o.actuator ∧ p.state = o.state

/-- The lane `m` is `l` with the same state, orders and ranks; in OFF and DOWN no command appears, and in OFF no timer
starts. -/
structure Lane.stands (l m : Lane) : Prop where
  state : m.state = l.state
  gov : m.gov = l.gov
  orderSet : m.orderSet = l.orderSet
  precedence : m.precedence = l.precedence
  mask : m.mask = l.mask
  command : l.state = .off ∨ l.state = .down → l.command = none → m.command = none
  interval : l.state = .off → l.interval = none → m.interval = none
  detector : l.state = .off → l.detector = .idle → m.detector = .idle

/-- The orders stand in their slots, positions and states. -/
def SlotsStand (s t : State) : Prop :=
  ∀ i, ∃ f : Order → Order, t.slot i = ⟨(s.slot i).gen, (s.orderAt i).map f⟩ ∧ ∀ o : Order, o.stands (f o)

/-- The orders and the lanes stand as they did. No channel enters ORDER in SETUP, no assigned channel fails in RUN, the
assignments stay, and in SETUP no entry wakes. -/
structure Stands (s t : State) : Prop where
  mode : t.mode = s.mode
  slots : SlotsStand s t
  lanes : ∀ a, (s.lane a).stands (t.lane a)
  travel : (s.lane gate).state = .off → s.travel = .cleared → t.travel = .cleared
  order : ∀ c, (t.chan c).mode = .order → (s.chan c).mode = .order ∨ s.mode = .run
  health : ∀ c a, s.mode = .run → (s.mapAt a).assigned = some c → (s.chan c).fault = none → (t.chan c).fault = none
  assigned : ∀ a, (t.mapAt a).assigned = (s.mapAt a).assigned
  spare : ∀ a, (t.mapAt a).spare = (s.mapAt a).spare ∨ ∀ c, (t.mapAt a).spare = some c → kindsMatch a c = true
  entries : s.mode = .setup → ∀ b e x, t.entry b e = some x → x.state = .dormant ∨ s.entry b e = some x

theorem Order.stands_refl (o : Order) : o.stands o := ⟨rfl, rfl, rfl⟩

theorem Order.stands_trans {o p q : Order} (h : o.stands p) (k : p.stands q) : o.stands q :=
  ⟨k.1.trans h.1, k.2.1.trans h.2.1, k.2.2.trans h.2.2⟩

theorem Lane.stands_refl (l : Lane) : l.stands l := ⟨rfl, rfl, rfl, rfl, rfl, fun _ => id, fun _ => id, fun _ => id⟩

theorem Lane.stands_trans {l m n : Lane} (h : l.stands m) (k : m.stands n) : l.stands n where
  state := k.state.trans h.state
  gov := k.gov.trans h.gov
  orderSet := k.orderSet.trans h.orderSet
  precedence := k.precedence.trans h.precedence
  mask := k.mask.trans h.mask
  command still none := k.command (by rwa [h.state]) (h.command still none)
  interval off none := k.interval (h.state.trans off) (h.interval off none)
  detector off idle := k.detector (h.state.trans off) (h.detector off idle)

theorem SlotsStand.trans {s t u : State} (h : SlotsStand s t) (k : SlotsStand t u) : SlotsStand s u := fun i => by
  obtain ⟨f, hf, sf⟩ := h i
  obtain ⟨g, hg, sg⟩ := k i
  refine ⟨g ∘ f, ?_, fun o => Order.stands_trans (sf o) (sg _)⟩
  rw [hg, State.orderAt, hf, Option.map_map]

theorem SlotsStand.of_slot {s t : State} (h : ∀ i, t.slot i = s.slot i) : SlotsStand s t := fun i =>
  ⟨id, by rw [h, Option.map_id]; rfl, Order.stands_refl⟩

theorem SlotsStand.of_slots {s t : State} (h : t.slots = s.slots) : SlotsStand s t := .of_slot (slot_of_slots h)

theorem Stands.trans {s t u : State} (h : Stands s t) (k : Stands t u) : Stands s u where
  mode := k.mode.trans h.mode
  slots := h.slots.trans k.slots
  lanes a := Lane.stands_trans (h.lanes a) (k.lanes a)
  travel off cleared := k.travel ((h.lanes gate).state.trans off) (h.travel off cleared)
  order c hc := (k.order c hc).elim (h.order c) fun run => .inr (h.mode.symm.trans run)
  health c a run hc ok := k.health c a (h.mode.trans run) ((h.assigned a).trans hc) (h.health c a run hc ok)
  assigned a := (k.assigned a).trans (h.assigned a)
  spare a := by
    rcases k.spare a with same | kinds
    · rw [same]; exact h.spare a
    · exact .inr kinds
  entries setup b e x hx := (k.entries (h.mode.trans setup) b e x hx).elim .inl (h.entries setup b e x)

theorem Stands.of_lanes {s t : State} (h : t.lanes = s.lanes) (a : Actuator) : (s.lane a).stands (t.lane a) := by
  rw [lane_of_lanes h]; exact Lane.stands_refl _

/-- Nothing changes but what orders and lanes do not rest on. -/
theorem Stands.of_tables {s t : State} (mode : t.mode = s.mode) (slots : t.slots = s.slots) (lanes : t.lanes = s.lanes)
    (travel : t.travel = s.travel) (map : t.map = s.map) (chans : t.chans = s.chans) (banks : t.banks = s.banks) :
    Stands s t where
  mode := mode
  slots := SlotsStand.of_slots slots
  lanes := Stands.of_lanes lanes
  travel _ cleared := travel.trans cleared
  order c hc := .inl (by rwa [State.chan, chans] at hc)
  health c _ _ _ ok := by rwa [State.chan, chans]
  assigned a := by rw [State.mapAt, map]; rfl
  spare a := .inl (by rw [State.mapAt, map]; rfl)
  entries _ b e _ hx := .inr (by rwa [entry_of_banks banks] at hx)

theorem Stands.refl (s : State) : Stands s s := .of_tables rfl rfl rfl rfl rfl rfl rfl

theorem Stands.foldl {α : Type} {f : State → α → State} (hf : ∀ s x, Stands s (f s x)) (l : List α) (s : State) :
    Stands s (l.foldl f s) :=
  List.foldlRecOn l f (Stands.refl s) fun _ h x _ => h.trans (hf _ x)

/-! ### Orders that stand -/

theorem SlotsStand.handleAt {s t : State} (h : SlotsStand s t) (i : Slot) : t.handleAt i = s.handleAt i := by
  obtain ⟨f, hf, -⟩ := h i
  rw [State.handleAt, hf]; rfl

theorem SlotsStand.live {s t : State} (h : SlotsStand s t) {i : Slot} {o : Order} (ho : s.orderAt i = some o) :
    ∃ p, t.orderAt i = some p ∧ o.stands p := by
  obtain ⟨f, hf, stands⟩ := h i
  exact ⟨f o, by rw [State.orderAt, hf, ho]; rfl, stands o⟩

theorem SlotsStand.was {s t : State} (h : SlotsStand s t) {i : Slot} {p : Order} (hp : t.orderAt i = some p) :
    ∃ o, s.orderAt i = some o ∧ o.stands p := by
  obtain ⟨f, hf, stands⟩ := h i
  rw [State.orderAt, hf] at hp
  obtain ⟨o, ho, rfl⟩ := Option.map_eq_some_iff.1 hp
  exact ⟨o, ho, stands o⟩

theorem SlotsStand.reach {s t : State} (h : SlotsStand s t) {k : Handle} {o : Order} (ho : s.order? k = some o) :
    ∃ p, t.order? k = some p ∧ o.stands p := by
  obtain ⟨e, ho'⟩ := order?_eq_some ho
  obtain ⟨p, hp, stands⟩ := h.live ho'
  exact ⟨p, order?_of_orderAt ((h.handleAt _).trans e) hp, stands⟩

theorem SlotsStand.reached {s t : State} (h : SlotsStand s t) {k : Handle} {p : Order} (hp : t.order? k = some p) :
    ∃ o, s.order? k = some o ∧ o.stands p := by
  obtain ⟨e, hp'⟩ := order?_eq_some hp
  obtain ⟨o, ho, stands⟩ := h.was hp'
  exact ⟨o, order?_of_orderAt ((h.handleAt _).symm.trans e) ho, stands⟩

theorem updOrder_slotsStand {s : State} {i : Slot} {f : Order → Order} (hf : ∀ o : Order, o.stands (f o)) :
    SlotsStand s (s.updOrder i f) := fun j => by
  rw [slot_updOrder]
  split
  · subst j; exact ⟨f, rfl, hf⟩
  · exact ⟨id, by rw [Option.map_id]; rfl, Order.stands_refl⟩

/-! ### The writes -/

theorem updOrder_stands {s : State} {i : Slot} {f : Order → Order} (hf : ∀ o : Order, o.stands (f o)) :
    Stands s (s.updOrder i f) where
  mode := by simp
  slots := updOrder_slotsStand hf
  lanes := Stands.of_lanes (by simp)
  travel _ cleared := by simpa using cleared
  order c hc := .inl (by simpa using hc)
  health c _ _ _ ok := by simpa using ok
  assigned a := by simp
  spare a := .inl (by simp)
  entries _ b e x hx := .inr (by simpa using hx)

theorem updLane_stands {s : State} {a : Actuator} {f : Lane → Lane} (hf : (s.lane a).stands (f (s.lane a))) :
    Stands s (s.updLane a f) where
  mode := rfl
  slots := SlotsStand.of_slots rfl
  lanes b := by
    rw [lane_updLane]
    split
    · subst b; exact hf
    · exact Lane.stands_refl _
  travel _ cleared := cleared
  order _ hc := .inl hc
  health _ _ _ _ ok := ok
  assigned _ := rfl
  spare _ := .inl rfl
  entries _ _ _ _ hx := .inr hx

theorem setChan_stands {s : State} {c : Chan} {x : ChanState}
    (mode : x.mode = .order → (s.chan c).mode = .order ∨ s.mode = .run)
    (fault : ∀ a, s.mode = .run → (s.mapAt a).assigned = some c → (s.chan c).fault = none → x.fault = none) :
    Stands s (s.setChan c x) where
  mode := rfl
  slots := SlotsStand.of_slots rfl
  lanes := Stands.of_lanes rfl
  travel _ cleared := cleared
  order d hd := by
    rw [chan_setChan] at hd
    split at hd
    · subst d; exact mode hd
    · exact .inl hd
  health d a run hd ok := by
    rw [chan_setChan]
    split
    · subst d; exact fault a run hd ok
    · exact ok
  assigned _ := rfl
  spare _ := .inl rfl
  entries _ _ _ _ hx := .inr hx

theorem setMap_stands {s : State} {a : Actuator} {x : MapEntry} (assigned : x.assigned = (s.mapAt a).assigned)
    (spare : x.spare = (s.mapAt a).spare ∨ ∀ c, x.spare = some c → kindsMatch a c = true) : Stands s (s.setMap a x) where
  mode := rfl
  slots := SlotsStand.of_slots rfl
  lanes := Stands.of_lanes rfl
  travel _ cleared := cleared
  order _ hc := .inl hc
  health _ _ _ _ ok := ok
  assigned b := by
    rw [mapAt_setMap]
    split
    · subst b; exact assigned
    · rfl
  spare b := by
    rw [mapAt_setMap]
    split
    · subst b; exact spare
    · exact .inl rfl
  entries _ _ _ _ hx := .inr hx

/-- An entry is written in RUN, or is DORMANT or empty. -/
theorem setEntry_stands {s : State} {b : BankIx} {e : EntryIx} {x : Option PlanEntry}
    (asleep : s.mode = .run ∨ ∀ y, x = some y → y.state = .dormant) : Stands s (s.setEntry b e x) where
  mode := rfl
  slots := SlotsStand.of_slots rfl
  lanes := Stands.of_lanes rfl
  travel _ cleared := cleared
  order _ hc := .inl hc
  health _ _ _ _ ok := ok
  assigned _ := rfl
  spare _ := .inl rfl
  entries setup b' e' y hy := by
    rw [entry_setEntry] at hy
    split at hy
    · rcases asleep with run | asleep
      · rw [run] at setup; cases setup
      · exact .inl (asleep y hy)
    · exact .inr hy

theorem setEntryState_stands {s : State} {b : BankIx} {e : EntryIx} {x : EntryState}
    (asleep : s.mode = .run ∨ x = .dormant) : Stands s (s.setEntryState b e x) := by
  unfold State.setEntryState
  split
  · exact setEntry_stands (asleep.imp_right fun h _ e => by cases e; exact h)
  · exact .refl s

theorem travel_stands {s : State} {x : Travel} (moves : (s.lane gate).state = .off → s.travel = .cleared → x = .cleared) :
    Stands s { s with travel := x } where
  mode := rfl
  slots := SlotsStand.of_slots rfl
  lanes := Stands.of_lanes rfl
  travel := moves
  order _ hc := .inl hc
  health _ _ _ _ ok := ok
  assigned _ := rfl
  spare _ := .inl rfl
  entries _ _ _ _ hx := .inr hx

theorem queueNotice_stands (o : Origin) (n : Notice) (s : State) : Stands s (queueNotice o n s) := by
  unfold queueNotice
  split <;> exact .of_tables rfl rfl rfl rfl rfl rfl rfl

theorem port_stands {s t : State} (h : { s with
    link := t.link, rx := t.rx, finishing := t.finishing, collided := t.collided, pair := t.pair, line := t.line
    txQueue := t.txQueue, noticesLost := t.noticesLost, draws := t.draws, pending := t.pending } = t) : Stands s t := by
  rw [← h]
  exact .of_tables rfl rfl rfl rfl rfl rfl rfl

theorem setInterlock_stands (s : State) (w : Fin 2) (x : Interlock) : Stands s (s.setInterlock w x) :=
  .of_tables rfl rfl rfl rfl rfl rfl rfl

theorem setModule_stands (s : State) (m : Module) (x : ModuleState) : Stands s (s.setModule m x) :=
  .of_tables rfl rfl rfl rfl rfl rfl rfl

theorem setDirect_stands (s : State) (p : DirectPoint) (x : DirectState) : Stands s (s.setDirect p x) :=
  .of_tables rfl rfl rfl rfl rfl rfl rfl

theorem setReadings_stands (m : Module) (vs : List Int) (s : State) : Stands s (setReadings m vs s) :=
  Stands.foldl (f := fun (s : State) (kv : Fin 5 × Int) => s.setModValue kv.1 kv.2)
    (fun _ _ => .of_tables rfl rfl rfl rfl rfl rfl rfl) _ s

theorem sleepBank_stands (b : BankIx) (s : State) : Stands s (sleepBank b s) :=
  .foldl (fun _ _ => setEntryState_stands (.inr rfl)) allEntries s

/-! ### Channels and commands -/

theorem refreshChan_stands (c : Chan) (s : State) : Stands s (refreshChan c s) :=
  setChan_stands .inl fun _ _ _ ok => ok

theorem releaseChan_stands (c : Chan) (s : State) : Stands s (releaseChan c s) :=
  setChan_stands (fun h => by cases h) fun _ _ _ ok => ok

theorem forceChan_stands (c : Chan) (s : State) : Stands s (forceChan c s) :=
  Stands.trans (setChan_stands (x := { s.chan c with mode := .localDuty }) (fun h => by cases h) fun _ _ _ ok => ok)
    (refreshChan_stands c _)

theorem forceActuator_stands (a : Actuator) (s : State) : Stands s (forceActuator a s) := by
  unfold forceActuator
  split
  · exact (forceChan_stands _ s).trans (queueNotice_stands _ _ _)
  · exact queueNotice_stands _ _ s

theorem setLocalDuty_stands (c : Chan) (n : Nat) (s : State) : Stands s (setLocalDuty c n s) := by
  have duty : Stands s (s.setChan c { s.chan c with localDuty := n }) := setChan_stands .inl fun _ _ _ ok => ok
  unfold setLocalDuty
  dsimp only
  split
  · exact duty.trans (refreshChan_stands c _)
  · exact duty

theorem restoreChan_stands (c : Chan) (s : State) : Stands s (restoreChan c s) := by
  unfold restoreChan
  split
  · split
    · next act =>
      exact Stands.trans (setChan_stands (x := { s.chan c with mode := .order }) (fun _ => .inr act.1) fun _ _ _ ok => ok)
        (refreshChan_stands c _)
    · exact releaseChan_stands c s
  · exact .refl s

theorem handCommand_stands (a : Actuator) (s : State) : Stands s (handCommand a s) := by
  unfold handCommand
  split
  · split
    · exact refreshChan_stands _ s
    · exact .refl s
  · exact .refl s

/-- The lane takes commands: it has one, or is neither OFF nor DOWN. -/
def Lane.commanded (l : Lane) : Prop := l.command ≠ none ∨ (l.state ≠ .off ∧ l.state ≠ .down)

theorem setCommand_stands {a : Actuator} {s : State} (v : Int) (h : (s.lane a).commanded) :
    Stands s (setCommand a v s) := by
  refine Stands.trans (updLane_stands ⟨rfl, rfl, rfl, rfl, rfl, fun still none => ?_, fun _ => id, fun _ => id⟩)
    (handCommand_stands a _)
  exact absurd h (by rintro (some | ⟨off, down⟩) <;> simp_all)

theorem gateStep_stands {s : State} (v : Int) (h : (s.lane gate).state ≠ .off ∧ (s.lane gate).state ≠ .down) :
    Stands s (gateStep v s) := by
  unfold gateStep
  split
  · exact .refl s
  · exact (travel_stands fun off => absurd off h.1).trans (setCommand_stands v (.inr h))

theorem clearSettled_stands (a : Actuator) (s : State) : Stands s (clearSettled a s) := by
  unfold clearSettled
  split
  · exact updOrder_stands fun _ => ⟨rfl, rfl, rfl⟩
  · exact .refl s

theorem setDetector_stands {a : Actuator} {d : Detector} {s : State} (h : (s.lane a).state ≠ .off ∨ d = .idle) :
    Stands s (setDetector a d s) :=
  updLane_stands ⟨rfl, rfl, rfl, rfl, rfl, fun _ => id, fun _ => id, fun off _ => h.resolve_left (absurd off)⟩

theorem restartDetector_stands (a : Actuator) (s : State) : Stands s (restartDetector a s) :=
  (clearSettled_stands a s).trans (setDetector_stands (.inr rfl))

theorem setCond_stands (h : Handle) (g : Nat) (c : Cond) (s : State) : Stands s (setCond h g c s) :=
  updOrder_stands fun _ => ⟨rfl, rfl, rfl⟩

/-- The orders after one millisecond. -/
theorem tick_stands (s : State) : Stands s s.tick where
  mode := rfl
  slots i := ⟨Order.tick, by rw [tick_slot]; rfl, fun _ => ⟨rfl, rfl, rfl⟩⟩
  lanes a := by
    rw [tick_lane]
    exact ⟨rfl, rfl, rfl, rfl, rfl, fun _ => id, fun _ h => by simp [Lane.tick, h],
      fun _ h => by simp [Lane.tick, h, Detector.tick]⟩
  travel _ cleared := by simp [State.tick, cleared, Travel.tick]
  order _ hc := .inl hc
  health _ _ _ _ ok := ok
  assigned _ := rfl
  spare _ := .inl rfl
  entries _ _ _ _ hx := .inr hx

/-! ### Operations of the lanes -/

theorem moveCommand_stands (a : Actuator) (s : State) : Stands s (moveCommand a s) := by
  unfold moveCommand
  split
  · exact .refl s
  · split
    · next hc _ =>
      split
      · exact .refl s
      · exact setCommand_stands _ (.inl (by simp [hc]))
    · exact .refl s

theorem interlockUse_stands (w : Fin 2) (s : State) : Stands s (interlockUse w s) := by
  have flag := setInterlock_stands s w { s.interlock w with engaged := s.interlockFlag (s.interlock w) }
  unfold interlockUse
  dsimp only
  split
  · split
    · next c hc =>
      split
      · exact flag
      · split
        · exact flag.trans ((setCommand_stands _ (.inl (by rw [hc]; simp))).trans (restartDetector_stands _ _))
        · exact flag.trans (setCommand_stands _ (.inl (by rw [hc]; simp)))
    · exact flag
  · exact flag

theorem amendOrder_stands (h : Handle) (o : Order) (f : AmendForm) (s : State) : Stands s (amendOrder h o f s) := by
  have record : Stands s (s.updOrder h.slot (amended f)) := updOrder_stands fun _ => ⟨rfl, rfl, rfl⟩
  unfold amendOrder
  dsimp only
  split
  · have restarted := record.trans (restartDetector_stands o.actuator _)
    split
    · next onGate => exact restarted.trans (gateStep_stands _ (by simp [onGate.2]))
    · exact restarted
  · exact record

theorem applySettle_stands (a : Actuator) (f : SettleForm) (s : State) : Stands s (applySettle a f s) :=
  Stands.trans (t := s.updLane a fun l => { l with band := f.band.getD l.band, dwell := f.dwell.getD l.dwell })
    (updLane_stands ⟨rfl, rfl, rfl, rfl, rfl, fun _ => id, fun _ => id, fun _ => id⟩)
    (.of_tables rfl rfl rfl rfl rfl rfl rfl)

end Sys2Proof.Machine
end

section
/-! What a step does: a chain of acts, each one change of the orders, the lanes, the map or the mode. -/

namespace Sys2Proof.Machine

/-! ### The acts -/

/-- The lanes at the START of step 5 of R182, before the evaluation of the active bank. -/
def startLanes (s : State) : State :=
  allActuators.foldl leaveOff (refreshFlags (allActuators.foldl enterOrder
    (allActuators.foldl testActuator ⟨{ s with mode := .run }, 0, 0⟩).st))

/-- A change of a lane's precedence, mask or yield. -/
def ranksOnly (f : Lane → Lane) : Prop :=
  ∀ l : Lane, (f l).state = l.state ∧ (f l).gov = l.gov ∧ (f l).orderSet = l.orderSet ∧ (f l).command = l.command

/-- What a step is made of. -/
inductive Act : State → State → Prop
  | stands {s t} (h : Stands s t) : Act s t
  | resolves {s a f} (run : s.mode = .run) (ranks : ranksOnly f) : Act s (resolve a (s.updLane a f))
  | holds {s h o} (live : s.order? h = some o) (governs : o.state = .governing) : Act s (takeHolds o.actuator s)
  | settles {s h o} (live : s.order? h = some o) : Act s (settleOrder h s)
  | retires {s i o} (c : Cause) (live : s.orderAt i = some o) : Act s (retireCore true i c s)
  | places {s o} (run : s.mode = .run) (drives : (s.lane o.actuator).state ≠ .down) : Act s (placeOrder o s).1
  | moves {s c k a sp} (run : s.mode = .run) (assigned : s.assignee c = some a)
      (spare : (faulted c k s).usableSpare a = some sp) : Act s (moveActuator a sp (faulted c k s))
  | downs {s c a} (k : FaultKind) (run : s.mode = .run) (assigned : s.assignee c = some a) :
      Act s (actuatorDown a c (faulted c k s))
  | maps {s a c} (kind : kindsMatch a c = true) (ok : (s.chan c).fault = none)
      (free : ∀ b, s.assignee c = some b → b = a) : Act s (applyMap a c s)
  | starts {s} (setup : s.mode = .setup) : Act s (startLanes s)
  | restarts {s} : Act s (restartRun s)
  | powers {s} : Act s { State.reset with pending := s.pending, draws := s.draws }

/-- A chain of acts. -/
def Runs : State → State → Prop := Relation.ReflTransGen Act

/-- A chain of acts that ends in the mode it began in. -/
structure RunsOn (s t : State) : Prop where
  runs : Runs s t
  mode : t.mode = s.mode

theorem Act.runs {s t : State} (h : Act s t) : Runs s t := .single h

theorem Stands.runs {s t : State} (h : Stands s t) : Runs s t := (Act.stands h).runs

theorem Stands.runsOn {s t : State} (h : Stands s t) : RunsOn s t := ⟨h.runs, h.mode⟩

theorem Act.runsOn {s t : State} (h : Act s t) (mode : t.mode = s.mode) : RunsOn s t := ⟨h.runs, mode⟩

theorem RunsOn.refl (s : State) : RunsOn s s := ⟨.refl, rfl⟩

theorem RunsOn.trans {s t u : State} (h : RunsOn s t) (k : RunsOn t u) : RunsOn s u :=
  ⟨Relation.ReflTransGen.trans h.runs k.runs, k.mode.trans h.mode⟩

theorem RunsOn.stands {s t u : State} (h : RunsOn s t) (k : Stands t u) : RunsOn s u := h.trans k.runsOn

theorem Stands.thenRuns {s t u : State} (h : Stands s t) (k : RunsOn t u) : RunsOn s u := h.runsOn.trans k

theorem RunsOn.foldl {α : Type} {f : State → α → State} (hf : ∀ s x, RunsOn s (f s x)) (l : List α) (s : State) :
    RunsOn s (l.foldl f s) :=
  List.foldlRecOn l f (RunsOn.refl s) fun _ h x _ => h.trans (hf _ x)

/-! ### Settling, holding and retiring -/

theorem settleOrder_runs {s : State} {h : Handle} {o : Order} (live : s.order? h = some o) :
    RunsOn s (settleOrder h s) := (Act.settles live).runsOn (settleOrder_frame h s).blocks.mode

theorem settleGate_runs (s : State) : RunsOn s (settleGate s) := by
  cases e : s.gateSettles with
  | none => rw [settleGate_none e]; exact .refl s
  | some h =>
    obtain ⟨o, -, live, -⟩ := gateSettles_iff.1 e
    rw [settleGate_some e]
    exact settleOrder_runs live

theorem retireCore_runs (i : Slot) (c : Cause) (s : State) : RunsOn s (retireCore true i c s) := by
  cases live : s.orderAt i with
  | none => rw [retireCore, live]; exact .refl s
  | some o => exact (Act.retires c live).runsOn (retireCore_frame true i c s).blocks.mode

theorem retire_runs (i : Slot) (c : Cause) (s : State) : RunsOn s (retire i c s) :=
  (retireCore_runs i c s).trans (settleGate_runs _)

theorem takeHolds_runs {s : State} {h : Handle} {o : Order} (live : s.order? h = some o) (governs : o.state = .governing) :
    RunsOn s (takeHolds o.actuator s) := (Act.holds live governs).runsOn (takeHolds_frame _ s).blocks.mode

theorem guardAct_runs (h : Handle) (g : Nat) (action : GuardAction) (s : State) : RunsOn s (guardAct h g action s) := by
  cases action with
  | retire => exact retire_runs _ _ s
  | freeze =>
    have set := (setCond_stands h g .active s).runsOn
    unfold guardAct
    dsimp only
    split
    · next live =>
      split
      · next governs => exact set.trans (takeHolds_runs live governs)
      · exact set
    · exact set

theorem guardEnds_runs (h : Handle) (g : Nat) (s : State) : RunsOn s (guardEnds h g s) := by
  have set := (setCond_stands h g .satisfied s).runsOn
  unfold guardEnds
  dsimp only
  split
  · next live =>
    split
    · next governs => exact (set.trans (takeHolds_runs live governs)).trans (settleGate_runs _)
    · exact set
  · exact set

theorem evalGuard_runs (p : Point) (h : Handle) (g : Nat) (s : State) : RunsOn s (evalGuard p h g s) := by
  unfold evalGuard
  split
  · exact .refl s
  · split
    · exact .refl s
    · split
      · split
        · split
          · exact guardAct_runs _ _ _ s
          · exact (setCond_stands _ _ _ s).runsOn
        · exact (setCond_stands _ _ _ s).runsOn
        · exact guardEnds_runs _ _ s
        all_goals exact .refl s
      · exact .refl s

/-! ### The users of a point -/

theorem guardUse_runs (p : Point) (s : State) : RunsOn s (guardUse p s) :=
  RunsOn.foldl (fun s _ => (evalGuard_runs p _ 0 s).trans (evalGuard_runs p _ 1 _)) _ s

theorem settleUse_runs (a : Actuator) (s : State) : RunsOn s (settleUse a s) := by
  unfold settleUse
  split
  · next driven governs =>
    have on : (s.lane a).state ≠ .off := by rw [driven]; simp
    have detects : ∀ d, Stands s (setDetector a d s) := fun _ => setDetector_stands (.inl on)
    split
    · split
      · split
        · split
          · exact (detects _).thenRuns (settleOrder_runs (governing_eq_some.1 governs).2)
          · exact (detects _).runsOn
        · exact .refl s
      all_goals exact .refl s
    · exact (restartDetector_stands a s).runsOn
  · exact .refl s

theorem laneUse_runs (p : Point) (s : State) : RunsOn s (laneUse p s) := by
  have settle : RunsOn s (if h : p.val < 11 then settleUse ⟨p.val, by omega⟩ s else s) := by
    split
    · exact settleUse_runs _ s
    · exact .refl s
  unfold laneUse
  dsimp only
  split
  · exact settle.stands ((interlockUse_stands 0 _).trans (interlockUse_stands 1 _))
  · exact settle

theorem draws_stands (s : State) (n : Nat) : Stands s { s with draws := n } := .of_tables rfl rfl rfl rfl rfl rfl rfl

theorem handPoint_runs (p : Point) (s : State) : RunsOn s (handPoint p s) := by
  have guards := (guardUse_runs p s).trans (laneUse_runs p _)
  have lanes := (laneUse_runs p s).trans (guardUse_runs p _)
  unfold handPoint
  dsimp only
  split
  · exact guards
  · split
    · exact guards.stands (draws_stands _ _)
    · exact lanes.stands (draws_stands _ _)

theorem handModule_runs (m : Module) (s : State) : RunsOn s (handModule m s) :=
  RunsOn.foldl (fun s _ => handPoint_runs _ s) _ s

theorem takeReadings_runs (m : Module) (vs : List Int) (s : State) : RunsOn s (takeReadings m vs s) :=
  ((setModule_stands s m _).trans (setReadings_stands m vs _)).thenRuns (handModule_runs m _)

theorem goodFrame_runs (m : Module) (vs : List Int) (s : State) : RunsOn s (goodFrame m vs s) := by
  unfold goodFrame
  dsimp only
  split
  · exact takeReadings_runs m vs s
  · exact takeReadings_runs m vs s
  · split
    · exact takeReadings_runs m vs s
    · exact (setModule_stands s m _).runsOn

theorem staleModule_runs (m : Module) (s : State) : RunsOn s (staleModule m s) :=
  (setModule_stands s m _).thenRuns (handModule_runs m _)

theorem superviseModule_runs (m : Module) (s : State) : RunsOn s (superviseModule m s) := by
  unfold superviseModule
  dsimp only
  split
  · exact ((setModule_stands s m _).thenRuns (handModule_runs m _)).stands (queueNotice_stands _ _ _)
  · exact .refl s

theorem applyModule_runs (f : ModuleForm) (s : State) : RunsOn s (applyModule f s) := by
  have supervised := fun x => (setModule_stands s f.module x).thenRuns (superviseModule_runs f.module _)
  unfold applyModule
  dsimp only
  split
  · exact (supervised _).trans (staleModule_runs _ _)
  · exact supervised _

theorem badModuleFrame_runs (m : Module) (s : State) : RunsOn s (badModuleFrame m s) :=
  (setModule_stands s m _).thenRuns (superviseModule_runs m _)

theorem takeDirect_runs (p : DirectPoint) (v : Int) (s : State) : RunsOn s (takeDirect p v s) :=
  (setDirect_stands s p _).thenRuns (handPoint_runs _ _)

theorem faultDirect_runs (p : DirectPoint) (s : State) : RunsOn s (faultDirect p s) :=
  ((setDirect_stands s p _).thenRuns (handPoint_runs _ _)).stands (queueNotice_stands _ _ _)

theorem recoverDirect_runs (p : DirectPoint) (v : Int) (s : State) : RunsOn s (recoverDirect p v s) := by
  unfold recoverDirect
  dsimp only
  split
  · exact (setDirect_stands s p _).runsOn
  · split
    · exact takeDirect_runs p v s
    · exact (setDirect_stands s p _).runsOn

theorem handDrift_runs (s : State) : RunsOn s (handDrift s) := (handPoint_runs _ s).trans (handPoint_runs _ _)

theorem drift_stands (s : State) (d : DriftState) : Stands s { s with drift := d } := .of_tables rfl rfl rfl rfl rfl rfl rfl

theorem driftNote_runs (d : Int) (s : State) : RunsOn s (driftNote d s) := by
  unfold driftNote
  split
  · exact .refl s
  · split
    · dsimp only
      split
      · exact (drift_stands s _).thenRuns (handDrift_runs _)
      · exact (drift_stands s _).runsOn
    · split
      · exact (drift_stands s _).thenRuns (handDrift_runs _)
      · exact .refl s

theorem seedDrift_runs (x y : Int) (s : State) : RunsOn s (seedDrift x y s) :=
  (drift_stands s _).thenRuns (handDrift_runs _)

theorem depth_stands (s : State) (d : DepthState) : Stands s { s with depth := d } := .of_tables rfl rfl rfl rfl rfl rfl rfl

theorem measureDepth_runs (d : Int) (s : State) : RunsOn s (measureDepth d s) :=
  (driftNote_runs d s).trans
    ((depth_stands (driftNote d s) { (driftNote d s).depth with value := some d, status := .valid, stale := some 0 }).thenRuns
      (handPoint_runs depPoint _))

theorem staleDepth_runs (s : State) : RunsOn s (staleDepth s) :=
  (depth_stands s _).thenRuns (handPoint_runs _ _)

theorem applyDepthStale_runs (n : Nat) (s : State) : RunsOn s (applyDepthStale n s) := by
  have limit := depth_stands s { s.depth with staleLimit := n }
  unfold applyDepthStale
  dsimp only
  split
  · exact limit.thenRuns (staleDepth_runs _)
  · exact limit.runsOn

/-! ### Lanes -/

theorem resolveOn_runs {s : State} {a : Actuator} {f : Lane → Lane} (run : s.mode = .run) (ranks : ranksOnly f) :
    RunsOn s (settleGate (resolve a (s.updLane a f))) :=
  ((Act.resolves run ranks).runsOn (resolve_frame a _).blocks.mode).trans (settleGate_runs _)

theorem setLowest_runs {s : State} (run : s.mode = .run) (a : Actuator) (c : Cls) : RunsOn s (setLowest a c s) := by
  unfold setLowest
  split
  · exact .refl s
  · exact resolveOn_runs run fun _ => ⟨rfl, rfl, rfl, rfl⟩

theorem setMask_runs {s : State} (run : s.mode = .run) (a : Actuator) (c : Cls) (on : Bool) :
    RunsOn s (setMask a c on s) := by
  unfold setMask
  split
  · exact .refl s
  · exact resolveOn_runs run fun _ => ⟨rfl, rfl, rfl, rfl⟩

theorem setYield_runs {s : State} (run : s.mode = .run) (a : Actuator) (on : Bool) : RunsOn s (setYield a on s) := by
  unfold setYield
  split
  · exact .refl s
  · exact resolveOn_runs run fun _ => ⟨rfl, rfl, rfl, rfl⟩

/-! ### Placements and the plan -/

theorem placeOrder_runs {s : State} {o : Order} (run : s.mode = .run) (drives : (s.lane o.actuator).state ≠ .down) :
    RunsOn s (placeOrder o s).1 := (Act.places run drives).runsOn (placeOrder_tables o s).2.mode

/-- A placement that finds no slot answers with the state as it was. -/
theorem placed_runs {s : State} {o : Order} (run : s.mode = .run) (drives : (s.lane o.actuator).state ≠ .down) :
    RunsOn s (placed o s).st := by
  have := placeOrder_runs run drives
  unfold placed
  split
  · next h => rw [h] at this; exact this
  · exact .refl s

theorem issueOne_runs (w : IssueSet) (r : IssueRun) (a : Actuator) (run : r.st.mode = .run) :
    RunsOn r.st (issueOne w r a).st := by
  unfold issueOne
  dsimp only
  split
  · exact .refl _
  · split
    · exact .refl _
    · next drives =>
      split
      · exact .refl _
      · split
        · exact placeOrder_runs run drives
        · exact (forceActuator_stands a r.st).runsOn

theorem internalIssue_runs (w : IssueSet) {s : State} (run : s.mode = .run) : RunsOn s (internalIssue w s).st :=
  List.foldlRecOn (motive := fun r : IssueRun => RunsOn s r.st) allActuators _ (RunsOn.refl s)
    fun r h a _ => h.trans (issueOne_runs w r a (h.mode.trans run))

theorem linkLoss_runs {s : State} (run : s.mode = .run) : RunsOn s (linkLoss s) := by
  have tethered : RunsOn s (allSlots.foldl (fun s i => match s.orderAt i with
      | some o => if o.tethered then retire i .linkLost s else s
      | none => s) s) := by
    refine RunsOn.foldl (fun s i => ?_) allSlots s
    split
    · split
      · exact retire_runs _ _ s
      · exact .refl s
    · exact .refl s
  exact tethered.trans (internalIssue_runs _ (tethered.mode.trans run))

theorem spawn_runs {s : State} (run : s.mode = .run) (e : EntryIx) : RunsOn s (spawn e s) := by
  unfold spawn
  split
  · exact .refl s
  · next x _ =>
    split
    · exact ((setEntryState_stands (.inl run)).trans (queueNotice_stands _ _ _)).runsOn
    · next spawns =>
      have drives : (s.lane x.actuator).state ≠ .down := by
        intro down
        simp [State.spawnFailure, down] at spawns
      have placed := placeOrder_runs (o := planOrder s.active e x) run drives
      split
      · next h =>
        rw [h] at placed
        exact placed.stands (setEntryState_stands (.inl (placed.mode.trans run)))
      · next h => rw [h] at placed; exact placed

theorem overEntries_runs {f : EntryIx → PlanEntry → State → State}
    (hf : ∀ e x (s : State), s.mode = .run → RunsOn s (f e x s)) {s : State} (run : s.mode = .run) :
    RunsOn s (overEntries f s) := by
  refine List.foldlRecOn allEntries _ (RunsOn.refl s) fun t h e _ => h.trans ?_
  split
  · exact hf _ _ t (h.mode.trans run)
  · exact .refl t

theorem evaluateBank_runs {s : State} (run : s.mode = .run) : RunsOn s (evaluateBank s) := by
  have placed : RunsOn s (placeEntries s.depth.value s) :=
    overEntries_runs (fun _ _ _ run => (setEntryState_stands (.inl run)).runsOn) run
  unfold evaluateBank spawnEntries
  split
  · exact placed
  · refine placed.trans (overEntries_runs (fun e x s run => ?_) (placed.mode.trans run))
    split
    · exact spawn_runs run e
    · exact .refl s

theorem noteRetire_runs (d : Int) (e : EntryIx) (x : PlanEntry) (s : State) (run : s.mode = .run) :
    RunsOn s (noteRetire d e x s) := by
  unfold noteRetire
  split
  · next h _ =>
    split
    · exact .refl s
    · have retired : RunsOn s (if (s.order? h).isSome then retire h.slot .outOfBand s else s) := by
        split
        · exact retire_runs _ _ s
        · exact .refl s
      exact retired.stands (setEntryState_stands (.inl (retired.mode.trans run)))
  · exact .refl s

theorem noteRearm_runs (d : Int) (e : EntryIx) (x : PlanEntry) (s : State) (run : s.mode = .run) :
    RunsOn s (noteRearm d e x s) := by
  have moved : RunsOn s (if x.holds d then s else s.setEntryState s.active e (x.position d)) := by
    split
    · exact .refl s
    · exact (setEntryState_stands (.inl run)).runsOn
  unfold noteRearm
  split
  · exact moved
  · exact moved
  · exact .refl s

theorem noteSpawn_runs (d : Int) (e : EntryIx) (x : PlanEntry) (s : State) (run : s.mode = .run) :
    RunsOn s (noteSpawn d e x s) := by
  have moved : RunsOn s (if x.holds d then spawn e s else s.setEntryState s.active e (x.position d)) := by
    split
    · exact spawn_runs run e
    · exact (setEntryState_stands (.inl run)).runsOn
  unfold noteSpawn
  split
  · exact moved
  · exact moved
  · exact .refl s

theorem planNote_runs (d : Int) (s : State) : RunsOn s (planNote d s) := by
  unfold planNote
  split
  · next run =>
    have retired := overEntries_runs (noteRetire_runs d) run
    have rearmed := retired.trans (overEntries_runs (noteRearm_runs d) (retired.mode.trans run))
    exact rearmed.trans (overEntries_runs (noteSpawn_runs d) (rearmed.mode.trans run))
  · exact .refl s

theorem active_stands (s : State) (b : BankIx) : Stands s { s with active := b } := .of_tables rfl rfl rfl rfl rfl rfl rfl

theorem swapRetire_runs (e : EntryIx) (x : PlanEntry) (s : State) : RunsOn s (swapRetire e x s) := by
  unfold swapRetire
  split
  · split
    · exact retire_runs _ _ s
    · exact .refl s
  · exact .refl s

theorem swapBanks_runs (s : State) : RunsOn s (swapBanks s) := by
  unfold swapBanks
  dsimp only
  split
  · next run =>
    have slept := (overEntries_runs (fun e x s _ => swapRetire_runs e x s) run).stands (sleepBank_stands s.active _)
    generalize sleepBank s.active (overEntries swapRetire s) = t at slept ⊢
    exact (slept.stands (active_stands t t.shadow)).trans (evaluateBank_runs (slept.mode.trans run))
  · exact (active_stands s _).runsOn

/-! ### The link -/

theorem enterLost_runs (sending : Bool) (s : State) : RunsOn s (enterLost sending s) := by
  have port : Stands s { s with
      link := { s.link with state := .lost, silence := none }, pair := .free, finishing := sending } := port_stands rfl
  unfold enterLost
  dsimp only
  split
  · next run => exact port.thenRuns (linkLoss_runs run)
  · exact port.runsOn

theorem takeBadFrame_runs (s : State) : RunsOn s (takeBadFrame s) := by
  unfold takeBadFrame
  dsimp only
  generalize (if s.link.badCount < 255 then s.link.badCount + 1 else 255) = n
  have port : Stands s { s with link := { s.link with badCount := n }, rx := .hunting, collided := false } :=
    port_stands rfl
  split
  · split
    · exact port.runsOn.trans (enterLost_runs _ _)
    · exact port.runsOn.stands (port_stands rfl)
  · exact port.runsOn.stands (port_stands rfl)

theorem startRun_eq (s : State) : (startRun s).st = evaluateBank (startLanes s) := by
  unfold startRun startLanes
  dsimp only

theorem startRun_runs {s : State} (setup : s.mode = .setup) : Runs s (startRun s).st := by
  have run : (startLanes s).mode = .run := (startLanes_steady { s with mode := .run }).store.1
  rw [startRun_eq]
  exact Relation.ReflTransGen.trans (Act.starts setup).runs (evaluateBank_runs run).runs

end Sys2Proof.Machine
end

section
/-! The acts of every command, and of a step. -/

namespace Sys2Proof.Machine

/-! ### Requests -/

theorem Runs.refl (s : State) : Runs s s := Relation.ReflTransGen.refl

theorem Runs.trans {s t u : State} (h : Runs s t) (k : Runs t u) : Runs s u := Relation.ReflTransGen.trans h k

theorem request_runs {kind : Byte} {r : Req} {s t : State} {block : State → Reply} (h : ∀ u, Runs u (block u).st)
    (e : request kind r s block = .next t) : Runs s t := by
  unfold request at e
  split at e <;> cases e
  · have before : Stands s (takeValidFrame s) := port_stands rfl
    exact (before.runs.trans (h _)).trans (port_stands rfl).runs
  · exact (takeBadFrame_runs s).runs

/-- A request that reports and changes nothing. -/
theorem report_runs {kind : Byte} {r : Req} {s t : State} {block : State → Reply}
    (e : request kind r s block = .next t) (h : ∀ u, (block u).st = u) : Runs s t :=
  request_runs (fun u => by rw [h]; exact .refl u) e

theorem inRun_runs {s : State} {k : Reply} (h : s.mode = .run → Runs s k.st) : Runs s (inRun s k).st :=
  inRun_keeps h (.refl s)

theorem inSetup_runs {s : State} {k : Reply} (h : s.mode = .setup → Runs s k.st) : Runs s (inSetup s k).st :=
  inSetup_keeps h (.refl s)

theorem admitting_runs {ok : Bool} {s : State} {k : Reply} (h : Runs s k.st) : Runs s (admitting ok s k).st :=
  admitting_keeps h (.refl s)

theorem formed_runs {α : Type} {f : Option α} {s : State} {k : α → Reply} (h : ∀ x, Runs s (k x).st) :
    Runs s (formed f s k).st := formed_keeps (fun x _ => h x) (.refl s)

theorem checked_runs {α : Type} {e : Except Code α} {s : State} {k : α → Reply} (h : ∀ x, e = .ok x → Runs s (k x).st) :
    Runs s (checked e s k).st := checked_keeps h (.refl s)

theorem reached_runs {h : Handle} {s : State} {k : Order → Reply} (hk : ∀ o, s.order? h = some o → Runs s (k o).st) :
    Runs s (reached h s k).st := reached_keeps hk (.refl s)

theorem done_stands {s t : State} {b : List Byte} (h : Stands s t) : Runs s (done t b).st := h.runs

theorem done_runs {s t : State} {b : List Byte} (h : RunsOn s t) : Runs s (done t b).st := h.runs

/-! ### Orders -/

theorem checkPosition_drives {s : State} {a : Actuator} {c : Cls} {p : Option Handle} {u : Unit}
    (h : checkPosition s a c p = .ok u) : (s.lane a).state ≠ .down := by
  unfold checkPosition at h
  obtain ⟨_, drives, -⟩ := Except.bind_eq_ok h
  simpa using require_ok drives

theorem checkPlace_drives {s : State} {c : Cls} {f : PlaceForm} {o : Order} (h : checkPlace s c f = .ok o) :
    (s.lane o.actuator).state ≠ .down := by
  unfold checkPlace at h
  obtain ⟨a, -, h⟩ := Except.bind_eq_ok h
  obtain ⟨_, -, h⟩ := Except.bind_eq_ok h
  obtain ⟨_, -, h⟩ := Except.bind_eq_ok h
  obtain ⟨_, -, h⟩ := Except.bind_eq_ok h
  obtain ⟨_, -, h⟩ := Except.bind_eq_ok h
  obtain ⟨_, -, h⟩ := Except.bind_eq_ok h
  obtain ⟨_, -, h⟩ := Except.bind_eq_ok h
  obtain ⟨_, position, h⟩ := Except.bind_eq_ok h
  cases h
  exact checkPosition_drives position

theorem checkIssue_drives {s : State} {c : Cls} {f : IssueForm} {o : Order} (h : checkIssue s c f = .ok o) :
    (s.lane o.actuator).state ≠ .down := by
  unfold checkIssue at h
  obtain ⟨t, -, h⟩ := Except.bind_eq_ok h
  cases ht : s.template t with
  | none => rw [ht] at h; cases h
  | some m =>
    rw [ht] at h
    obtain ⟨_, -, h⟩ := Except.bind_eq_ok h
    obtain ⟨_, -, h⟩ := Except.bind_eq_ok h
    obtain ⟨_, -, h⟩ := Except.bind_eq_ok h
    obtain ⟨_, position, h⟩ := Except.bind_eq_ok h
    cases h
    exact checkPosition_drives position

theorem execPlace_runs {r : Req} {s t : State} (e : execPlace r s = .next t) : Runs s t := by
  unfold execPlace at e
  exact request_runs (fun _ => inRun_runs fun run => formed_runs fun _ => checked_runs fun _ ho =>
    (placed_runs run (checkPlace_drives ho)).runs) e

theorem execIssue_runs {r : Req} {s t : State} (e : execIssue r s = .next t) : Runs s t := by
  unfold execIssue at e
  exact request_runs (fun _ => inRun_runs fun run => formed_runs fun _ => checked_runs fun _ ho =>
    (placed_runs run (checkIssue_drives ho)).runs) e

theorem execAmend_runs {r : Req} {s t : State} (e : execAmend r s = .next t) : Runs s t := by
  unfold execAmend at e
  refine request_runs (fun u => inRun_runs fun _ => formed_runs fun f => checked_runs fun h _ => reached_runs fun o _ => ?_) e
  split
  · exact checked_runs fun _ _ => (amendOrder_stands h o f u).runs
  · exact .refl u

theorem execRenew_runs {r : Req} {s t : State} (e : execRenew r s = .next t) : Runs s t := by
  unfold execRenew at e
  refine request_runs (fun u => inRun_runs fun _ => formed_runs fun f => checked_runs fun h _ => reached_runs fun o _ => ?_) e
  split
  · exact done_stands (updOrder_stands fun _ => ⟨rfl, rfl, rfl⟩)
  · exact .refl u

theorem execWithdraw_runs {r : Req} {s t : State} (e : execWithdraw r s = .next t) : Runs s t := by
  unfold execWithdraw at e
  refine request_runs (fun u => inRun_runs fun _ => formed_runs fun f => checked_runs fun h _ => reached_runs fun o _ => ?_) e
  split
  · exact (retire_runs h.slot .withdrawn u).runs
  · exact .refl u

/-! ### The plan store -/

theorem execDepth_runs {r : Req} {s t : State} (e : execDepth r s = .next t) : Runs s t := by
  unfold execDepth at e
  exact request_runs (fun u => admitting_runs (formed_runs fun d => checked_runs fun _ _ =>
    done_runs ((measureDepth_runs d u).trans (planNote_runs d _)))) e

theorem checkEntry_dormant {s : State} {f : EntryForm} {e : EntryIx} {x : PlanEntry} (h : checkEntry s f = .ok (e, x)) :
    x.state = .dormant := by
  unfold checkEntry at h
  obtain ⟨_, -, h⟩ := Except.bind_eq_ok h
  obtain ⟨_, -, h⟩ := Except.bind_eq_ok h
  obtain ⟨_, -, h⟩ := Except.bind_eq_ok h
  obtain ⟨_, -, h⟩ := Except.bind_eq_ok h
  obtain ⟨_, -, h⟩ := Except.bind_eq_ok h
  obtain ⟨_, -, h⟩ := Except.bind_eq_ok h
  obtain ⟨_, -, h⟩ := Except.bind_eq_ok h
  cases h
  rfl

theorem execPutEntry_runs {r : Req} {s t : State} (e : execPutEntry r s = .next t) : Runs s t := by
  unfold execPutEntry at e
  refine request_runs (fun u => admitting_runs (formed_runs fun f => checked_runs fun (en, x) hx => ?_)) e
  dsimp only
  split
  · exact .refl u
  · exact (setEntry_stands (.inr fun y hy => by cases hy; exact checkEntry_dormant hx)).runs

theorem dropEntry_stands (s : State) (b : BankIx) (e : EntryIx) : Stands s (s.setEntry b e none) :=
  setEntry_stands (.inr fun _ h => by cases h)

theorem emptyBank_stands (b : BankIx) (s : State) : Stands s (emptyBank b s) :=
  Stands.foldl (fun s e => dropEntry_stands s b e) allEntries s

/-! ### The map -/

theorem checkMap_ok {s : State} {f : Nat × Nat} {a : Actuator} {c : Chan} (h : checkMap s f = .ok (a, c)) :
    kindsMatch a c = true ∧ (s.chan c).fault = none ∧ ∀ b, s.assignee c = some b → b = a := by
  unfold checkMap at h
  obtain ⟨_, -, h⟩ := Except.bind_eq_ok h
  obtain ⟨_, -, h⟩ := Except.bind_eq_ok h
  obtain ⟨_, fits, h⟩ := Except.bind_eq_ok h
  obtain ⟨_, free, h⟩ := Except.bind_eq_ok h
  cases h
  have fits := require_ok fits
  have free := require_ok free
  rw [Bool.and_eq_true, decide_eq_true_iff] at fits
  refine ⟨fits.1, fits.2, fun b hb => ?_⟩
  rw [hb] at free
  exact of_decide_eq_true free

theorem execMapActuator_runs {r : Req} {s t : State} (e : execMapActuator r s = .next t) : Runs s t := by
  unfold execMapActuator at e
  exact request_runs (fun u => admitting_runs (formed_runs fun f => checked_runs fun (a, c) hx => by
    obtain ⟨kind, ok, free⟩ := checkMap_ok hx
    exact (Act.maps kind ok free).runs)) e

theorem checkSpare_kind {f : Nat × Nat} {a : Actuator} {x : Option Chan} (h : checkSpare f = .ok (a, x)) :
    ∀ c, x = some c → kindsMatch a c = true := by
  unfold checkSpare at h
  obtain ⟨_, -, h⟩ := Except.bind_eq_ok h
  split at h
  · cases h; intro c hc; cases hc
  · obtain ⟨_, -, h⟩ := Except.bind_eq_ok h
    obtain ⟨_, kind, h⟩ := Except.bind_eq_ok h
    cases h
    intro c hc
    cases hc
    exact require_ok kind

theorem execSpare_runs {r : Req} {s t : State} (e : execSpare r s = .next t) : Runs s t := by
  unfold execSpare at e
  exact request_runs (fun u => admitting_runs (formed_runs fun f => checked_runs fun (a, c) hx =>
    (setMap_stands (x := { u.mapAt a with spare := c }) rfl (.inr (checkSpare_kind hx))).runs)) e

theorem setFrozen_runs (r : Req) (on : Bool) (s : State) : Runs s (setFrozen r on s).st :=
  admitting_runs (formed_runs fun _ => checked_runs fun a _ =>
    (setMap_stands (x := { s.mapAt a with frozen := on }) rfl (.inl rfl)).runs)

theorem clearFault_stands (c : Chan) (s : State) : Stands s (s.setChan c { s.chan c with fault := none }) :=
  setChan_stands .inl fun _ _ _ _ => rfl

/-! ### Every request -/

theorem execSetDrift_runs {r : Req} {s t : State} (e : execSetDrift r s = .next t) : Runs s t := by
  unfold execSetDrift at e
  refine request_runs (fun u => admitting_runs (formed_runs fun f => checked_runs fun _ _ => ?_)) e
  exact done_runs (seedDrift_runs f.1 f.2 u)

theorem execSetCalibration_runs {r : Req} {s t : State} (e : execSetCalibration r s = .next t) : Runs s t := by
  unfold execSetCalibration at e
  refine request_runs (fun u => inSetup_runs fun _ => admitting_runs (formed_runs fun f => checked_runs fun a _ => ?_)) e
  exact done_stands (.of_tables rfl rfl rfl rfl rfl rfl rfl)

theorem applyLink_stands (f : Option Nat × Option Nat) (s : State) : Stands s (applyLink f s) := by
  unfold applyLink
  exact port_stands rfl

theorem execSetLink_runs {r : Req} {s t : State} (e : execSetLink r s = .next t) : Runs s t := by
  unfold execSetLink at e
  refine request_runs (fun u => inSetup_runs fun _ => admitting_runs (formed_runs fun f => checked_runs fun _ _ => ?_)) e
  exact (applyLink_stands f u).runs

theorem execStart_runs {r : Req} {s t : State} (e : execStart r s = .next t) : Runs s t := by
  unfold execStart at e
  refine request_runs (fun u => inSetup_runs fun setup => admitting_runs (formed_runs fun _ => ?_)) e
  exact StepKeeps.done_keeps (P := Runs u) (startRun_runs setup)

theorem execStatus_runs {r : Req} {s t : State} (e : execStatus r s = .next t) : Runs s t := by
  unfold execStatus at e
  refine request_runs (fun u => formed_runs fun _ => ?_) e
  exact done_stands (.of_tables rfl rfl rfl rfl rfl rfl rfl)

theorem execUnknownRequest_runs {r : Req} {kind : Byte} {s t : State} (e : execUnknownRequest r kind s = .next t) :
    Runs s t := by
  unfold execUnknownRequest at e
  split at e
  · cases e; exact .refl s
  · exact report_runs e fun _ => rfl

/-- The acts of a request. -/
theorem requests_run : ∀ c r k s t, frameOf c = some (r, k) → exec c s = .next t → Runs s t := by
  intro c r k s t f e
  cases c with
  | place r => exact execPlace_runs e
  | issue r => exact execIssue_runs e
  | amend r => exact execAmend_runs e
  | renew r => exact execRenew_runs e
  | withdraw r => exact execWithdraw_runs e
  | query r =>
    unfold exec execQuery at e
    exact report_runs e fun _ => StepKeeps.formed_reports fun _ => StepKeeps.checked_reports fun _ =>
      StepKeeps.reached_reports fun _ => rfl
  | list r =>
    unfold exec execList at e
    exact report_runs e fun _ => StepKeeps.formed_reports fun _ => StepKeeps.checked_reports fun (_, _) => rfl
  | lowest r =>
    unfold exec execLowest at e
    exact request_runs (fun u => inRun_runs fun run => admitting_runs (formed_runs fun f => checked_runs fun a _ =>
      (setLowest_runs run a f.2).runs)) e
  | mask r =>
    unfold exec execMask at e
    exact request_runs (fun u => inRun_runs fun run => admitting_runs (formed_runs fun f => checked_runs fun a _ =>
      (setMask_runs run a f.2 true).runs)) e
  | unmask r =>
    unfold exec execUnmask at e
    exact request_runs (fun u => inRun_runs fun run => admitting_runs (formed_runs fun f => checked_runs fun a _ =>
      (setMask_runs run a f.2 false).runs)) e
  | yield r =>
    unfold exec execYield at e
    exact request_runs (fun u => inRun_runs fun run => admitting_runs (formed_runs fun f => checked_runs fun a _ =>
      (setYield_runs run a f.2).runs)) e
  | view r =>
    unfold exec execView at e
    exact report_runs e fun _ => StepKeeps.formed_reports fun _ => StepKeeps.checked_reports fun _ => rfl
  | setLimits r =>
    unfold exec execSetLimits at e
    exact request_runs (fun u => inSetup_runs fun _ => admitting_runs (formed_runs fun f => checked_runs fun a _ =>
      done_stands (updLane_stands ⟨rfl, rfl, rfl, rfl, rfl, fun _ => id, fun _ => id, fun _ => id⟩))) e
  | setSettle r =>
    unfold exec execSetSettle at e
    exact request_runs (fun u => inSetup_runs fun _ => admitting_runs (formed_runs fun f => checked_runs fun a _ =>
      (applySettle_stands a f u).runs)) e
  | setInterlock r =>
    unfold exec execSetInterlock at e
    exact request_runs (fun u => inSetup_runs fun _ => admitting_runs (formed_runs fun f => checked_runs fun w _ =>
      (setInterlock_stands u w _).runs)) e
  | depth r => exact execDepth_runs e
  | setDrift r => exact execSetDrift_runs e
  | readPoints r =>
    unfold exec execReadPoints at e
    exact report_runs e fun _ => StepKeeps.formed_reports fun _ => StepKeeps.checked_reports fun _ => rfl
  | setModule r =>
    unfold exec execSetModule at e
    exact request_runs (fun u => inSetup_runs fun _ => admitting_runs (formed_runs fun f => checked_runs fun _ _ =>
      (applyModule_runs f u).runs)) e
  | setDepthStale r =>
    unfold exec execSetDepthStale at e
    exact request_runs (fun u => inSetup_runs fun _ => admitting_runs (formed_runs fun n => checked_runs fun _ _ =>
      (applyDepthStale_runs n u).runs)) e
  | putEntry r => exact execPutEntry_runs e
  | dropEntry r =>
    unfold exec execDropEntry at e
    exact request_runs (fun u => admitting_runs (formed_runs fun _ => checked_runs fun en _ =>
      (dropEntry_stands u _ en).runs)) e
  | clearShadow r =>
    unfold exec execClearShadow at e
    exact request_runs (fun u => admitting_runs (formed_runs fun _ => (emptyBank_stands _ u).runs)) e
  | readEntry r =>
    unfold exec execReadEntry at e
    exact report_runs e fun _ => StepKeeps.admitting_reports (StepKeeps.formed_reports fun _ =>
      StepKeeps.checked_reports fun _ => rfl)
  | swap r =>
    unfold exec execSwap at e
    exact request_runs (fun u => admitting_runs (formed_runs fun _ => (swapBanks_runs u).runs)) e
  | mapActuator r => exact execMapActuator_runs e
  | spare r => exact execSpare_runs e
  | freezeMap r =>
    unfold exec execFreezeMap at e
    exact request_runs (setFrozen_runs r true) e
  | thaw r =>
    unfold exec execThaw at e
    exact request_runs (setFrozen_runs r false) e
  | clearFault r =>
    unfold exec execClearFault at e
    exact request_runs (fun u => admitting_runs (formed_runs fun _ => checked_runs fun c _ =>
      (clearFault_stands c u).runs)) e
  | setLocal r =>
    unfold exec execSetLocal at e
    exact request_runs (fun u => admitting_runs (formed_runs fun f => checked_runs fun c _ =>
      (setLocalDuty_stands c f.2 u).runs)) e
  | forceLocal r =>
    unfold exec execForceLocal at e
    exact request_runs (fun u => admitting_runs (formed_runs fun _ => checked_runs fun c _ =>
      (forceChan_stands c u).runs)) e
  | restore r =>
    unfold exec execRestore at e
    exact request_runs (fun u => admitting_runs (formed_runs fun _ => checked_runs fun c _ =>
      (restoreChan_stands c u).runs)) e
  | readChannel r =>
    unfold exec execReadChannel at e
    exact report_runs e fun _ => StepKeeps.formed_reports fun _ => StepKeeps.checked_reports fun _ => rfl
  | setCalibration r => exact execSetCalibration_runs e
  | putTemplate r =>
    unfold exec execPutTemplate at e
    exact request_runs (fun u => admitting_runs (formed_runs fun _ => checked_runs fun (_, _) _ =>
      done_stands (.of_tables rfl rfl rfl rfl rfl rfl rfl))) e
  | readTemplate r =>
    unfold exec execReadTemplate at e
    exact report_runs e fun _ => StepKeeps.formed_reports fun _ => StepKeeps.checked_reports fun _ => rfl
  | setFallback r =>
    unfold exec execSetFallback at e
    exact request_runs (fun u => admitting_runs (formed_runs fun _ => checked_runs fun (_, _) _ =>
      done_stands (.of_tables rfl rfl rfl rfl rfl rfl rfl))) e
  | setHalt r =>
    unfold exec execSetHalt at e
    exact request_runs (fun u => admitting_runs (formed_runs fun _ => checked_runs fun (_, _) _ =>
      done_stands (.of_tables rfl rfl rfl rfl rfl rfl rfl))) e
  | halt r =>
    unfold exec execHalt at e
    exact request_runs (fun u => inRun_runs fun run => admitting_runs (formed_runs fun _ =>
      done_runs (internalIssue_runs .halt run))) e
  | setLink r => exact execSetLink_runs e
  | start r => exact execStart_runs e
  | restart r =>
    unfold exec execRestart at e
    exact request_runs (fun u => inRun_runs fun _ => admitting_runs (formed_runs fun _ => Act.restarts.runs)) e
  | status r => exact execStatus_runs e
  | unknownRequest r kind => exact execUnknownRequest_runs e
  | _ => cases f

/-! ### The events -/

theorem listen_stands (rx : Receiver) (s : State) : Stands s (listen rx s) := by
  unfold listen
  split
  · exact port_stands rfl
  · exact port_stands rfl

theorem takeBytes_runs {bytes : List Byte} {s t : State} (e : takeBytes bytes s = .next t) : Runs s t :=
  takeBytes_keeps (P := Runs s) (fun u rx h => h.trans (listen_stands rx u).runs)
    (fun u h => h.trans (takeBadFrame_runs u).runs) (fun c r k u v f e h => h.trans (requests_run c r k u v f e))
    bytes s t e (.refl s)

theorem execInterByteTimeout_runs {bytes : List Byte} {s t : State} (e : execInterByteTimeout bytes s = .next t) :
    Runs s t := by
  unfold execInterByteTimeout at e
  split at e
  · next u hu =>
    have taken := takeBytes_runs hu
    split at e <;> obtain rfl := Host.Outcome.next.inj e
    · exact taken
    · exact taken.trans (takeBadFrame_runs u).runs
  · next o ho => exact absurd e (ho t)

theorem execSilenceExpiry_runs {s t : State} (e : execSilenceExpiry s = .next t) : Runs s t := by
  unfold execSilenceExpiry at e
  split at e <;> obtain rfl := Host.Outcome.next.inj e
  · exact (enterLost_runs _ s).runs
  · exact .refl s

theorem execFrameSent_runs {s t : State} (e : execFrameSent s = .next t) : Runs s t := by
  unfold execFrameSent at e
  split at e
  · cases e; exact .refl s
  · split at e <;> obtain rfl := Host.Outcome.next.inj e
    · exact (port_stands rfl).runs
    · exact .refl s

theorem execLeaseExpiry_runs {h : Handle} {s t : State} (e : execLeaseExpiry h s = .next t) : Runs s t := by
  unfold execLeaseExpiry at e
  split at e
  · split at e <;> obtain rfl := Host.Outcome.next.inj e
    · exact (retire_runs _ _ s).runs
    · exact .refl s
  · cases e; exact .refl s

theorem execControlInterval_runs {a : Actuator} {s t : State} (e : execControlInterval a s = .next t) : Runs s t := by
  unfold execControlInterval at e
  split at e <;> obtain rfl := Host.Outcome.next.inj e
  · next due =>
    have timed : Stands s (s.updLane a fun l => { l with interval := some 0 }) :=
      updLane_stands ⟨rfl, rfl, rfl, rfl, rfl, fun _ => id, fun _ none => by simp [Lane.intervalDue, none] at due,
        fun _ => id⟩
    exact (timed.trans (moveCommand_stands a _)).runs
  · exact .refl s

theorem execSettleDwellExpiry_runs {a : Actuator} {s t : State} (e : execSettleDwellExpiry a s = .next t) : Runs s t := by
  unfold execSettleDwellExpiry at e
  split at e
  · next driven governs =>
    split at e <;> obtain rfl := Host.Outcome.next.inj e
    · have detects : Stands s (setDetector a .settled s) := setDetector_stands (.inl (by rw [driven]; simp))
      exact (detects.thenRuns (settleOrder_runs (governing_eq_some.1 governs).2)).runs
    · exact .refl s
  · cases e; exact .refl s

theorem execGateTravelComplete_runs {s t : State} (e : execGateTravelComplete s = .next t) : Runs s t := by
  unfold execGateTravelComplete at e
  split at e <;> obtain rfl := Host.Outcome.next.inj e
  · next due =>
    have completes : Stands s { s with travel := .complete } :=
      travel_stands fun _ cleared => by simp [State.travelDue, cleared] at due
    exact (completes.thenRuns (settleGate_runs _)).runs
  · exact .refl s

theorem execGuardDwellExpiry_runs {h : Handle} {g : Fin 2} {s t : State} (e : execGuardDwellExpiry h g s = .next t) :
    Runs s t := by
  unfold execGuardDwellExpiry at e
  split at e
  · cases e; exact .refl s
  · split at e
    · cases e; exact .refl s
    · split at e <;> obtain rfl := Host.Outcome.next.inj e
      · exact (guardAct_runs _ _ _ s).runs
      · exact .refl s

theorem execModuleStaleExpiry_runs {m : Module} {s t : State} (e : execModuleStaleExpiry m s = .next t) : Runs s t := by
  unfold execModuleStaleExpiry at e
  split at e <;> obtain rfl := Host.Outcome.next.inj e
  · exact (staleModule_runs m s).runs
  · exact .refl s

theorem execDepthStaleExpiry_runs {s t : State} (e : execDepthStaleExpiry s = .next t) : Runs s t := by
  unfold execDepthStaleExpiry at e
  split at e <;> obtain rfl := Host.Outcome.next.inj e
  · exact (staleDepth_runs s).runs
  · exact .refl s

theorem execDirectSample_runs {p : DirectPoint} {i : Nat} {v : Int} {s t : State}
    (e : execDirectSample p i v s = .next t) : Runs s t := by
  unfold execDirectSample at e
  split at e <;> obtain rfl := Host.Outcome.next.inj e
  · exact (takeDirect_runs p _ s).runs
  · exact (takeDirect_runs p _ s).runs
  · exact (recoverDirect_runs p _ s).runs
  · exact (faultDirect_runs p s).runs
  · exact (faultDirect_runs p s).runs
  · exact (setDirect_stands s p _).runs

theorem execModuleReadingFrame_runs {bytes : List Byte} {s t : State} (e : execModuleReadingFrame bytes s = .next t) :
    Runs s t := by
  unfold execModuleReadingFrame at e
  split at e
  · cases e; exact .refl s
  · split at e
    · cases e; exact .refl s
    · split at e <;> obtain rfl := Host.Outcome.next.inj e
      · exact (goodFrame_runs _ _ s).runs
      · exact (badModuleFrame_runs _ s).runs

theorem assigned_of_assignee {s : State} {c : Chan} {a : Actuator} (h : s.assignee c = some a) :
    (s.mapAt a).assigned = some c := by simpa using List.find?_some h

theorem not_assigned_of_assignee {s : State} {c : Chan} (h : s.assignee c = none) (a : Actuator) :
    (s.mapAt a).assigned ≠ some c := by
  have := List.find?_eq_none.1 h a (by simp [allActuators])
  simpa using this

/-- A fault report beyond the health of the channel does nothing but on an assigned channel that was OK, in RUN. -/
theorem faulted_stands {s : State} {c : Chan} (k : FaultKind)
    (idle : ∀ a, s.mode = .run → (s.mapAt a).assigned = some c → (s.chan c).fault = none → False) :
    Stands s (faulted c k s) :=
  setChan_stands .inl fun a run assigned ok => (idle a run assigned ok).elim

theorem execChannelFaultReport_runs {c : Chan} {k : FaultKind} {s t : State}
    (e : execChannelFaultReport c k s = .next t) : Runs s t := by
  unfold execChannelFaultReport at e
  dsimp only at e
  split at e
  · next acts =>
    split at e
    · next free =>
      cases e
      exact (faulted_stands k fun a _ assigned _ => not_assigned_of_assignee free a assigned).runs
    · next a assigned =>
      split at e <;> obtain rfl := Host.Outcome.next.inj e
      · next sp spare => exact (Act.moves acts.1 assigned spare).runs.trans (queueNotice_stands _ _ _).runs
      · exact (Act.downs k acts.1 assigned).runs
  · next idle =>
    cases e
    exact (faulted_stands k fun _ run _ ok => idle ⟨run, ok⟩).runs

/-! ### Every command and every step -/

theorem exec_runs : ∀ c s t, exec c s = .next t → Runs s t := by
  intro c s t e
  cases c with
  | powerOn => cases e; exact Act.powers.runs
  | badFrame bytes => exact takeBytes_runs e
  | interByteTimeout bytes => exact execInterByteTimeout_runs e
  | silenceExpiry => exact execSilenceExpiry_runs e
  | frameSent => exact execFrameSent_runs e
  | leaseExpiry h => exact execLeaseExpiry_runs e
  | controlInterval a => exact execControlInterval_runs e
  | settleDwellExpiry a => exact execSettleDwellExpiry_runs e
  | gateTravelComplete => exact execGateTravelComplete_runs e
  | guardDwellExpiry h g => exact execGuardDwellExpiry_runs e
  | moduleStaleExpiry m => exact execModuleStaleExpiry_runs e
  | depthStaleExpiry => exact execDepthStaleExpiry_runs e
  | directSample p i v => exact execDirectSample_runs e
  | moduleReadingFrame bytes => exact execModuleReadingFrame_runs e
  | channelFaultReport c k => exact execChannelFaultReport_runs e
  | unknownRequest r kind => exact execUnknownRequest_runs e
  | _ => exact requests_run _ _ _ s t rfl e

/-- A step is a chain of acts: a command of the queue, an expiry that is due, or one millisecond. -/
theorem step_runs {s t : State} (e : step s = .next t) : Runs s t := by
  unfold step at e
  split at e
  · next rest _ =>
    have taken : Stands s { s with pending := rest } := port_stands rfl
    exact taken.runs.trans (exec_runs _ _ _ e)
  · unfold idle at e
    split at e
    · cases e; exact (tick_stands s).runs
    · exact exec_runs _ _ _ e
    · exact exec_runs _ _ _ e
    · exact (draws_stands s (s.draws + 1)).runs.trans (exec_runs _ _ _ e)

/-- What every act keeps, every step keeps. -/
theorem step_keeps {P : State → Prop} (acts : ∀ {s t}, Act s t → P s → P t) {s t : State} (e : step s = .next t)
    (h : P s) : P t := by
  exact Relation.ReflTransGen.rec h (fun _ act ih => acts act ih) (step_runs e)

end Sys2Proof.Machine
end

section
/-! SETUP keeps no orders, lanes OFF, no channel in ORDER and entries DORMANT. -/

namespace Sys2Proof.Machine

theorem mode_run_of_not_setup {s : State} (h : s.mode ≠ .setup) : s.mode = .run := by
  cases m : s.mode with
  | setup => exact absurd m h
  | run => rfl

theorem SetupLaw.of_run {s : State} (run : s.mode = .run) : SetupLaw s where
  noOrders setup := by rw [run] at setup; cases setup
  lanesOff setup := by rw [run] at setup; cases setup
  travelCleared setup := by rw [run] at setup; cases setup
  noOrderMode setup := by rw [run] at setup; cases setup
  dormant setup := by rw [run] at setup; cases setup

/-- An order is live in RUN alone. -/
theorem SetupLaw.run_of_live {s : State} (h : SetupLaw s) {i : Slot} {o : Order} (live : s.orderAt i = some o) :
    s.mode = .run :=
  mode_run_of_not_setup fun setup => by rw [h.noOrders setup i] at live; cases live

theorem Stands.setup {s t : State} (h : Stands s t) (law : SetupLaw s) : SetupLaw t where
  noOrders setup i := by
    cases hp : t.orderAt i with
    | none => rfl
    | some p =>
      obtain ⟨o, live, -⟩ := h.slots.was hp
      rw [law.noOrders (h.mode.symm.trans setup) i] at live
      cases live
  lanesOff setup a := by
    obtain ⟨off, gov, command, interval, detector⟩ := law.lanesOff (h.mode.symm.trans setup) a
    have lane := h.lanes a
    exact ⟨lane.state.trans off, lane.gov.trans gov, lane.command (.inl off) command, lane.interval off interval,
      lane.detector off detector⟩
  travelCleared setup := by
    have setup := h.mode.symm.trans setup
    exact h.travel (law.lanesOff setup gate).1 (law.travelCleared setup)
  noOrderMode setup c mode := by
    have setup := h.mode.symm.trans setup
    rcases h.order c mode with was | run
    · exact law.noOrderMode setup c was
    · rw [run] at setup; cases setup
  dormant setup b e x hx := by
    have setup := h.mode.symm.trans setup
    rcases h.entries setup b e x hx with dormant | was
    · exact dormant
    · exact law.dormant setup b e x was

/-- An assignment in SETUP. -/
theorem SetupLaw.assign {s : State} (law : SetupLaw s) (a : Actuator) (c : Option Chan) : SetupLaw (assign a c s) where
  noOrders := law.noOrders
  lanesOff := law.lanesOff
  travelCleared := law.travelCleared
  noOrderMode := law.noOrderMode
  dormant := law.dormant

theorem setupLaw_restart (s : State) : SetupLaw (restartRun s) where
  noOrders _ i := by rw [State.orderAt, restartRun_slot, freed_order]
  lanesOff _ a := by rw [restartRun_lane]; exact ⟨rfl, rfl, rfl, rfl, rfl⟩
  travelCleared _ := by
    obtain ⟨_, _, _, _, _, e⟩ := restartRun_writes s
    rw [e]
  noOrderMode _ c := by
    rw [restartRun_chan]
    split
    · simp
    · assumption
  dormant _ b e x hx := by
    rw [restartRun_entry] at hx
    obtain ⟨y, -, rfl⟩ := Option.map_eq_some_iff.1 hx
    rfl

theorem Act.setup {s t : State} (h : Act s t) (law : SetupLaw s) : SetupLaw t := by
  cases h with
  | stands h => exact h.setup law
  | resolves run _ => exact .of_run ((resolve_frame _ _).blocks.mode.trans run)
  | holds live _ => exact .of_run ((takeHolds_frame _ s).blocks.mode.trans (law.run_of_live (order?_eq_some live).2))
  | settles live => exact .of_run ((settleOrder_frame _ s).blocks.mode.trans (law.run_of_live (order?_eq_some live).2))
  | retires c live => exact .of_run ((retireCore_frame true _ c s).blocks.mode.trans (law.run_of_live live))
  | places run _ => exact .of_run ((placeOrder_tables _ s).2.mode.trans run)
  | moves run _ _ => exact .of_run ((moveActuator_steady _ _ _).store.1.trans run)
  | downs k run _ => exact .of_run ((actuatorDown_steady _ _ _).store.1.trans run)
  | maps _ _ _ =>
    unfold applyMap
    split
    · exact law
    · split
      · exact law.assign _ _
      · next notSetup =>
        have run := mode_run_of_not_setup notSetup
        split
        · exact .of_run ((bringBack_steady _ _ s).store.1.trans run)
        · exact .of_run ((moveActuator_steady _ _ s).store.1.trans run)
  | starts _ => exact .of_run (startLanes_steady { s with mode := .run }).store.1
  | restarts => exact setupLaw_restart s
  | powers =>
    have reset := lawsHoldAtReset.1
    exact ⟨reset.noOrders, reset.lanesOff, reset.travelCleared, reset.noOrderMode, reset.dormant⟩

/-- Settles O53. -/
theorem everyStepKeepsSetupLaw : Obligations.EveryStepKeepsSetupLaw := fun _ _ e => step_keeps Act.setup e

end Sys2Proof.Machine
end

section
/-! What a resolution makes of its lane (R31, R50, R60), and that the engine brings no lane into DOWN or out of it. -/

namespace Sys2Proof.Machine

/-! ### The lane after its holds are taken -/

/-- The step that is taken on the GATE alone. -/
theorem stepOnGate_lane (a : Actuator) (v : Int) (s : State) : (if a = gate then gateStep v s else s).lane a =
    { s.lane a with command := if a = gate then some v else (s.lane a).command } := by
  by_cases onGate : a = gate
  · subst onGate; simp only [if_true]; exact gateStep_lane v s
  · simp only [if_neg onGate]

theorem takeHolds_rests {a : Actuator} {s : State} (none : s.governing a = none) : (takeHolds a s).lane a =
    { s.lane a with
      gov := Option.none, maskHold := false, guardHold := false, state := .rest, detector := .idle
      command := if a = gate then some 0 else (s.lane a).command } := by
  simp only [takeHolds, none]
  rw [stepOnGate_lane, lane_updLane, if_pos rfl]

theorem takeHolds_holds {a : Actuator} {s : State} {h : Handle} {o : Order} (gov : s.governing a = some (h, o))
    (held : ((s.lane a).masked o.cls || o.frozen) = true) : takeHolds a s =
      (s.updOrder h.slot fun o => { o with settled := false }).updLane a fun l =>
        { l with maskHold := (s.lane a).masked o.cls, guardHold := o.frozen, state := .held, detector := .idle } := by
  simp only [takeHolds, gov, held, if_true]

theorem takeHolds_drives {a : Actuator} {s : State} {h : Handle} {o : Order} (gov : s.governing a = some (h, o))
    (free : ((s.lane a).masked o.cls || o.frozen) = false) : (takeHolds a s).lane a =
      { s.lane a with
        maskHold := false, guardHold := false, state := .driven
        command := if a = gate then some o.target else (s.lane a).command } := by
  simp only [takeHolds, gov, free, Bool.false_eq_true, if_false]
  rw [stepOnGate_lane, lane_updLane, if_pos rfl]

/-- A lane that takes its holds is in REST, DRIVEN or HELD. -/
theorem takeHolds_state (a : Actuator) (s : State) : ((takeHolds a s).lane a).state = .rest ∨
    ((takeHolds a s).lane a).state = .driven ∨ ((takeHolds a s).lane a).state = .held := by
  cases gov : s.governing a with
  | none => rw [takeHolds_rests gov]; exact .inl rfl
  | some p =>
    obtain ⟨h, o⟩ := p
    cases held : (s.lane a).masked o.cls || o.frozen with
    | false => rw [takeHolds_drives gov held]; exact .inr (.inl rfl)
    | true =>
      rw [takeHolds_holds gov held, lane_updLane, if_pos rfl]
      exact .inr (.inr rfl)

theorem takeHolds_up (a : Actuator) (s : State) : ((takeHolds a s).lane a).state ≠ .down := by
  rcases takeHolds_state a s with e | e | e <;> simp [e]

/-! ### DOWN is kept -/

/-- The lanes in DOWN are the same, with their commands. -/
structure DownKept (s t : State) : Prop where
  down : ∀ a, (t.lane a).state = .down ↔ (s.lane a).state = .down
  command : ∀ a, (s.lane a).state = .down → (t.lane a).command = (s.lane a).command

theorem DownKept.refl (s : State) : DownKept s s := ⟨fun _ => Iff.rfl, fun _ _ => rfl⟩

theorem DownKept.trans {s t u : State} (h : DownKept s t) (k : DownKept t u) : DownKept s u where
  down a := (k.down a).trans (h.down a)
  command a down := (k.command a ((h.down a).2 down)).trans (h.command a down)

theorem DownKept.of_lanes {s t : State} (h : t.lanes = s.lanes) : DownKept s t := by
  constructor <;> intro a <;> rw [lane_of_lanes h]
  exact fun _ => rfl

/-- One lane that is not DOWN is written, and is not DOWN then. -/
theorem DownKept.of_lane {s t : State} {a : Actuator} (others : ∀ b, b ≠ a → t.lane b = s.lane b)
    (before : (s.lane a).state ≠ .down) (after : (t.lane a).state ≠ .down) : DownKept s t where
  down b := by
    by_cases same : b = a
    · subst same; exact iff_of_false after before
    · rw [others b same]
  command b down := by
    rw [others b (by rintro rfl; exact before down)]

theorem updLane_downKept {s : State} {a : Actuator} {f : Lane → Lane} (state : (f (s.lane a)).state = (s.lane a).state)
    (command : (f (s.lane a)).command = (s.lane a).command) : DownKept s (s.updLane a f) where
  down b := by
    rw [lane_updLane]
    split
    · next same => subst same; rw [state]
    · rfl
  command b _ := by
    rw [lane_updLane]
    split
    · next same => subst same; exact command
    · rfl

theorem updOrder_downKept (s : State) (i : Slot) (f : Order → Order) : DownKept s (s.updOrder i f) :=
  .of_lanes (by simp)

theorem takeHolds_downKept {a : Actuator} {s : State} (up : (s.lane a).state ≠ .down) : DownKept s (takeHolds a s) :=
  .of_lane (takeHolds_resolves a s).lanes up (takeHolds_up a s)

theorem resolve_still {a : Actuator} {s : State} (still : (s.lane a).state = .off ∨ (s.lane a).state = .down) :
    resolve a s = s := if_pos still

theorem resolve_acts {a : Actuator} {s : State} (acts : ¬ ((s.lane a).state = .off ∨ (s.lane a).state = .down)) :
    resolve a s = takeHolds a (resolveChoice a (resolveYield a s)) := if_neg acts

theorem resolve_downKept (a : Actuator) (s : State) : DownKept s (resolve a s) := by
  by_cases still : (s.lane a).state = .off ∨ (s.lane a).state = .down
  · rw [resolve_still still]; exact .refl s
  · refine .of_lane (resolve_resolves a s).lanes (fun down => still (.inr down)) ?_
    rw [resolve_acts still]
    exact takeHolds_up a _

theorem retireOne_downKept (lane : Bool) (i : Slot) (c : Cause) (s : State) : DownKept s (retireOne lane i c s) := by
  cases live : s.orderAt i with
  | none => rw [retireOne_dead live]; exact .refl s
  | some o =>
    rw [retireOne_live live]
    have dropped : DownKept s (dropFromLane o.actuator o.cls (s.handleAt i) s) := updLane_downKept rfl rfl
    refine DownKept.trans ?_ (.of_lanes (freeSlot_leaves _ _ _ _ _).2.1)
    unfold leaveLane
    split
    · exact dropped.trans (resolve_downKept _ _)
    · exact dropped

/-- From any state on, the engine's writes keep DOWN. -/
theorem downKept_engine (s₀ : State) : EngineKeeps (DownKept s₀) (fun _ => True) (fun _ => True) where
  resolved h _ _ := h.trans (resolve_downKept _ _)
  waits _ _ _ := trivial
  settles _ _ := trivial
  lose h _ _ := h.trans (retireOne_downKept _ _ _ _)
  cond _ _ h _ := h.trans (updOrder_downKept _ _ _)
  trip h _ _ _ _ _ _ := h.trans (retireOne_downKept _ _ _ _)
  ready h _ _ := h.trans (updOrder_downKept _ _ _)
  settled h _ := h.trans (updOrder_downKept _ _ _)
  complete h _ _ _ _ := h.trans (retireOne_downKept _ _ _ _)

theorem retireCore_downKept (lane : Bool) (i : Slot) (c : Cause) (s : State) : DownKept s (retireCore lane i c s) :=
  (downKept_engine s).retireCore (.refl s) fun _ _ => retireOne_downKept lane i c s

theorem settleOrder_downKept (h : Handle) (s : State) : DownKept s (settleOrder h s) :=
  (downKept_engine s).settleOrder (.refl s) trivial

theorem settleGate_downKept (s : State) : DownKept s (settleGate s) := (downKept_engine s).settleGate (.refl s)

theorem supersede_downKept (a : Actuator) (c : Cls) (s : State) : DownKept s (supersede a c s) := by
  unfold supersede
  split
  · exact retireCore_downKept _ _ _ s
  · exact .refl s

theorem entered_downKept (o : Order) (i : Slot) (s : State) : DownKept s (entered o i s) := by
  have armed : DownKept s (armedNew o i s) := by
    unfold armedNew
    split
    · exact (downKept_engine s).armGuards trivial (.of_lanes (by simp [written]))
    · exact .of_lanes (by simp [written])
  unfold entered recordOrder
  split
  · exact armed.trans (updLane_downKept rfl rfl)
  · exact armed

theorem installOrder_downKept (o : Order) (i : Slot) (replaced : Bool) (s : State) :
    DownKept s (installOrder o i replaced s) := by
  rw [installOrder_eq]
  refine DownKept.trans ?_ (settleGate_downKept _)
  unfold resolvedNew
  split
  · exact (entered_downKept o i s).trans (resolve_downKept _ _)
  · exact entered_downKept o i s

theorem placeOrder_downKept (o : Order) (s : State) : DownKept s (placeOrder o s).1 := by
  have superseded := supersede_downKept o.actuator o.cls s
  cases free : (supersede o.actuator o.cls s).freeSlot? with
  | none => rw [placeOrder_full free]; exact superseded
  | some i => rw [placeOrder_free free]; exact superseded.trans (installOrder_downKept _ _ _ _)

theorem retireDriveLost_downKept (a : Actuator) (s : State) : DownKept s (retireDriveLost a s) := by
  rw [retireDriveLost_eq]
  exact List.foldlRecOn (motive := DownKept s) allSlots _ (.refl s) fun t h i _ =>
    driveTurn_keeps h fun _ _ _ => h.trans (retireCore_downKept _ _ _ t)

end Sys2Proof.Machine
end

section
/-! The map's law, and DOWN actuators without orders, the others with an OK channel (R34, R135). -/

namespace Sys2Proof.Machine

/-! ### Channels keep their health, and one assignment changes -/

theorem setChan_fault {s : State} {c : Chan} {x : ChanState} (h : x.fault = (s.chan c).fault) (d : Chan) :
    ((s.setChan c x).chan d).fault = (s.chan d).fault := by
  rw [chan_setChan]
  split
  · next same => subst same; exact h
  · rfl

theorem refreshChan_fault (c : Chan) (s : State) (d : Chan) : ((refreshChan c s).chan d).fault = (s.chan d).fault :=
  setChan_fault (x := { s.chan c with output := s.outputOf c }) rfl d

theorem releaseChan_fault (c : Chan) (s : State) (d : Chan) : ((releaseChan c s).chan d).fault = (s.chan d).fault :=
  setChan_fault (x := { s.chan c with mode := .released, output := 0 }) rfl d

theorem assign_chan (a : Actuator) (x : Option Chan) (s : State) (d : Chan) : (assign a x s).chan d = s.chan d := rfl

theorem moveActuator_fault (a : Actuator) (c : Chan) (s : State) (d : Chan) :
    ((moveActuator a c s).chan d).fault = (s.chan d).fault := by
  unfold moveActuator
  split
  · rw [refreshChan_fault, assign_chan, releaseChan_fault]
    refine setChan_fault ?_ d
    rfl
  · rw [refreshChan_fault, assign_chan]

/-- The assignment of the actuator `a` alone becomes `x`. -/
def Reassigned (a : Actuator) (x : Option Chan) (s t : State) : Prop :=
  ∀ b, t.mapAt b = if b = a then { s.mapAt a with assigned := x } else s.mapAt b

theorem Reassigned.of_map {s t u : State} {a : Actuator} {x : Option Chan} (h : Reassigned a x s t) (map : u.map = t.map) :
    Reassigned a x s u := fun b => (by rw [State.mapAt, map]; rfl : u.mapAt b = t.mapAt b).trans (h b)

theorem Reassigned.of_before {s t u : State} {a : Actuator} {x : Option Chan} (h : Reassigned a x t u) (map : t.map = s.map) :
    Reassigned a x s u := fun b => by
  have same : ∀ b, t.mapAt b = s.mapAt b := fun b => by rw [State.mapAt, map]; rfl
  rw [← same a, ← same b]
  exact h b

theorem assign_reassigned (a : Actuator) (x : Option Chan) (s : State) : Reassigned a x s (assign a x s) :=
  fun b => mapAt_setMap s a _ b

theorem moveActuator_reassigned (a : Actuator) (c : Chan) (s : State) : Reassigned a (some c) s (moveActuator a c s) := by
  unfold moveActuator
  split
  · exact ((assign_reassigned a (some c) _).of_before rfl).of_map rfl
  · exact (assign_reassigned a (some c) s).of_map rfl

theorem Reassigned.self {s t : State} {a : Actuator} {x : Option Chan} (h : Reassigned a x s t) :
    (t.mapAt a).assigned = x := by rw [h a, if_pos rfl]

theorem Reassigned.other {s t : State} {a b : Actuator} {x : Option Chan} (h : Reassigned a x s t) (apart : b ≠ a) :
    t.mapAt b = s.mapAt b := by rw [h b, if_neg apart]

theorem Reassigned.spare {s t : State} {a b : Actuator} {x : Option Chan} (h : Reassigned a x s t) :
    (t.mapAt b).spare = (s.mapAt b).spare := by
  rw [h b]
  split
  · next same => rw [same]
  · rfl

theorem laneRest_map (a : Actuator) (s : State) : (laneRest a s).map = s.map := by
  unfold laneRest
  dsimp only
  rw [(handCommand_frame a _).blocks.map]
  split <;> rfl

theorem bringBack_reassigned (a : Actuator) (c : Chan) (s : State) : Reassigned a (some c) s (bringBack a c s) := by
  refine (assign_reassigned a (some c) s).of_map ?_
  unfold bringBack
  dsimp only
  rw [laneRest_map]
  split <;> rfl

/-- MAP assigns, or finds the channel assigned. -/
theorem applyMap_reassigned (a : Actuator) (c : Chan) (s : State) : Reassigned a (some c) s (applyMap a c s) := by
  unfold applyMap
  split
  · next same =>
    intro b
    split
    · next e => rw [e, ← same]
    · rfl
  · split
    · exact assign_reassigned a (some c) s
    · split
      · exact bringBack_reassigned a c s
      · exact moveActuator_reassigned a c s

/-! ### The law of the map -/

theorem MapLaw.of_map {s t : State} (law : MapLaw s) (map : t.map = s.map) : MapLaw t := by
  have same : ∀ a, t.mapAt a = s.mapAt a := fun a => by rw [State.mapAt, map]; rfl
  exact ⟨fun a c h => law.assignedKind a c (same a ▸ h), fun a c h => law.spareKind a c (same a ▸ h),
    fun a b c h k => law.assignedOnce a b c (same a ▸ h) (same b ▸ k)⟩

theorem Stands.mapLaw {s t : State} (h : Stands s t) (law : MapLaw s) : MapLaw t where
  assignedKind a c hc := law.assignedKind a c (h.assigned a ▸ hc)
  spareKind a c hc := (h.spare a).elim (fun same => law.spareKind a c (same ▸ hc)) fun kinds => kinds c hc
  assignedOnce a b c ha hb := law.assignedOnce a b c (h.assigned a ▸ ha) (h.assigned b ▸ hb)

/-- A channel of the kind that no other actuator has is assigned, or none. -/
theorem Reassigned.mapLaw {s t : State} {a : Actuator} {x : Option Chan} (h : Reassigned a x s t) (law : MapLaw s)
    (kind : ∀ c, x = some c → kindsMatch a c = true)
    (free : ∀ b c, x = some c → (s.mapAt b).assigned = some c → b = a) : MapLaw t where
  assignedKind b c hc := by
    by_cases same : b = a
    · subst same; exact kind c (h.self.symm.trans hc)
    · rw [h.other same] at hc; exact law.assignedKind b c hc
  spareKind b c hc := law.spareKind b c (h.spare.symm.trans hc)
  assignedOnce b d c hb hd := by
    by_cases eb : b = a <;> by_cases ed : d = a
    · rw [eb, ed]
    · subst eb; rw [h.other ed] at hd; exact (free d c (h.self.symm.trans hb) hd).symm
    · subst ed; rw [h.other eb] at hb; exact free b c (h.self.symm.trans hd) hb
    · rw [h.other eb] at hb; rw [h.other ed] at hd; exact law.assignedOnce b d c hb hd

theorem usableSpare_eq_some {s : State} {a : Actuator} {sp : Chan} (h : s.usableSpare a = some sp) :
    (s.mapAt a).spare = some sp ∧ (s.chan sp).fault = none ∧ ∀ b, (s.mapAt b).assigned ≠ some sp := by
  unfold State.usableSpare at h
  split at h
  · next spare =>
    split at h
    · next good => cases h; exact ⟨spare, good.1, not_assigned_of_assignee good.2⟩
    · cases h
  · cases h

theorem moveActuator_mapLaw {s : State} {a : Actuator} {sp : Chan} (spare : s.usableSpare a = some sp) (law : MapLaw s) :
    MapLaw (moveActuator a sp s) := by
  obtain ⟨designated, -, free⟩ := usableSpare_eq_some spare
  exact (moveActuator_reassigned a sp s).mapLaw law (fun c e => by cases e; exact law.spareKind a sp designated)
    fun b c e hb => by cases e; exact absurd hb (free b)

/-- After the first steps of a DOWN the map is as after the whole of it. -/
theorem actuatorDown_reassigned (a : Actuator) (c : Chan) (s : State) : Reassigned a none s (actuatorDown a c s) := by
  rw [actuatorDown_eq]
  obtain ⟨-, -, -, -, -, map, -⟩ := unassigned_leaves a c s
  exact Reassigned.of_map map ((laneDown_leaves a _).2.2.2.2.1.trans (retireDriveLost_frame a _).blocks.map)

theorem applyMap_mapLaw {s : State} {a : Actuator} {c : Chan} (kind : kindsMatch a c = true)
    (free : ∀ b, s.assignee c = some b → b = a) (law : MapLaw s) : MapLaw (applyMap a c s) := by
  refine (applyMap_reassigned a c s).mapLaw law (fun d e => by cases e; exact kind) fun b d e hb => ?_
  cases e
  exact free b (assignee_some hb fun b' hb' => law.assignedOnce _ _ c hb' hb)

/-! ### The map at START -/

theorem leaveDown_reassigned (a : Actuator) (s : State) : Reassigned a none s (leaveDown a s) := by
  unfold leaveDown
  split
  · exact (assign_reassigned a none _).of_before rfl
  · next none =>
    intro b
    split
    · next e => rw [e, ← none]
    · rfl

/-- The test of one actuator: nothing where its channel is OK, else the move to a usable spare, else no assignment. -/
theorem testActuator_cases (r : StartRun) (a : Actuator) :
    (r.st.channelOk a = true ∧ testActuator r a = r) ∨
    (r.st.channelOk a = false ∧ ∃ sp, r.st.usableSpare a = some sp ∧ (testActuator r a).st =
      queueNotice .operator (.remapped a (r.st.mapAt a).assigned sp) (moveActuator a sp r.st)) ∨
    (r.st.channelOk a = false ∧ r.st.usableSpare a = none ∧ (testActuator r a).st =
      queueNotice .operator (.down a (r.st.mapAt a).assigned) (leaveDown a r.st)) := by
  unfold testActuator
  dsimp only
  cases ok : r.st.channelOk a with
  | true => exact .inl ⟨rfl, rfl⟩
  | false =>
    cases spare : r.st.usableSpare a with
    | some sp => exact .inr (.inl ⟨rfl, sp, rfl, rfl⟩)
    | none => exact .inr (.inr ⟨rfl, rfl, rfl⟩)

theorem testActuator_mapLaw (r : StartRun) (a : Actuator) (law : MapLaw r.st) : MapLaw (testActuator r a).st := by
  rcases testActuator_cases r a with ⟨-, e⟩ | ⟨-, sp, spare, e⟩ | ⟨-, -, e⟩
  · rw [e]; exact law
  · rw [e]
    exact (moveActuator_mapLaw spare law).of_map (by simp)
  · rw [e]
    exact ((leaveDown_reassigned a r.st).mapLaw law (fun _ h => by cases h) fun _ _ h => by cases h).of_map (by simp)

theorem enterOrder_map (s : State) (a : Actuator) : (enterOrder s a).map = s.map := by
  unfold enterOrder
  split
  · split <;> rfl
  · rfl

theorem leaveOff_map (s : State) (a : Actuator) : (leaveOff s a).map = s.map := by
  unfold leaveOff
  split
  · exact laneRest_map a s
  · exact (laneDown_leaves a s).2.2.2.2.1

/-- The states of START after its test of the map (R140), and after its channels have entered ORDER (R182). -/
def startTested (s : State) : State := (allActuators.foldl testActuator ⟨{ s with mode := .run }, 0, 0⟩).st

def startOrdered (s : State) : State := refreshFlags (allActuators.foldl enterOrder (startTested s))

theorem startLanes_eq (s : State) : startLanes s = allActuators.foldl leaveOff (startOrdered s) := rfl

theorem refreshFlags_map (s : State) : (refreshFlags s).map = s.map := rfl

theorem startOrdered_map (s : State) : (startOrdered s).map = (startTested s).map := by
  rw [startOrdered, refreshFlags_map]
  exact List.foldlRecOn (motive := fun t : State => t.map = (startTested s).map) allActuators enterOrder rfl
    fun t h a _ => (enterOrder_map t a).trans h

theorem startLanes_map (s : State) : (startLanes s).map = (startTested s).map := by
  rw [startLanes_eq]
  exact List.foldlRecOn (motive := fun t : State => t.map = (startTested s).map) allActuators leaveOff
    (startOrdered_map s) fun t h a _ => (leaveOff_map t a).trans h

theorem startTested_mapLaw {s : State} (law : MapLaw s) : MapLaw (startTested s) :=
  List.foldlRecOn (motive := fun r : StartRun => MapLaw r.st) allActuators testActuator (law.of_map rfl)
    fun r h a _ => testActuator_mapLaw r a h

/-! ### The law of the map through every act -/

theorem restartRun_map (s : State) : (restartRun s).map = s.map := by
  obtain ⟨_, _, _, _, _, e⟩ := restartRun_writes s
  rw [e]

theorem Act.mapLaw {s t : State} (h : Act s t) (law : MapLaw s) : MapLaw t := by
  cases h with
  | stands h => exact h.mapLaw law
  | resolves _ _ => exact law.of_map (resolve_frame _ _).blocks.map
  | holds _ _ => exact law.of_map (takeHolds_frame _ s).blocks.map
  | settles _ => exact law.of_map (settleOrder_frame _ s).blocks.map
  | retires c _ => exact law.of_map (retireCore_frame true _ c s).blocks.map
  | places _ _ => exact law.of_map (placeOrder_tables _ s).2.map
  | moves _ _ spare => exact moveActuator_mapLaw spare (law.of_map rfl)
  | downs k _ _ =>
    exact (actuatorDown_reassigned _ _ _).mapLaw (law.of_map rfl) (fun _ h => by cases h) fun _ _ h => by cases h
  | maps kind _ free => exact applyMap_mapLaw kind free law
  | starts _ => exact (startTested_mapLaw law).of_map (startLanes_map s)
  | restarts => exact law.of_map (restartRun_map s)
  | powers =>
    have reset := lawsHoldAtReset.2.2.2.1
    exact reset.of_map rfl

end Sys2Proof.Machine
end

section
/-! DOWN actuators stand still without orders, and in RUN the others have an OK channel (R34, R57, R135). -/

namespace Sys2Proof.Machine

/-! ### Operations that keep DOWN and the channels -/

/-- An actuator has an OK channel. -/
def State.usable (s : State) (a : Actuator) : Prop := ∃ c, (s.mapAt a).assigned = some c ∧ (s.chan c).fault = none

theorem channelOk_iff {s : State} {a : Actuator} : s.channelOk a = true ↔ s.usable a := by
  unfold State.channelOk State.usable
  cases (s.mapAt a).assigned <;> simp

/-- A DOWN lane has no command and no orders (R34, R57). -/
structure DownLaw (s : State) : Prop where
  still : ∀ a, (s.lane a).state = .down → (s.lane a).command = none
  empty : ∀ a, (s.lane a).state = .down → ∀ i o, s.orderAt i = some o → o.actuator ≠ a

/-- In RUN every actuator that is not DOWN has an OK channel (R135). -/
def UsableLaw (s : State) : Prop := s.mode = .run → ∀ a, (s.lane a).state ≠ .down → s.usable a

theorem driveLaw_iff {s : State} : DriveLaw s ↔ DownLaw s ∧ UsableLaw s :=
  ⟨fun h => ⟨⟨h.downStill, h.downEmpty⟩, h.usable⟩, fun h => ⟨h.1.still, h.1.empty, h.2⟩⟩

theorem DownLaw.up {s : State} (law : DownLaw s) {i : Slot} {o : Order} (live : s.orderAt i = some o) :
    (s.lane o.actuator).state ≠ .down := fun down => law.empty _ down i o live rfl

/-- DOWN is kept, and no order is on a DOWN lane. -/
theorem DownLaw.kept {s t : State} (law : DownLaw s) (down : DownKept s t)
    (orders : ∀ i p, t.orderAt i = some p → (s.lane p.actuator).state ≠ .down) : DownLaw t where
  still a h := (down.command a ((down.down a).1 h)).trans (law.still a ((down.down a).1 h))
  empty a h i p hp e := orders i p hp (e ▸ (down.down a).1 h)

/-- The mode, the map and the health of the channels stay, and DOWN is kept. -/
theorem UsableLaw.kept {s t : State} (law : UsableLaw s) (mode : t.mode = s.mode) (map : t.map = s.map)
    (health : ∀ c, (t.chan c).fault = (s.chan c).fault) (down : DownKept s t) : UsableLaw t := by
  intro run a h
  obtain ⟨c, hc, ok⟩ := law (mode.symm.trans run) a fun d => h ((down.down a).2 d)
  exact ⟨c, by rw [State.mapAt, map]; exact hc, (health c).trans ok⟩

theorem DownLaw.engine {s t : State} (law : DownLaw s) (frame : EngineFrame s t) (down : DownKept s t) : DownLaw t :=
  law.kept down fun i p hp => by
    obtain ⟨o, live, kept, -⟩ := frame.orders i p hp
    rw [kept.2.1]
    exact law.up live

theorem UsableLaw.engine {s t : State} (law : UsableLaw s) (frame : EngineFrame s t) (down : DownKept s t) :
    UsableLaw t :=
  law.kept frame.blocks.mode frame.blocks.map (fun c => (frame.tables.chans c).1) down

theorem DownLaw.places {s : State} {o : Order} (law : DownLaw s) (drives : (s.lane o.actuator).state ≠ .down) :
    DownLaw (placeOrder o s).1 := by
  refine law.kept (placeOrder_downKept o s) fun i p hp => ?_
  rcases placeOrder_orders o s hp with ⟨q, live, -, actuator, -⟩ | ⟨-, actuator, -⟩
  · rw [actuator]; exact law.up live
  · rw [actuator]; exact drives

theorem UsableLaw.places {s : State} (law : UsableLaw s) (o : Order) : UsableLaw (placeOrder o s).1 := by
  obtain ⟨tables, blocks⟩ := placeOrder_tables o s
  exact law.kept blocks.mode blocks.map (fun c => (tables.chans c).1) (placeOrder_downKept o s)

theorem Stands.down {s t : State} (h : Stands s t) (law : DownLaw s) : DownLaw t where
  still a down := by
    have down := (h.lanes a).state.symm.trans down
    exact (h.lanes a).command (.inr down) (law.still a down)
  empty a down i p hp e := by
    obtain ⟨o, live, stands⟩ := h.slots.was hp
    exact law.empty a ((h.lanes a).state.symm.trans down) i o live (stands.2.1.symm.trans e)

theorem Stands.usable {s t : State} (h : Stands s t) (law : UsableLaw s) : UsableLaw t := by
  intro run a up
  have run := h.mode.symm.trans run
  obtain ⟨c, hc, ok⟩ := law run a fun down => up ((h.lanes a).state.trans down)
  exact ⟨c, (h.assigned a).trans hc, h.health c a run hc ok⟩

/-! ### Moves, and an actuator DOWN -/

theorem moveActuator_lane (a : Actuator) (c : Chan) (s : State) (b : Actuator) : (moveActuator a c s).lane b = s.lane b := by
  unfold moveActuator
  split <;> rfl

theorem moveActuator_slot (a : Actuator) (c : Chan) (s : State) (i : Slot) : (moveActuator a c s).slot i = s.slot i := by
  unfold moveActuator
  split <;> rfl

theorem moveActuator_mode (a : Actuator) (c : Chan) (s : State) : (moveActuator a c s).mode = s.mode :=
  (moveActuator_steady a c s).store.1

theorem DownLaw.faulted {s : State} (law : DownLaw s) (c : Chan) (k : FaultKind) : DownLaw (faulted c k s) :=
  ⟨law.still, law.empty⟩

theorem DownLaw.moves {s : State} (law : DownLaw s) (a : Actuator) (c : Chan) : DownLaw (moveActuator a c s) where
  still b down := by rw [moveActuator_lane] at down ⊢; exact law.still b down
  empty b down i o live := by
    rw [moveActuator_lane] at down
    rw [State.orderAt, moveActuator_slot] at live
    exact law.empty b down i o live

/-- In RUN every actuator but `a` that is not DOWN has an OK channel. -/
def UsableBut (a : Actuator) (s : State) : Prop :=
  s.mode = .run → ∀ b, b ≠ a → (s.lane b).state ≠ .down → s.usable b

/-- A fault on the channel of `a` touches no other actuator. -/
theorem UsableLaw.faulted {s : State} {a : Actuator} {c : Chan} (law : UsableLaw s) (map : MapLaw s) (k : FaultKind)
    (assigned : (s.mapAt a).assigned = some c) : UsableBut a (faulted c k s) := by
  intro run b apart up
  obtain ⟨d, hd, ok⟩ := law run b up
  refine ⟨d, hd, ?_⟩
  have other : d ≠ c := by rintro rfl; exact apart (map.assignedOnce b a d hd assigned)
  rw [Machine.faulted, chan_setChan, if_neg other]
  exact ok

theorem UsableBut.moves {s : State} {a : Actuator} {c : Chan} (law : UsableBut a s) (ok : (s.chan c).fault = none) :
    UsableLaw (moveActuator a c s) := by
  intro run b up
  have map := moveActuator_reassigned a c s
  by_cases same : b = a
  · subst same; exact ⟨c, map.self, (moveActuator_fault b c s c).trans ok⟩
  · rw [moveActuator_lane] at up
    obtain ⟨d, hd, good⟩ := law ((moveActuator_mode a c s).symm.trans run) b same up
    exact ⟨d, by rw [map.other same]; exact hd, (moveActuator_fault a c s d).trans good⟩

/-- A change of the travel timer that is made on the GATE alone. -/
theorem travelOnGate_lane (a : Actuator) (x : Travel) (s : State) (b : Actuator) :
    (if a = gate then { s with travel := x } else s).lane b = s.lane b := by split <;> rfl

theorem laneDown_other {a b : Actuator} (apart : b ≠ a) (s : State) : (laneDown a s).lane b = s.lane b := by
  unfold laneDown
  rw [travelOnGate_lane, lane_updLane, if_neg apart]

theorem unassigned_lane (a : Actuator) (c : Chan) (s : State) (b : Actuator) : (unassigned a c s).lane b = s.lane b := by
  refine lane_of_lanes ?_ b
  simp [unassigned, assign, releaseChan]

theorem unassigned_fault (a : Actuator) (c : Chan) (s : State) (d : Chan) :
    ((unassigned a c s).chan d).fault = (s.chan d).fault := by
  rw [unassigned, assign_chan, releaseChan_fault]
  simp

/-- The actuator's lane goes DOWN, and no other. -/
theorem actuatorDown_lane (a : Actuator) (c : Chan) (s : State) : ((actuatorDown a c s).lane a).state = .down ∧
    ((actuatorDown a c s).lane a).command = none ∧ ∀ b, b ≠ a →
      (((actuatorDown a c s).lane b).state = .down ↔ (s.lane b).state = .down) ∧
      ((s.lane b).state = .down → ((actuatorDown a c s).lane b).command = (s.lane b).command) := by
  rw [actuatorDown_eq]
  refine ⟨by rw [laneDown_lane], by rw [laneDown_lane], fun b apart => ?_⟩
  have kept := retireDriveLost_downKept a (unassigned a c s)
  have down := kept.down b
  have command := kept.command b
  rw [unassigned_lane] at down command
  rw [laneDown_other apart]
  exact ⟨down, command⟩

/-- Its orders go, and no order comes. -/
theorem actuatorDown_orders {a : Actuator} {c : Chan} {s : State} {i : Slot} {p : Order}
    (live : (actuatorDown a c s).orderAt i = some p) :
    p.actuator ≠ a ∧ ∃ o, s.orderAt i = some o ∧ p.actuator = o.actuator := by
  rw [actuatorDown_eq, State.orderAt, slot_of_slots (laneDown_leaves a _).1] at live
  obtain ⟨q, hq, kept, -⟩ := (retireDriveLost_frame a _).orders i p live
  rw [State.orderAt, slot_of_slots (unassigned_leaves a c s).1] at hq
  exact ⟨retireDriveLost_rid a _ live, q, hq, kept.2.1⟩

theorem actuatorDown_health (a : Actuator) (c : Chan) (s : State) (d : Chan) :
    ((actuatorDown a c s).chan d).fault = (s.chan d).fault := by
  rw [actuatorDown_eq, State.chan, (laneDown_leaves a _).2.2.1]
  exact ((retireDriveLost_frame a _).tables.chans d).1.trans (unassigned_fault a c s d)

theorem DownLaw.downs {s : State} (law : DownLaw s) (a : Actuator) (c : Chan) : DownLaw (actuatorDown a c s) := by
  obtain ⟨-, command, others⟩ := actuatorDown_lane a c s
  refine ⟨fun b down => ?_, fun b down i p live => ?_⟩
  · by_cases same : b = a
    · subst same; exact command
    · have before := (others b same).1.1 down
      exact ((others b same).2 before).trans (law.still b before)
  · obtain ⟨rid, o, was, actuator⟩ := actuatorDown_orders live
    by_cases same : b = a
    · subst same; exact rid
    · rw [actuator]; exact law.empty b ((others b same).1.1 down) i o was

theorem UsableBut.downs {s : State} {a : Actuator} (law : UsableBut a s) (c : Chan) : UsableLaw (actuatorDown a c s) := by
  intro run b up
  obtain ⟨down, -, others⟩ := actuatorDown_lane a c s
  have apart : b ≠ a := by rintro rfl; exact up down
  obtain ⟨d, hd, ok⟩ := law ((actuatorDown_steady a c s).store.1.symm.trans run) b apart fun d => up ((others b apart).1.2 d)
  exact ⟨d, by rw [(actuatorDown_reassigned a c s).other apart]; exact hd, (actuatorDown_health a c s d).trans ok⟩

/-! ### MAP -/

theorem laneRest_lane (a : Actuator) (s : State) (b : Actuator) : (laneRest a s).lane b = if b = a then { s.lane a with
    state := .rest, gov := none, maskHold := false, guardHold := false
    command := some (s.initialCommand a), interval := some 0, detector := .idle } else s.lane b := by
  unfold laneRest
  dsimp only
  rw [lane_of_lanes (handCommand_leaves a _).2.1, travelOnGate_lane, lane_updLane]

theorem laneRest_slot (a : Actuator) (s : State) (i : Slot) : (laneRest a s).slot i = s.slot i := by
  unfold laneRest
  dsimp only
  rw [slot_of_slots (handCommand_leaves a _).1]
  split <;> rfl

theorem laneRest_fault (a : Actuator) (s : State) (d : Chan) : ((laneRest a s).chan d).fault = (s.chan d).fault := by
  unfold laneRest
  dsimp only
  rw [((handCommand_frame a _).tables.chans d).1]
  split <;> rfl

/-- The channel of an actuator brought back, in ORDER unless it is in LOCAL. -/
def broughtBack (a : Actuator) (c : Chan) (s : State) : State :=
  let s := assign a (some c) s
  if (s.chan c).mode = .localDuty then s else s.setChan c { s.chan c with mode := .order }

theorem bringBack_eq (a : Actuator) (c : Chan) (s : State) : bringBack a c s = laneRest a (broughtBack a c s) := rfl

theorem broughtBack_leaves (a : Actuator) (c : Chan) (s : State) : (broughtBack a c s).lanes = s.lanes ∧
    (broughtBack a c s).slots = s.slots ∧ (broughtBack a c s).mode = s.mode := by
  unfold broughtBack
  dsimp only
  split <;> exact ⟨rfl, rfl, rfl⟩

theorem broughtBack_fault (a : Actuator) (c : Chan) (s : State) (d : Chan) :
    ((broughtBack a c s).chan d).fault = (s.chan d).fault := by
  unfold broughtBack
  dsimp only
  split
  · rfl
  · refine setChan_fault ?_ d
    rfl

theorem bringBack_lane (a : Actuator) (c : Chan) (s : State) :
    ((bringBack a c s).lane a).state = .rest ∧ ∀ b, b ≠ a → (bringBack a c s).lane b = s.lane b := by
  rw [bringBack_eq]
  refine ⟨by rw [laneRest_lane, if_pos rfl], fun b apart => ?_⟩
  rw [laneRest_lane, if_neg apart, lane_of_lanes (broughtBack_leaves a c s).1]

theorem bringBack_slot (a : Actuator) (c : Chan) (s : State) (i : Slot) : (bringBack a c s).slot i = s.slot i := by
  rw [bringBack_eq, laneRest_slot, slot_of_slots (broughtBack_leaves a c s).2.1]

theorem bringBack_health (a : Actuator) (c : Chan) (s : State) (d : Chan) :
    ((bringBack a c s).chan d).fault = (s.chan d).fault := by
  rw [bringBack_eq, laneRest_fault, broughtBack_fault]

theorem DownLaw.bringsBack {s : State} (law : DownLaw s) (a : Actuator) (c : Chan) : DownLaw (bringBack a c s) := by
  obtain ⟨self, others⟩ := bringBack_lane a c s
  have other : ∀ {b}, ((bringBack a c s).lane b).state = .down → b ≠ a := by
    rintro b down rfl; rw [self] at down; cases down
  refine ⟨fun b down => ?_, fun b down i o live => ?_⟩
  · have apart := other down
    rw [others b apart] at down ⊢
    exact law.still b down
  · rw [others b (other down)] at down
    rw [State.orderAt, bringBack_slot] at live
    exact law.empty b down i o live

theorem UsableLaw.bringsBack {s : State} {a : Actuator} {c : Chan} (law : UsableLaw s) (ok : (s.chan c).fault = none) :
    UsableLaw (bringBack a c s) := by
  intro run b up
  have map := bringBack_reassigned a c s
  by_cases same : b = a
  · subst same; exact ⟨c, map.self, (bringBack_health b c s c).trans ok⟩
  · rw [(bringBack_lane a c s).2 b same] at up
    obtain ⟨d, hd, good⟩ := law ((bringBack_steady a c s).store.1.symm.trans run) b up
    exact ⟨d, by rw [map.other same]; exact hd, (bringBack_health a c s d).trans good⟩

theorem applyMap_cases (a : Actuator) (c : Chan) (s : State) : applyMap a c s = s ∨
    (s.mode = .setup ∧ applyMap a c s = assign a (some c) s) ∨
    (s.mode = .run ∧ (s.lane a).state = .down ∧ applyMap a c s = bringBack a c s) ∨
    (s.mode = .run ∧ (s.lane a).state ≠ .down ∧ applyMap a c s = moveActuator a c s) := by
  unfold applyMap
  split
  · exact .inl rfl
  · split
    · next setup => exact .inr (.inl ⟨setup, rfl⟩)
    · next run =>
      have run := mode_run_of_not_setup run
      split
      · next down => exact .inr (.inr (.inl ⟨run, down, rfl⟩))
      · next up => exact .inr (.inr (.inr ⟨run, up, rfl⟩))

theorem DownLaw.maps {s : State} (law : DownLaw s) (a : Actuator) (c : Chan) : DownLaw (applyMap a c s) := by
  rcases applyMap_cases a c s with e | ⟨-, e⟩ | ⟨-, -, e⟩ | ⟨-, -, e⟩ <;> rw [e]
  · exact law
  · exact ⟨law.still, law.empty⟩
  · exact law.bringsBack a c
  · exact law.moves a c

theorem UsableLaw.maps {s : State} {a : Actuator} {c : Chan} (law : UsableLaw s) (ok : (s.chan c).fault = none) :
    UsableLaw (applyMap a c s) := by
  rcases applyMap_cases a c s with e | ⟨setup, e⟩ | ⟨-, -, e⟩ | ⟨-, -, e⟩ <;> rw [e]
  · exact law
  · intro run
    have mode : (assign a (some c) s).mode = s.mode := rfl
    rw [mode, setup] at run
    cases run
  · exact law.bringsBack ok
  · exact UsableBut.moves (fun run b _ => law run b) ok

/-! ### START -/

/-- A test changes the assignment of its actuator alone, and the health of no channel. -/
theorem testActuator_leaves (r : StartRun) (a : Actuator) : (∀ b, b ≠ a → (testActuator r a).st.mapAt b = r.st.mapAt b) ∧
    (∀ d, ((testActuator r a).st.chan d).fault = (r.st.chan d).fault) ∧ (testActuator r a).st.slots = r.st.slots ∧
    (testActuator r a).st.lanes = r.st.lanes := by
  rcases testActuator_cases r a with ⟨-, e⟩ | ⟨-, sp, -, e⟩ | ⟨-, -, e⟩
  · rw [e]; exact ⟨fun _ _ => rfl, fun _ => rfl, rfl, rfl⟩
  · rw [e]
    refine ⟨fun b apart => ?_, fun d => ?_, ?_, ?_⟩
    · simpa using (moveActuator_reassigned a sp r.st).other apart
    · simpa using moveActuator_fault a sp r.st d
    · simp only [queueNotice_leaves]
      unfold moveActuator
      split <;> rfl
    · simp only [queueNotice_leaves]
      unfold moveActuator
      split <;> rfl
  · rw [e]
    refine ⟨fun b apart => ?_, fun d => ?_, ?_, ?_⟩
    · simpa using (leaveDown_reassigned a r.st).other apart
    · simp only [queueNotice_leaves]
      unfold leaveDown
      split
      · rw [assign_chan, releaseChan_fault]
      · rfl
    · simp only [queueNotice_leaves]
      unfold leaveDown
      split <;> rfl
    · simp only [queueNotice_leaves]
      unfold leaveDown
      split <;> rfl

/-- An actuator has an OK channel, or none assigned. -/
def State.tested (s : State) (a : Actuator) : Prop := s.usable a ∨ (s.mapAt a).assigned = none

theorem State.tested_of {s t : State} {a : Actuator} (map : t.mapAt a = s.mapAt a)
    (health : ∀ d, (t.chan d).fault = (s.chan d).fault) (h : s.tested a) : t.tested a := by
  rcases h with ⟨c, hc, ok⟩ | none
  · exact .inl ⟨c, by rw [map]; exact hc, (health c).trans ok⟩
  · exact .inr (by rw [map]; exact none)

theorem testActuator_tests (r : StartRun) (a : Actuator) : (testActuator r a).st.tested a := by
  rcases testActuator_cases r a with ⟨ok, e⟩ | ⟨-, sp, spare, e⟩ | ⟨-, -, e⟩
  · rw [e]; exact .inl (channelOk_iff.1 ok)
  · rw [e]
    refine .inl ⟨sp, ?_, ?_⟩
    · simpa using (moveActuator_reassigned a sp r.st).self
    · simpa using (moveActuator_fault a sp r.st sp).trans (usableSpare_eq_some spare).2.1
  · rw [e]
    exact .inr (by simpa using (leaveDown_reassigned a r.st).self)

theorem startTested_tested (s : State) (a : Actuator) : (startTested s).tested a := by
  refine foldl_establishes (P := fun _ => True) (R := fun a (r : StartRun) => r.st.tested a) (f := testActuator)
    (fun _ _ _ => trivial) (fun r a _ => testActuator_tests r a) (fun r x y _ h => ?_) allActuators _ trivial a
    (by simp [allActuators])
  by_cases same : y = x
  · subst same; exact testActuator_tests r y
  · obtain ⟨others, health, -⟩ := testActuator_leaves r x
    exact State.tested_of (others y same) health h

theorem startTested_leaves (s : State) : (startTested s).slots = s.slots ∧ (startTested s).lanes = s.lanes := by
  unfold startTested
  refine List.foldlRecOn (motive := fun r : StartRun => r.st.slots = s.slots ∧ r.st.lanes = s.lanes) allActuators
    testActuator ?_ fun r ⟨slots, lanes⟩ a _ => ?_
  · exact ⟨rfl, rfl⟩
  · obtain ⟨-, -, slots', lanes'⟩ := testActuator_leaves r a
    exact ⟨slots'.trans slots, lanes'.trans lanes⟩

theorem enterOrder_leaves (s : State) (a : Actuator) : (∀ d, ((enterOrder s a).chan d).fault = (s.chan d).fault) ∧
    (enterOrder s a).slots = s.slots ∧ (enterOrder s a).lanes = s.lanes := by
  unfold enterOrder
  split
  · split
    · exact ⟨fun _ => rfl, rfl, rfl⟩
    · exact ⟨setChan_fault rfl, rfl, rfl⟩
  · exact ⟨fun _ => rfl, rfl, rfl⟩

theorem refreshFlags_leaves (s : State) : (refreshFlags s).chans = s.chans ∧ (refreshFlags s).slots = s.slots ∧
    (refreshFlags s).lanes = s.lanes := ⟨rfl, rfl, rfl⟩

theorem startOrdered_leaves (s : State) : (∀ d, ((startOrdered s).chan d).fault = ((startTested s).chan d).fault) ∧
    (startOrdered s).slots = s.slots ∧ (startOrdered s).lanes = s.lanes := by
  obtain ⟨chans, slots, lanes⟩ := refreshFlags_leaves (allActuators.foldl enterOrder (startTested s))
  have ordered := List.foldlRecOn (motive := fun t : State => (∀ d, (t.chan d).fault = ((startTested s).chan d).fault) ∧
      t.slots = s.slots ∧ t.lanes = s.lanes) allActuators enterOrder
    ⟨fun _ => rfl, startTested_leaves s⟩ fun t ⟨health, slots, lanes⟩ a _ => by
      obtain ⟨health', slots', lanes'⟩ := enterOrder_leaves t a
      exact ⟨fun d => (health' d).trans (health d), slots'.trans slots, lanes'.trans lanes⟩
  exact ⟨fun d => by rw [startOrdered, State.chan, chans]; exact ordered.1 d, slots.trans ordered.2.1,
    lanes.trans ordered.2.2⟩

theorem leaveOff_leaves (s : State) (a : Actuator) : (∀ d, ((leaveOff s a).chan d).fault = (s.chan d).fault) ∧
    (∀ i, (leaveOff s a).slot i = s.slot i) ∧ ∀ b, b ≠ a → (leaveOff s a).lane b = s.lane b := by
  unfold leaveOff
  split
  · exact ⟨laneRest_fault a s, laneRest_slot a s, fun b apart => by rw [laneRest_lane, if_neg apart]⟩
  · obtain ⟨slots, -, chans, -⟩ := laneDown_leaves a s
    exact ⟨fun d => by rw [State.chan, chans]; rfl, slot_of_slots slots, fun b apart => laneDown_other apart s⟩

theorem startLanes_leaves (s : State) : (∀ d, ((startLanes s).chan d).fault = ((startTested s).chan d).fault) ∧
    ∀ i, (startLanes s).slot i = s.slot i := by
  obtain ⟨health, slots, -⟩ := startOrdered_leaves s
  rw [startLanes_eq]
  exact List.foldlRecOn (motive := fun t : State => (∀ d, (t.chan d).fault = ((startTested s).chan d).fault) ∧
      ∀ i, t.slot i = s.slot i) allActuators leaveOff ⟨health, slot_of_slots slots⟩ fun t ⟨health, slots⟩ a _ => by
    obtain ⟨health', slots', -⟩ := leaveOff_leaves t a
    exact ⟨fun d => (health' d).trans (health d), fun i => (slots' i).trans (slots i)⟩

/-- A lane out of OFF: in REST with a channel, else DOWN without a command; without a governing order. -/
def State.leftOff (s : State) (a : Actuator) : Prop :=
  (s.lane a).gov = none ∧ ((∃ c, (s.mapAt a).assigned = some c) ∧ (s.lane a).state = .rest ∨
    (s.mapAt a).assigned = none ∧ (s.lane a).state = .down ∧ (s.lane a).command = none)

theorem leaveOff_leftOff (s : State) (a : Actuator) : (leaveOff s a).leftOff a := by
  have map : (leaveOff s a).mapAt a = s.mapAt a := by rw [State.mapAt, leaveOff_map]; rfl
  unfold State.leftOff
  rw [map]
  unfold leaveOff
  split
  · next c hc =>
    rw [laneRest_lane, if_pos rfl]
    exact ⟨rfl, .inl ⟨⟨c, hc⟩, rfl⟩⟩
  · next none =>
    rw [laneDown_lane]
    exact ⟨rfl, .inr ⟨none, rfl, rfl⟩⟩

theorem startLanes_leftOff (s : State) (a : Actuator) : (startLanes s).leftOff a := by
  rw [startLanes_eq]
  refine foldl_establishes (P := fun _ => True) (R := fun a (t : State) => t.leftOff a) (f := leaveOff)
    (fun _ _ _ => trivial) (fun t a _ => leaveOff_leftOff t a) (fun t x y _ h => ?_) allActuators _ trivial a
    (by simp [allActuators])
  by_cases same : y = x
  · subst same; exact leaveOff_leftOff t y
  · have map : (leaveOff t x).mapAt y = t.mapAt y := by rw [State.mapAt, leaveOff_map]; rfl
    unfold State.leftOff
    rw [map, (leaveOff_leaves t x).2.2 y same]
    exact h

theorem startLanes_down {s : State} (setup : s.mode = .setup) (law : SetupLaw s) : DownLaw (startLanes s) := by
  refine ⟨fun a down => ?_, fun a _ i o live => ?_⟩
  · rcases (startLanes_leftOff s a).2 with ⟨-, rest⟩ | ⟨-, -, command⟩
    · rw [rest] at down; cases down
    · exact command
  · rw [State.orderAt, (startLanes_leaves s).2] at live
    have none := law.noOrders setup i
    rw [State.orderAt, live] at none
    cases none

theorem startLanes_usable (s : State) : UsableLaw (startLanes s) := by
  intro _ a up
  have map : (startLanes s).mapAt a = (startTested s).mapAt a := by rw [State.mapAt, startLanes_map]; rfl
  rcases (startLanes_leftOff s a).2 with ⟨⟨c, hc⟩, -⟩ | ⟨-, down, -⟩
  · rcases State.tested_of map (startLanes_leaves s).1 (startTested_tested s a) with usable | none
    · exact usable
    · rw [none] at hc; cases hc
  · exact absurd down up

/-! ### Every act -/

theorem restartRun_down (s : State) : DownLaw (restartRun s) := by
  constructor <;> intro a down <;> rw [restartRun_lane] at down <;> cases down

theorem restartRun_usable (s : State) : UsableLaw (restartRun s) := by
  intro run
  obtain ⟨_, _, _, _, _, e⟩ := restartRun_writes s
  rw [e] at run
  cases run

theorem Act.down {s t : State} (h : Act s t) (setup : SetupLaw s) (law : DownLaw s) : DownLaw t := by
  cases h with
  | stands h => exact h.down law
  | resolves _ ranks =>
    refine DownLaw.engine ?_ (resolve_frame _ _) (resolve_downKept _ _)
    exact law.kept (updLane_downKept (ranks _).1 (ranks _).2.2.2) fun i p live => law.up live
  | holds live _ => exact law.engine (takeHolds_frame _ s) (takeHolds_downKept (law.up (order?_eq_some live).2))
  | settles _ => exact law.engine (settleOrder_frame _ s) (settleOrder_downKept _ s)
  | retires c _ => exact law.engine (retireCore_frame true _ c s) (retireCore_downKept true _ c s)
  | places _ drives => exact law.places drives
  | moves _ _ _ => exact (law.faulted _ _).moves _ _
  | downs k _ _ => exact (law.faulted _ k).downs _ _
  | maps _ _ _ => exact law.maps _ _
  | starts inSetup => exact startLanes_down inSetup setup
  | restarts => exact restartRun_down s
  | powers =>
    have reset := lawsHoldAtReset.2.2.2.2.1
    exact ⟨reset.downStill, reset.downEmpty⟩

theorem Act.usable {s t : State} (h : Act s t) (map : MapLaw s) (down : DownLaw s) (law : UsableLaw s) :
    UsableLaw t := by
  cases h with
  | stands h => exact h.usable law
  | resolves _ ranks =>
    refine UsableLaw.engine ?_ (resolve_frame _ _) (resolve_downKept _ _)
    exact law.kept rfl rfl (fun _ => rfl) (updLane_downKept (ranks _).1 (ranks _).2.2.2)
  | holds live _ => exact law.engine (takeHolds_frame _ s) (takeHolds_downKept (down.up (order?_eq_some live).2))
  | settles _ => exact law.engine (settleOrder_frame _ s) (settleOrder_downKept _ s)
  | retires c _ => exact law.engine (retireCore_frame true _ c s) (retireCore_downKept true _ c s)
  | places _ _ => exact law.places _
  | moves _ assigned spare =>
    exact (law.faulted map _ (assigned_of_assignee assigned)).moves (usableSpare_eq_some spare).2.1
  | downs k _ assigned => exact (law.faulted map k (assigned_of_assignee assigned)).downs _
  | maps _ ok _ => exact law.maps ok
  | starts _ => exact startLanes_usable s
  | restarts => exact restartRun_usable s
  | powers =>
    have reset := lawsHoldAtReset.2.2.2.2.1
    exact fun run a up => reset.usable run a up

/-- Settles O56. -/
theorem everyStepKeepsMapAndDriveLaw : Obligations.EveryStepKeepsMapAndDriveLaw := by
  intro s t e map
  refine ⟨step_keeps Act.mapLaw e map, fun setup drive => driveLaw_iff.2 ?_⟩
  exact (step_keeps (P := fun u => SetupLaw u ∧ MapLaw u ∧ DownLaw u ∧ UsableLaw u)
    (fun act ⟨setup, map, down, usable⟩ =>
      ⟨act.setup setup, act.mapLaw map, act.down setup down, act.usable map down usable⟩) e
    ⟨setup, map, driveLaw_iff.1 drive⟩).2.2

end Sys2Proof.Machine
end

section
/-! One resolution of a lane (R38): its governing order is the one GOVERNING order of the lane, and no PENDING order of an
unmasked class ranks above it. -/

namespace Sys2Proof.Machine

/-! ### Handles -/

theorem handleAt_of_order? {s : State} {h : Handle} {o : Order} (live : s.order? h = some o) : s.handleAt h.slot = h :=
  (order?_eq_some live).1

theorem orderAt_of_order? {s : State} {h : Handle} {o : Order} (live : s.order? h = some o) :
    s.orderAt h.slot = some o := (order?_eq_some live).2

/-- Two live handles of one slot are one. -/
theorem handle_of_slot {s : State} {h k : Handle} {o p : Order} (ho : s.order? h = some o) (hk : s.order? k = some p)
    (same : h.slot = k.slot) : h = k := by
  rw [← handleAt_of_order? ho, ← handleAt_of_order? hk, same]

/-! ### What a lane names -/

/-- What stands in the positions of the lane is live, of its actuator and its class (R36). -/
def Positioned (a : Actuator) (s : State) : Prop :=
  ∀ c h, (s.lane a).orderSet.get c = some h → ∃ o, s.order? h = some o ∧ o.actuator = a ∧ o.cls = c

/-- The governing order of the lane is a live GOVERNING one of its actuator, and of those outside `X` the only one. -/
structure Governed (a : Actuator) (X : Set Slot) (s : State) : Prop where
  governs : ∀ h, (s.lane a).gov = some h → ∃ o, s.order? h = some o ∧ o.actuator = a ∧ o.state = .governing
  alone : ∀ i o, i ∉ X → s.orderAt i = some o → o.actuator = a → o.state = .governing →
    (s.lane a).gov = some (s.handleAt i)

/-- No PENDING order of an unmasked class, outside `Y`, is without a governing order on the lane or ranks above it. -/
def ResolvedBut (Y : Set Slot) (s : State) (a : Actuator) : Prop :=
  ∀ c h o, h.slot ∉ Y → c ∈ (s.lane a).precedence → (c = .guard ∨ (s.lane a).mask.get c = false) →
    (s.lane a).orderSet.get c = some h → s.order? h = some o → o.state = .pending →
    ∃ k q, (s.lane a).gov = some k ∧ s.order? k = some q ∧
      ¬ (s.lane a).precedence.idxOf c < (s.lane a).precedence.idxOf q.cls

theorem resolvedBut_empty {s : State} {a : Actuator} : ResolvedBut ∅ s a ↔ Resolved s a :=
  ⟨fun h c k o => h c k o (Set.notMem_empty _), fun h c k o _ => h c k o⟩

theorem ResolvedBut.mono {s : State} {a : Actuator} {Y Z : Set Slot} (h : ResolvedBut Y s a) (sub : Y ⊆ Z) :
    ResolvedBut Z s a := fun c k o outside => h c k o fun inside => outside (sub inside)

theorem ResolveFrame.orderSets {a : Actuator} {s t : State} (r : ResolveFrame a s t) (b : Actuator) :
    (t.lane b).orderSet = (s.lane b).orderSet := by
  by_cases same : b = a
  · subst same; exact r.orderSet
  · rw [r.lanes b same]

theorem ResolveFrame.positioned {a b : Actuator} {s t : State} (r : ResolveFrame a s t) (h : Positioned b s) :
    Positioned b t := by
  intro c k hk
  rw [r.orderSets b] at hk
  obtain ⟨o, live, actuator, cls⟩ := h c k hk
  obtain ⟨p, hp, restands⟩ := r.slots.reach live
  obtain ⟨sameCls, sameActuator, -⟩ := Order.restands_kept restands
  exact ⟨p, hp, sameActuator.trans actuator, sameCls.trans cls⟩

/-- The lane with the same orders and ranks, of orders that stand. -/
theorem ResolvedBut.stands {s t : State} {a : Actuator} {Y : Set Slot} (h : ResolvedBut Y s a) (slots : SlotsStand s t)
    (precedence : (t.lane a).precedence = (s.lane a).precedence) (mask : (t.lane a).mask = (s.lane a).mask)
    (orderSet : (t.lane a).orderSet = (s.lane a).orderSet) (gov : (t.lane a).gov = (s.lane a).gov) :
    ResolvedBut Y t a := by
  intro c k p outside listed unmasked position live pending
  rw [precedence] at listed ⊢
  rw [mask] at unmasked
  rw [orderSet] at position
  obtain ⟨o, was, stands⟩ := slots.reached live
  obtain ⟨g, q, governs, there, rank⟩ := h c k o outside listed unmasked position was (stands.2.2.symm.trans pending)
  obtain ⟨q', there', stands'⟩ := slots.reach there
  exact ⟨g, q', gov.trans governs, there', by rw [stands'.1]; exact rank⟩

theorem Governed.stands {s t : State} {a : Actuator} {X : Set Slot} (h : Governed a X s) (slots : SlotsStand s t)
    (gov : (t.lane a).gov = (s.lane a).gov) : Governed a X t where
  governs k hk := by
    obtain ⟨o, live, actuator, state⟩ := h.governs k (gov ▸ hk)
    obtain ⟨p, hp, stands⟩ := slots.reach live
    exact ⟨p, hp, stands.2.1.trans actuator, stands.2.2.trans state⟩
  alone i p outside hp actuator state := by
    obtain ⟨o, live, stands⟩ := slots.was hp
    rw [gov, slots.handleAt]
    exact h.alone i o outside live (stands.2.1.symm.trans actuator) (stands.2.2.symm.trans state)

theorem Governed.governing {s : State} {a : Actuator} {X : Set Slot} (h : Governed a X s) {k : Handle}
    (gov : (s.lane a).gov = some k) :
    ∃ o, s.governing a = some (k, o) ∧ s.order? k = some o ∧ o.actuator = a ∧ o.state = .governing := by
  obtain ⟨o, live, actuator, state⟩ := h.governs k gov
  exact ⟨o, governing_eq_some.2 ⟨gov, live⟩, live, actuator, state⟩

theorem Governed.ungoverned {s : State} {a : Actuator} {X : Set Slot} (h : Governed a X s) (none : s.governing a = none) :
    (s.lane a).gov = Option.none := by
  cases gov : (s.lane a).gov with
  | none => rfl
  | some k =>
    obtain ⟨o, governs, -⟩ := h.governing gov
    rw [none] at governs
    cases governs

/-! ### Demotion and promotion -/

section
variable {a : Actuator} {X : Set Slot} {s : State}

theorem Governed.demote (h : Governed a X s) : Governed a X (demote a s) := by
  cases gov : (s.lane a).gov with
  | none => rw [Machine.demote, gov]; exact h
  | some k =>
    have none := demote_gov a s
    refine ⟨fun j hj => (by rw [none] at hj; cases hj), fun i o outside live actuator state => ?_⟩
    simp only [Machine.demote, gov, updLane_leaves, orderAt_updOrder] at live
    split at live
    · obtain ⟨q, -, rfl⟩ := Option.map_eq_some_iff.1 live
      cases state
    · next other =>
      have := h.alone i o outside live actuator state
      rw [gov] at this
      obtain rfl := Option.some.inj this
      exact absurd rfl other

theorem Governed.promote (h : Governed a X s) {k : Handle} {o : Order} (none : (s.lane a).gov = none)
    (live : s.order? k = some o) (actuator : o.actuator = a) : Governed a X (promote a k s) := by
  have gov := promote_gov a k s
  refine ⟨fun j hj => ?_, fun i p outside hp onLane state => ?_⟩
  · obtain rfl := Option.some.inj (gov.symm.trans hj)
    refine ⟨{ o with state := .governing }, ?_, actuator, rfl⟩
    simp only [Machine.promote, updLane_leaves, order?_updOrder, if_true, live, Option.map_some]
  · have handle : (Machine.promote a k s).handleAt i = s.handleAt i := by simp [Machine.promote]
    rw [gov, handle]
    simp only [Machine.promote, updLane_leaves, orderAt_updOrder] at hp
    split at hp
    · next same => rw [same, handleAt_of_order? live]
    · have := h.alone i p outside hp onLane state
      rw [none] at this
      cases this

theorem Governed.resolveYield (h : Governed a X s) : Governed a X (resolveYield a s) := by
  unfold Machine.resolveYield
  split
  · split
    · exact h.demote
    · exact h
  · exact h

theorem demote_live {k : Handle} {o : Order} (live : s.order? k = some o) :
    ∃ p, (demote a s).order? k = some p ∧ p.actuator = o.actuator ∧ p.cls = o.cls := by
  obtain ⟨p, hp, restands⟩ := (demote_resolves a s).slots.reach live
  obtain ⟨cls, actuator, -⟩ := Order.restands_kept restands
  exact ⟨p, hp, actuator, cls⟩

theorem Governed.resolveChoice (h : Governed a X s) (pos : Positioned a s) : Governed a X (resolveChoice a s) := by
  unfold Machine.resolveChoice
  split
  · next none choice =>
    obtain ⟨position, -⟩ := candidate_eq_some choice
    obtain ⟨o, live, actuator, -⟩ := pos _ _ position
    exact h.promote (h.ungoverned none) live actuator
  · next choice =>
    split
    · obtain ⟨position, -⟩ := candidate_eq_some choice
      obtain ⟨o, live, actuator, -⟩ := pos _ _ position
      obtain ⟨p, hp, same, -⟩ := demote_live (a := a) live
      exact h.demote.promote (demote_gov a s) hp (same.trans actuator)
    · exact h
  · exact h

/-- The lane of `a` in `t` has the ranks it has in `s`. -/
structure SameRanks (a : Actuator) (s t : State) : Prop where
  precedence : (t.lane a).precedence = (s.lane a).precedence
  mask : (t.lane a).mask = (s.lane a).mask
  orderSet : (t.lane a).orderSet = (s.lane a).orderSet

theorem sameRanks_of {t : State} (frame : EngineFrame s t) (orderSet : (t.lane a).orderSet = (s.lane a).orderSet) :
    SameRanks a s t := ⟨(frame.tables.lanes a).1, (frame.tables.lanes a).2.1, orderSet⟩

/-- The candidate governs now: whatever may govern does not rank above it. -/
theorem resolved_promote {t : State} {c : Cls} {k : Handle} {q : Order} (ranks : SameRanks a s t)
    (choice : s.candidate a = some (c, k)) (gov : (t.lane a).gov = some k) (live : t.order? k = some q) (cls : q.cls = c)
    (was : ∀ d j p, (s.lane a).orderSet.get d = some j → t.order? j = some p → p.state = .pending →
      ∃ o, s.order? j = some o ∧ (o.state = .pending ∨ o.state = .governing)) : Resolved t a := by
  intro d j p listed unmasked position there pending
  rw [ranks.precedence] at listed ⊢
  rw [ranks.mask] at unmasked
  rw [ranks.orderSet] at position
  obtain ⟨o, before, acts⟩ := was d j p position there pending
  refine ⟨k, q, gov, live, ?_⟩
  rw [cls]
  exact candidate_highest choice ⟨listed, unmasked, position, o, before, acts⟩

theorem resolveChoice_resolved (h : Governed a X s) (pos : Positioned a s) : Resolved (resolveChoice a s) a := by
  have ranks : SameRanks a s (resolveChoice a s) :=
    sameRanks_of (resolveChoice_frame a s) (resolveChoice_resolves a s).orderSet
  cases choice : s.candidate a with
  | none =>
    have same : resolveChoice a s = s := by
      unfold resolveChoice
      rw [choice]
      cases s.governing a <;> rfl
    rw [same]
    intro c k o listed unmasked position live pending
    exact absurd ⟨listed, unmasked, position, o, live, .inl pending⟩ (candidate_none choice c k)
  | some x =>
    obtain ⟨c, k⟩ := x
    obtain ⟨position, -⟩ := candidate_eq_some choice
    obtain ⟨o, live, -, cls⟩ := pos _ _ position
    cases governs : s.governing a with
    | none =>
      have e : resolveChoice a s = promote a k s := by rw [resolveChoice, governs, choice]
      rw [e] at ranks ⊢
      refine resolved_promote ranks choice (promote_gov a k s) (q := { o with state := .governing }) ?_ cls
        fun d j p _ there pending => ?_
      · simp only [promote, updLane_leaves, order?_updOrder, if_true, live, Option.map_some]
      · simp only [promote, updLane_leaves, order?_updOrder] at there
        split at there
        · obtain ⟨q, -, rfl⟩ := Option.map_eq_some_iff.1 there
          cases pending
        · exact ⟨p, there, .inl pending⟩
    | some g =>
      obtain ⟨g, q⟩ := g
      obtain ⟨gov, there⟩ := governing_eq_some.1 governs
      obtain ⟨q', there', -, state⟩ := h.governs g gov
      rw [there] at there'
      cases there'
      cases above : (s.lane a).ranksAbove c q.cls with
      | true =>
        have e : resolveChoice a s = promote a k (demote a s) := by
          rw [resolveChoice, governs, choice]
          simp only [above, if_true]
        obtain ⟨o', live', -, cls'⟩ := demote_live (a := a) live
        rw [e] at ranks ⊢
        refine resolved_promote ranks choice (promote_gov a k _) (q := { o' with state := .governing }) ?_ (cls'.trans cls)
          fun d j p _ there pending => ?_
        · simp only [promote, updLane_leaves, order?_updOrder, if_true, live', Option.map_some]
        · simp only [promote, demote, gov, updLane_leaves, order?_updOrder] at there
          split at there
          · obtain ⟨q, -, rfl⟩ := Option.map_eq_some_iff.1 there
            cases pending
          · split at there
            · next same =>
              obtain ⟨r, hr, -⟩ := Option.map_eq_some_iff.1 there
              obtain rfl := handle_of_slot hr ‹s.order? g = some q› same
              exact ⟨q, ‹s.order? j = some q›, .inr state⟩
            · exact ⟨p, there, .inl pending⟩
      | false =>
        have e : resolveChoice a s = s := by
          rw [resolveChoice, governs, choice]; simp only [above, Bool.false_eq_true, if_false]
        rw [e]
        intro d j p listed unmasked position live pending
        have notAbove := candidate_highest choice ⟨listed, unmasked, position, p, live, .inl pending⟩
        have not : ¬ (s.lane a).precedence.idxOf c < (s.lane a).precedence.idxOf q.cls := by
          simpa [Lane.ranksAbove] using above
        exact ⟨g, q, gov, there, fun less => not (Nat.lt_of_le_of_lt (Nat.le_of_not_lt notAbove) less)⟩

/-! ### The holds -/

theorem gateStep_slotsStand (v : Int) (s : State) : SlotsStand s (gateStep v s) := by
  unfold gateStep
  split
  · exact .of_slots rfl
  · exact .of_slots (handCommand_leaves gate _).1

theorem takeHolds_slotsStand (a : Actuator) (s : State) : SlotsStand s (takeHolds a s) := by
  unfold takeHolds
  split
  · dsimp only
    split
    · exact gateStep_slotsStand 0 (s.updLane a _)
    · exact .of_slots rfl
  · dsimp only
    split
    · exact updOrder_slotsStand (s := s) fun _ => ⟨rfl, rfl, rfl⟩
    · split
      · exact gateStep_slotsStand _ (s.updLane a _)
      · exact .of_slots rfl

theorem Governed.takeHolds_gov (h : Governed a X s) : ((takeHolds a s).lane a).gov = (s.lane a).gov := by
  cases governs : s.governing a with
  | none => rw [takeHolds_rests governs]; exact (h.ungoverned governs).symm
  | some g =>
    obtain ⟨k, o⟩ := g
    cases held : (s.lane a).masked o.cls || o.frozen with
    | false => rw [takeHolds_drives governs held]
    | true => rw [takeHolds_holds governs held, lane_updLane, if_pos rfl, updOrder_lane]

theorem Governed.takeHolds (h : Governed a X s) : Governed a X (takeHolds a s) :=
  h.stands (takeHolds_slotsStand a s) h.takeHolds_gov

theorem Governed.takeHolds_resolved {Y : Set Slot} (h : Governed a X s) (r : ResolvedBut Y s a) :
    ResolvedBut Y (Machine.takeHolds a s) a := by
  have ranks := sameRanks_of (a := a) (takeHolds_frame a s) (takeHolds_resolves a s).orderSet
  exact r.stands (takeHolds_slotsStand a s) ranks.precedence ranks.mask ranks.orderSet h.takeHolds_gov

/-- A lane is DRIVEN or HELD exactly when it has a governing order (R31). -/
theorem Governed.takeHolds_states (h : Governed a X s) : ((Machine.takeHolds a s).lane a).gov.isSome = true ↔
    ((Machine.takeHolds a s).lane a).state = .driven ∨ ((Machine.takeHolds a s).lane a).state = .held := by
  rw [h.takeHolds_gov]
  cases governs : s.governing a with
  | none => rw [takeHolds_rests governs, h.ungoverned governs]; simp
  | some g =>
    obtain ⟨k, o⟩ := g
    rw [(governing_eq_some.1 governs).1]
    cases held : (s.lane a).masked o.cls || o.frozen with
    | false => rw [takeHolds_drives governs held]; simp
    | true => rw [takeHolds_holds governs held, lane_updLane, if_pos rfl]; simp

/-! ### The whole resolution -/

theorem Governed.resolve (h : Governed a X s) (pos : Positioned a s) : Governed a X (resolve a s) := by
  by_cases still : (s.lane a).state = .off ∨ (s.lane a).state = .down
  · rw [resolve_still still]; exact h
  · rw [resolve_acts still]
    exact (h.resolveYield.resolveChoice ((resolveYield_resolves a s).positioned pos)).takeHolds

/-- A lane that takes part in resolution. -/
def State.takesPart (s : State) (a : Actuator) : Prop := (s.lane a).state ≠ .off ∧ (s.lane a).state ≠ .down

theorem State.takesPart_iff {s : State} {a : Actuator} :
    s.takesPart a ↔ ¬ ((s.lane a).state = .off ∨ (s.lane a).state = .down) := not_or.symm

theorem Governed.resolve_resolved (h : Governed a X s) (pos : Positioned a s) (part : s.takesPart a) :
    Resolved (Machine.resolve a s) a := by
  rw [resolve_acts (State.takesPart_iff.1 part), ← resolvedBut_empty]
  have yielded := (resolveYield_resolves a s).positioned pos
  exact (h.resolveYield.resolveChoice yielded).takeHolds_resolved
    (resolvedBut_empty.2 (resolveChoice_resolved h.resolveYield yielded))

theorem Governed.resolve_states (h : Governed a X s) (pos : Positioned a s) (part : s.takesPart a) :
    ((Machine.resolve a s).lane a).gov.isSome = true ↔
      ((Machine.resolve a s).lane a).state = .driven ∨ ((Machine.resolve a s).lane a).state = .held := by
  rw [resolve_acts (State.takesPart_iff.1 part)]
  exact (h.resolveYield.resolveChoice ((resolveYield_resolves a s).positioned pos)).takeHolds_states

end

end Sys2Proof.Machine
end

section
/-! Orders and lanes in agreement, with the lanes resolved, through resolutions and retirements. -/

namespace Sys2Proof.Machine

/-! ### The agreement -/

/-- Orders and lanes agree but for the order in a slot of `X`, which may govern unnamed, and the lanes of `B`; and the
lanes of `A` outside `B` are resolved but for the orders in the slots of `Y`. -/
structure LanesBut (A B : Set Actuator) (X Y : Set Slot) (s : State) : Prop where
  positioned : ∀ a, Positioned a s
  governed : ∀ a, Governed a X s
  states : ∀ a, a ∉ B → ((s.lane a).gov.isSome = true ↔ ((s.lane a).state = .driven ∨ (s.lane a).state = .held))
  running : s.mode = .run → ∀ a, (s.lane a).state ≠ .off
  resolved : ∀ a, a ∈ A → a ∉ B → s.takesPart a → ResolvedBut Y s a

theorem laneLaw_iff {s : State} : LaneLaw s ↔ LanesBut ∅ ∅ ∅ ∅ s := by
  constructor
  · intro law
    exact ⟨law.positions, fun a => ⟨law.governs a, fun i o _ live actuator state => actuator ▸ law.alone i o live state⟩,
      fun a _ => law.states a, law.running, fun _ none => none.elim⟩
  · intro h
    exact ⟨h.positioned, fun a => (h.governed a).governs,
      fun i o live state => (h.governed _).alone i o (Set.notMem_empty _) live rfl state,
      fun a => h.states a (Set.notMem_empty _), h.running⟩

theorem lanesBut_univ_iff {s : State} :
    LanesBut Set.univ ∅ ∅ ∅ s ↔ LaneLaw s ∧ ∀ a, (s.lane a).state ≠ .off → (s.lane a).state ≠ .down → Resolved s a := by
  rw [laneLaw_iff]
  constructor
  · intro h
    exact ⟨⟨h.positioned, h.governed, h.states, h.running, fun _ none => none.elim⟩,
      fun a off down => resolvedBut_empty.1 (h.resolved a trivial (Set.notMem_empty _) ⟨off, down⟩)⟩
  · rintro ⟨h, resolved⟩
    exact ⟨h.positioned, h.governed, h.states, h.running,
      fun a _ _ part => resolvedBut_empty.2 (resolved a part.1 part.2)⟩

section
variable {A B : Set Actuator} {X Y : Set Slot} {s t : State}

theorem LanesBut.mono {B' : Set Actuator} {Y' : Set Slot} (h : LanesBut A B X Y s) (lanes : B ⊆ B') (slots : Y ⊆ Y') :
    LanesBut A B' X Y' s where
  positioned := h.positioned
  governed := h.governed
  states a out := h.states a fun inside => out (lanes inside)
  running := h.running
  resolved a all out part := (h.resolved a all (fun inside => out (lanes inside)) part).mono slots

theorem LanesBut.namesOwn (h : LanesBut A B X Y s) : NamesOwn s := by
  rintro a k o (gov | ⟨c, position⟩) live
  · obtain ⟨q, there, actuator, -⟩ := (h.governed a).governs k gov
    rw [live] at there
    cases there
    exact actuator
  · obtain ⟨q, there, actuator, -⟩ := h.positioned a c k position
    rw [live] at there
    cases there
    exact actuator

/-- The lanes keep their states and orders, those outside `B` their ranks, and the orders stand. -/
theorem LanesBut.stands (h : LanesBut A B X Y s) (slots : SlotsStand s t) (mode : t.mode = s.mode)
    (lanes : ∀ a, (t.lane a).state = (s.lane a).state ∧ (t.lane a).gov = (s.lane a).gov ∧
      (t.lane a).orderSet = (s.lane a).orderSet)
    (ranks : ∀ a, a ∉ B → (t.lane a).precedence = (s.lane a).precedence ∧ (t.lane a).mask = (s.lane a).mask) :
    LanesBut A B X Y t where
  positioned a c k hk := by
    obtain ⟨-, -, orderSet⟩ := lanes a
    rw [orderSet] at hk
    obtain ⟨o, live, actuator, cls⟩ := h.positioned a c k hk
    obtain ⟨p, hp, stands⟩ := slots.reach live
    exact ⟨p, hp, stands.2.1.trans actuator, stands.1.trans cls⟩
  governed a := (h.governed a).stands slots (lanes a).2.1
  states a out := by
    obtain ⟨state, gov, -⟩ := lanes a
    rw [state, gov]
    exact h.states a out
  running run a := by
    rw [(lanes a).1]
    exact h.running (mode.symm.trans run) a
  resolved a all out part := by
    obtain ⟨state, gov, orderSet⟩ := lanes a
    obtain ⟨precedence, mask⟩ := ranks a out
    unfold State.takesPart at part
    rw [state] at part
    exact (h.resolved a all out part).stands slots precedence mask orderSet gov

theorem LanesBut.of_lanes (h : LanesBut A B X Y s) (slots : SlotsStand s t) (mode : t.mode = s.mode)
    (lanes : ∀ a, t.lane a = s.lane a) : LanesBut A B X Y t :=
  h.stands slots mode (fun a => by rw [lanes a]; exact ⟨rfl, rfl, rfl⟩) fun a _ => by rw [lanes a]; exact ⟨rfl, rfl⟩

theorem Stands.lanesBut (k : Stands s t) (h : LanesBut A B X Y s) : LanesBut A B X Y t :=
  h.stands k.slots k.mode (fun a => ⟨(k.lanes a).state, (k.lanes a).gov, (k.lanes a).orderSet⟩)
    fun a _ => ⟨(k.lanes a).precedence, (k.lanes a).mask⟩

/-! ### One lane anew -/

/-- The lanes but that of `a`, and the orders of their actuators, are as they were. -/
structure OtherLanes (a : Actuator) (s t : State) : Prop where
  lanes : ∀ b, b ≠ a → t.lane b = s.lane b
  kept : ∀ i o, s.orderAt i = some o → o.actuator ≠ a → t.slot i = s.slot i
  new : ∀ i p, t.orderAt i = some p → p.actuator ≠ a → t.slot i = s.slot i

theorem OtherLanes.order? {a : Actuator} (x : OtherLanes a s t) {k : Handle} {o : Order} (live : s.order? k = some o)
    (apart : o.actuator ≠ a) : t.order? k = some o := by
  rw [order?_of_slot (x.kept _ o (orderAt_of_order? live) apart)]
  exact live

theorem OtherLanes.governed {a b : Actuator} (x : OtherLanes a s t) (apart : b ≠ a) (h : Governed b X s) :
    Governed b X t where
  governs k hk := by
    rw [x.lanes b apart] at hk
    obtain ⟨o, live, actuator, state⟩ := h.governs k hk
    exact ⟨o, x.order? live (actuator ▸ apart), actuator, state⟩
  alone i p outside hp actuator state := by
    have slot := x.new i p hp (actuator ▸ apart)
    rw [State.orderAt, slot] at hp
    rw [x.lanes b apart, State.handleAt, slot]
    exact h.alone i p outside hp actuator state

theorem OtherLanes.resolved {a b : Actuator} (x : OtherLanes a s t) (apart : b ≠ a) (pos : Positioned b s)
    (gov : Governed b X s) (h : ResolvedBut Y s b) : ResolvedBut Y t b := by
  intro c k p outside listed unmasked position live pending
  rw [x.lanes b apart] at listed unmasked position ⊢
  obtain ⟨o, was, actuator, -⟩ := pos c k position
  rw [x.order? was (actuator ▸ apart)] at live
  cases live
  obtain ⟨g, q, governs, there, rank⟩ := h c k p outside listed unmasked position was pending
  obtain ⟨q', there', actuator', -⟩ := gov.governs g governs
  rw [there] at there'
  cases there'
  exact ⟨g, q, governs, x.order? there (actuator' ▸ apart), rank⟩

/-- The agreement on one lane makes it whole there. -/
theorem LanesBut.relane {a : Actuator} (h : LanesBut A B X Y s) (x : OtherLanes a s t) (mode : t.mode = s.mode)
    (pos : Positioned a t) (gov : Governed a X t)
    (states : (t.lane a).gov.isSome = true ↔ ((t.lane a).state = .driven ∨ (t.lane a).state = .held))
    (on : (t.lane a).state ≠ .off) (resolved : a ∈ A → t.takesPart a → ResolvedBut Y t a) :
    LanesBut A (B \ {a}) X Y t where
  positioned b := by
    by_cases same : b = a
    · subst same; exact pos
    · intro c k hk
      rw [x.lanes b same] at hk
      obtain ⟨o, live, actuator, cls⟩ := h.positioned b c k hk
      exact ⟨o, x.order? live (actuator ▸ same), actuator, cls⟩
  governed b := by
    by_cases same : b = a
    · subst same; exact gov
    · exact x.governed same (h.governed b)
  states b out := by
    by_cases same : b = a
    · subst same; exact states
    · rw [x.lanes b same]
      exact h.states b fun inside => out ⟨inside, same⟩
  running run b := by
    by_cases same : b = a
    · subst same; exact on
    · rw [x.lanes b same]
      exact h.running (mode.symm.trans run) b
  resolved b all out part := by
    by_cases same : b = a
    · subst same; exact resolved all part
    · unfold State.takesPart at part
      rw [x.lanes b same] at part
      exact x.resolved same (h.positioned b) (h.governed b)
        (h.resolved b all (fun inside => out ⟨inside, same⟩) part)

/-- A resolution touches the orders its lane names alone. -/
theorem ResolveFrame.otherLanes {a : Actuator} (r : ResolveFrame a s t) (own : NamesOwn s)
    (slot : ∀ i, Unnamed a i s → t.slot i = s.slot i) : OtherLanes a s t where
  lanes := r.lanes
  kept i o live apart := slot i (own.unnamed live apart)
  new i p live apart := by
    obtain ⟨o, was, restands⟩ := r.slots.was live
    obtain ⟨-, actuator, -⟩ := Order.restands_kept restands
    exact slot i (own.unnamed was (actuator ▸ apart))

theorem LanesBut.takeHolds {a : Actuator} (h : LanesBut A B X Y s) (resolved : a ∈ A → ResolvedBut Y s a) :
    LanesBut A (B \ {a}) X Y (takeHolds a s) := by
  have r := takeHolds_resolves a s
  refine h.relane (r.otherLanes h.namesOwn fun i => takeHolds_slot) (takeHolds_frame a s).blocks.mode
    (r.positioned (h.positioned a)) (h.governed a).takeHolds (h.governed a).takeHolds_states ?_
    fun all _ => (h.governed a).takeHolds_resolved (resolved all)
  rcases takeHolds_state a s with e | e | e <;> simp [e]

theorem LanesBut.resolve {a : Actuator} (h : LanesBut A B X Y s) (part : a ∈ B → s.takesPart a) :
    LanesBut A (B \ {a}) X Y (resolve a s) := by
  by_cases still : (s.lane a).state = .off ∨ (s.lane a).state = .down
  · have out : a ∉ B := fun inside => State.takesPart_iff.1 (part inside) still
    rw [resolve_still still, Set.sdiff_singleton_eq_self out]
    exact h
  · have r := resolve_resolves a s
    have part := State.takesPart_iff.2 still
    refine h.relane (r.otherLanes h.namesOwn fun i => resolve_slot) (resolve_frame a s).blocks.mode
      (r.positioned (h.positioned a)) ((h.governed a).resolve (h.positioned a))
      ((h.governed a).resolve_states (h.positioned a) part) ?_
      fun _ _ => (resolvedBut_empty.2 ((h.governed a).resolve_resolved (h.positioned a) part)).mono (Set.empty_subset Y)
    rw [resolve_acts still]
    rcases takeHolds_state a (resolveChoice a (resolveYield a s)) with e | e | e <;> simp [e]

/-! ### An order leaves its lane -/

theorem dropFromLane_self (a : Actuator) (c : Cls) (k : Handle) (s : State) : (dropFromLane a c k s).lane a = { s.lane a with
    orderSet := if (s.lane a).orderSet.get c = some k then (s.lane a).orderSet.set c none else (s.lane a).orderSet
    gov := if (s.lane a).gov = some k then none else (s.lane a).gov
    detector := if (s.lane a).gov = some k then .idle else (s.lane a).detector } := by
  rw [dropFromLane, lane_updLane, if_pos rfl]

theorem dropFromLane_gov {a b : Actuator} {c : Cls} {k j : Handle} (s : State) (apart : j ≠ k) :
    ((dropFromLane a c k s).lane b).gov = some j ↔ (s.lane b).gov = some j := by
  by_cases same : b = a
  · subst same
    rw [dropFromLane_self]
    dsimp only
    split
    · next e => rw [e]; simp [Ne.symm apart]
    · rfl
  · rw [dropFromLane_lane _ _ _ _ same]

theorem dropFromLane_settings (a : Actuator) (c : Cls) (k : Handle) (s : State) (b : Actuator) :
    (s.lane b).settingsKept ((dropFromLane a c k s).lane b) := (dropFromLane_frame a c k s).tables.lanes b

theorem handleAt_inj {i j : Slot} (h : s.handleAt i = s.handleAt j) : i = j := congrArg Handle.slot h

/-- An order that does not govern is not the lane's governing order. -/
theorem LanesBut.not_gov (h : LanesBut A B X Y s) {i : Slot} {o : Order} (live : s.orderAt i = some o)
    (idle : o.state ≠ .governing) (a : Actuator) : (s.lane a).gov ≠ some (s.handleAt i) := by
  intro gov
  obtain ⟨q, there, -, state⟩ := (h.governed a).governs _ gov
  rw [order?_handleAt, live] at there
  cases there
  exact idle state

theorem LanesBut.drop {B' : Set Actuator} (h : LanesBut A B ∅ Y s) {i : Slot} {o : Order} (live : s.orderAt i = some o)
    (sub : B ⊆ B') (governing : o.state = .governing → o.actuator ∈ B') :
    LanesBut A B' {i} Y (dropFromLane o.actuator o.cls (s.handleAt i) s) := by
  have shrinks := dropFromLane_shrinks o.actuator o.cls (s.handleAt i) s
  have same : ∀ {b}, b ∉ B' →
      ((dropFromLane o.actuator o.cls (s.handleAt i) s).lane b).gov = (s.lane b).gov := fun {b} out => by
    by_cases onLane : b = o.actuator
    · subst onLane
      rw [dropFromLane_self]
      exact if_neg (h.not_gov live (fun state => out (governing state)) _)
    · rw [dropFromLane_lane _ _ _ _ onLane]
  refine ⟨fun b c k hk => h.positioned b c k (shrinks.positions b c k hk), fun b =>
    ⟨fun k hk => (h.governed b).governs k (shrinks.gov b k hk), fun j p outside hp actuator state => ?_⟩,
    fun b out => ?_, fun run b => ?_, fun b all out part => ?_⟩
  · exact (dropFromLane_gov s fun e => outside (handleAt_inj e)).2
      ((h.governed b).alone j p (Set.notMem_empty j) hp actuator state)
  · rw [shrinks.state, same out]
    exact h.states b fun inside => out (sub inside)
  · rw [shrinks.state]
    exact h.running run b
  · obtain ⟨precedence, mask, -⟩ := dropFromLane_settings o.actuator o.cls (s.handleAt i) s b
    have before : s.takesPart b := by
      unfold State.takesPart at part
      rw [shrinks.state] at part
      exact part
    intro c k p outside listed unmasked position there pending
    rw [precedence] at listed ⊢
    rw [mask] at unmasked
    rw [same out]
    exact h.resolved b all (fun inside => out (sub inside)) before c k p outside listed unmasked
      (shrinks.positions b c k position) there pending

/-- After it no lane names the order. -/
theorem LanesBut.drop_unnamed (h : LanesBut A B X Y s) {i : Slot} {o : Order} (live : s.orderAt i = some o)
    (b : Actuator) : ¬ (dropFromLane o.actuator o.cls (s.handleAt i) s).names b (s.handleAt i) := by
  have there : s.order? (s.handleAt i) = some o := by rw [order?_handleAt, live]
  intro n
  have own := h.namesOwn b _ o (dropFromLane_names _ _ _ s b _ n) there
  subst own
  rcases n with gov | ⟨c, position⟩
  · rw [dropFromLane_self] at gov
    dsimp only at gov
    split at gov
    · cases gov
    · next not => exact not gov
  · obtain ⟨q, there', -, cls⟩ := h.positioned _ c _ ((dropFromLane_shrinks _ _ _ s).positions _ _ _ position)
    rw [there] at there'
    cases there'
    rw [dropFromLane_self] at position
    dsimp only at position
    split at position
    · rw [PerClass.get_set, if_pos cls.symm] at position
      cases position
    · next not => exact not (by rw [cls]; exact position)

/-- An order that no lane names goes. -/
theorem LanesBut.free {i : Slot} (h : LanesBut A B {i} Y s) (unnamed : ∀ b, ¬ s.names b (s.handleAt i))
    (lanes : ∀ b, t.lane b = s.lane b) (mode : t.mode = s.mode) (gone : t.orderAt i = none)
    (slots : ∀ j, j ≠ i → t.slot j = s.slot j) : LanesBut A B ∅ Y t := by
  have there : ∀ {b k o}, s.names b k → s.order? k = some o → t.order? k = some o := fun {b k o} n live => by
    have apart : k.slot ≠ i := by
      rintro rfl
      rw [handleAt_of_order? live] at unnamed
      exact unnamed b n
    rw [order?_of_slot (slots _ apart)]
    exact live
  have was : ∀ {j p}, t.orderAt j = some p → j ≠ i ∧ s.orderAt j = some p := fun {j p} live => by
    have apart : j ≠ i := by rintro rfl; rw [gone] at live; cases live
    rw [State.orderAt, slots j apart] at live
    exact ⟨apart, live⟩
  have before : ∀ {k p}, t.order? k = some p → s.order? k = some p := fun {k p} live => by
    obtain ⟨apart, -⟩ := was (orderAt_of_order? live)
    rw [order?_of_slot (slots _ apart)] at live
    exact live
  refine ⟨fun b c k hk => ?_, fun b => ⟨fun k hk => ?_, fun j p _ live actuator state => ?_⟩, fun b out => ?_,
    fun run b => ?_, fun b all out part => ?_⟩
  · rw [lanes] at hk
    obtain ⟨o, live, actuator, cls⟩ := h.positioned b c k hk
    exact ⟨o, there (.inr ⟨c, hk⟩) live, actuator, cls⟩
  · rw [lanes] at hk
    obtain ⟨o, live, actuator, state⟩ := (h.governed b).governs k hk
    exact ⟨o, there (.inl hk) live, actuator, state⟩
  · obtain ⟨apart, live⟩ := was live
    rw [lanes, State.handleAt, slots j apart]
    exact (h.governed b).alone j p apart live actuator state
  · rw [lanes]; exact h.states b out
  · rw [lanes]; exact h.running (mode.symm.trans run) b
  · unfold State.takesPart at part
    rw [lanes] at part
    intro c k p outside listed unmasked position live pending
    rw [lanes] at listed unmasked position ⊢
    obtain ⟨g, q, gov, governs, rank⟩ :=
      h.resolved b all out part c k p outside listed unmasked position (before live) pending
    exact ⟨g, q, gov, there (.inl gov) governs, rank⟩

/-! ### A retirement -/

theorem freeSlot_mode (o : Order) (i : Slot) (k : Handle) (c : Cause) (s : State) : (freeSlot o i k c s).mode = s.mode := by
  have report : (planReport o c s).mode = s.mode := (planReport_frame o c s).blocks.mode
  unfold freeSlot
  dsimp only
  split
  · exact report
  · simp only [queueNotice_leaves, setSlot_leaves]; exact report

theorem LanesBut.freeSlot {i : Slot} {o : Order} (h : LanesBut A B {i} Y s) (unnamed : ∀ b, ¬ s.names b (s.handleAt i))
    (k : Handle) (c : Cause) : LanesBut A B ∅ Y (freeSlot o i k c s) :=
  h.free unnamed (lane_of_lanes (freeSlot_leaves o i k c s).2.1) (freeSlot_mode o i k c s)
    (by rw [State.orderAt, freeSlot_slot, if_pos rfl]) fun j apart => by rw [freeSlot_slot, if_neg apart]

/-- Without a resolution: the lane of an order that governs is left to resolve. -/
theorem LanesBut.loses {B' : Set Actuator} (h : LanesBut A B ∅ Y s) {i : Slot} (c : Cause) (sub : B ⊆ B')
    (governing : ∀ o, s.orderAt i = some o → o.state = .governing → o.actuator ∈ B') :
    LanesBut A B' ∅ Y (retireOne false i c s) := by
  cases live : s.orderAt i with
  | none => rw [retireOne_dead live]; exact h.mono sub subset_rfl
  | some o =>
    rw [retireOne_live live]
    exact (h.drop live sub (governing o live)).freeSlot (h.drop_unnamed live) _ c

/-- With the resolution of its lane (R42). -/
theorem LanesBut.retires (h : LanesBut A ∅ ∅ Y s) (i : Slot) (c : Cause) : LanesBut A ∅ ∅ Y (retireOne true i c s) := by
  cases live : s.orderAt i with
  | none => rw [retireOne_dead live]; exact h
  | some o =>
    by_cases waits : o.state = .waiting
    · have same : retireOne true i c s = retireOne false i c s := by
        rw [retireOne_live live, retireOne_live live]
        simp [leaveLane, waits]
      rw [same]
      refine h.loses c subset_rfl fun p there governs => ?_
      rw [live] at there
      cases there
      rw [waits] at governs
      cases governs
    · rw [retireOne_live live]
      have left : leaveLane true o (s.handleAt i) s =
          Machine.resolve o.actuator (dropFromLane o.actuator o.cls (s.handleAt i) s) := by simp [leaveLane, waits]
      rw [left]
      have handle : (Machine.resolve o.actuator (dropFromLane o.actuator o.cls (s.handleAt i) s)).handleAt i = s.handleAt i :=
        (resolve_resolves o.actuator _).slots.handleAt i
      have unnamed : ∀ b, ¬ (Machine.resolve o.actuator (dropFromLane o.actuator o.cls (s.handleAt i) s)).names b
          (s.handleAt i) := fun b n => h.drop_unnamed live b (resolve_names _ _ b _ n)
      by_cases governs : o.state = .governing
      · have part : (dropFromLane o.actuator o.cls (s.handleAt i) s).takesPart o.actuator := by
          have gov := (h.governed _).alone i o (Set.notMem_empty i) live rfl governs
          unfold State.takesPart
          rw [(dropFromLane_shrinks _ _ _ s).state]
          rcases (h.states o.actuator (Set.notMem_empty _)).1 (by rw [gov]; rfl) with e | e <;> simp [e]
        have dropped := (h.drop (B' := {o.actuator}) live (Set.empty_subset _) fun _ => rfl).resolve fun _ => part
        rw [Set.sdiff_self] at dropped
        exact dropped.freeSlot (by rw [handle]; exact unnamed) _ c
      · have dropped := (h.drop live subset_rfl fun e => absurd e governs).resolve (a := o.actuator) fun f => f.elim
        rw [Set.empty_sdiff] at dropped
        exact dropped.freeSlot (by rw [handle]; exact unnamed) _ c

end

end Sys2Proof.Machine
end

section
/-! The agreement of orders and lanes through cascades, releases, settles and placements. -/

namespace Sys2Proof.Machine

section
variable {A B : Set Actuator} {X Y : Set Slot} {s t : State}

/-! ### Cascades and guards -/

theorem waiting_loses (h : LanesBut A B ∅ Y s) {i : Slot} {k : Handle} (c : Cause) (w : s.waitsOn i k = true) :
    LanesBut A B ∅ Y (retireOne false i c s) := by
  obtain ⟨o, live, waits, -⟩ := waitsOn_iff.1 w
  refine h.loses c subset_rfl fun p there governs => ?_
  rw [live] at there
  cases there
  rw [waits] at governs
  cases governs

/-- A cascade ends WAITING orders alone. -/
theorem lanesBut_cascades : ReleaseKeeps (LanesBut A B ∅ Y) (fun _ => False) where
  resolved _ f := f.elim
  lose h w _ := waiting_loses h _ w
  cond _ _ _ f := f.elim
  trip _ f := f.elim
  ready _ f := f.elim

theorem LanesBut.losesAll {B' : Set Actuator} (h : LanesBut A B ∅ Y s) (i : Slot) (c : Cause) (sub : B ⊆ B')
    (governing : ∀ o, s.orderAt i = some o → o.state = .governing → o.actuator ∈ B') :
    LanesBut A B' ∅ Y (retireCore false i c s) :=
  lanesBut_cascades.retireCore (h.mono sub subset_rfl) fun _ _ => h.loses c sub governing

theorem LanesBut.retiresAll (h : LanesBut A ∅ ∅ Y s) (i : Slot) (c : Cause) :
    LanesBut A ∅ ∅ Y (retireCore true i c s) :=
  lanesBut_cascades.retireCore h fun _ _ => h.retires i c

theorem LanesBut.updOrder (h : LanesBut A B X Y s) {i : Slot} {f : Order → Order} (hf : ∀ o : Order, o.stands (f o)) :
    LanesBut A B X Y (s.updOrder i f) :=
  h.of_lanes (updOrder_slotsStand hf) (by simp) fun a => updOrder_lane s i f a

theorem LanesBut.setCond (h : LanesBut A B X Y s) (k : Handle) (g : Nat) (c : Cond) :
    LanesBut A B X Y (setCond k g c s) := h.updOrder fun _ => ⟨rfl, rfl, rfl⟩

/-- The agreement, with the order of a handle PENDING where it is live. -/
def PendingThere (A B : Set Actuator) (Y : Set Slot) (k : Handle) (s : State) : Prop :=
  LanesBut A B ∅ Y s ∧ ∀ o, s.order? k = some o → o.state = .pending

theorem PendingThere.setCond {k : Handle} (h : PendingThere A B Y k s) (g : Nat) (c : Cond) :
    PendingThere A B Y k (setCond k g c s) := by
  refine ⟨h.1.setCond k g c, fun o live => ?_⟩
  rw [Machine.setCond, order?_updOrder, if_pos rfl] at live
  obtain ⟨p, was, rfl⟩ := Option.map_eq_some_iff.1 live
  exact h.2 p was

/-- A guard that arms may end its own order, which is on no lane's governing place. -/
theorem PendingThere.armGuard {k : Handle} (h : PendingThere A B Y k s) (g : Nat) : PendingThere A B Y k (armGuard g k s) := by
  unfold Machine.armGuard
  split
  · exact h
  · next o live =>
    split
    · exact h
    · split
      · split
        · split
          · have own := orderAt_of_order? live
            refine ⟨h.1.losesAll k.slot .guardTrip subset_rfl fun p there governs => ?_, fun p there => ?_⟩
            · rw [own] at there
              cases there
              rw [h.2 o live] at governs
              cases governs
            · have gone : (retireCore false k.slot .guardTrip s).order? (s.handleAt k.slot) = none := by
                rw [retireCore, own]
                exact OrdersKept.unreached (cascade_frame _ _ _).orders (retireOne_unreached _ _ _ _)
              rw [handleAt_of_order? live, there] at gone
              cases gone
          · exact h.setCond g _
        · exact h.setCond g _
      · exact h.setCond g _

theorem PendingThere.armGuards {k : Handle} (h : PendingThere A B Y k s) : PendingThere A B Y k (armGuards k s) :=
  (h.armGuard 0).armGuard 1

/-! ### A lane resolved for one more order -/

/-- The exception of the order in a slot falls away where its lane is left to resolve. -/
theorem LanesBut.narrow {i : Slot} (h : LanesBut A B X {i} s) (own : ∀ p, s.orderAt i = some p →
    p.state ≠ .pending ∨ p.actuator ∈ B ∨ ¬ s.takesPart p.actuator) : LanesBut A B X ∅ s where
  positioned := h.positioned
  governed := h.governed
  states := h.states
  running := h.running
  resolved a all out part := by
    intro c k p _ listed unmasked position live pending
    refine h.resolved a all out part c k p (fun same => ?_) listed unmasked position live pending
    obtain rfl : k.slot = i := same
    obtain ⟨q, there, actuator, -⟩ := h.positioned a c k position
    rw [live] at there
    cases there
    rcases own p (orderAt_of_order? live) with other | inside | not
    · exact other pending
    · exact out (actuator ▸ inside)
    · exact not (actuator ▸ part)

/-- The lane of the excepted order resolves. -/
theorem LanesBut.close {i : Slot} {p : Order} (h : LanesBut A ∅ X {i} s) (live : s.orderAt i = some p) :
    LanesBut A ∅ X ∅ (Machine.resolve p.actuator s) := by
  by_cases still : (s.lane p.actuator).state = .off ∨ (s.lane p.actuator).state = .down
  · rw [resolve_still still]
    refine h.narrow fun q there => .inr (.inr fun part => ?_)
    rw [live] at there
    cases there
    exact State.takesPart_iff.1 part still
  · have wide : LanesBut A {p.actuator} X ∅ s := (h.mono (Set.empty_subset {p.actuator}) subset_rfl).narrow fun q there => by
      rw [live] at there
      cases there
      exact .inr (.inl rfl)
    have closed := wide.resolve (a := p.actuator) fun _ => State.takesPart_iff.2 still
    rwa [Set.sdiff_self] at closed

/-! ### A release -/

/-- An order released is PENDING before its lane has resolved. -/
theorem LanesBut.readied (h : LanesBut A B X ∅ s) {i : Slot} {k : Handle} (w : s.waitsOn i k = true) :
    LanesBut A B X {i} (readied i s) := by
  obtain ⟨o, there, waits, -⟩ := waitsOn_iff.1 w
  have lane : ∀ a, (Machine.readied i s).lane a = s.lane a := fun a => updOrder_lane s i _ a
  have other : ∀ {j : Handle}, j.slot ≠ i → (Machine.readied i s).order? j = s.order? j := fun {j} apart => by
    rw [Machine.readied, order?_updOrder, if_neg apart]
  have governs : ∀ {a j}, (s.lane a).gov = some j → j.slot ≠ i := fun {a j} gov same => by
    obtain ⟨q, live, -, state⟩ := (h.governed a).governs j gov
    have at' := orderAt_of_order? live
    rw [same, there] at at'
    cases at'
    rw [waits] at state
    cases state
  refine ⟨fun a c j position => ?_, fun a => ⟨fun j gov => ?_, fun j p outside live actuator state => ?_⟩, fun a out => ?_,
    fun run a => ?_, fun a all out part => ?_⟩
  · rw [lane] at position
    obtain ⟨q, live, actuator, cls⟩ := h.positioned a c j position
    by_cases same : j.slot = i
    · exact ⟨{ q with state := .pending }, by rw [Machine.readied, order?_updOrder, if_pos same, live]; rfl, actuator, cls⟩
    · exact ⟨q, by rw [other same]; exact live, actuator, cls⟩
  · rw [lane] at gov
    obtain ⟨q, live, actuator, state⟩ := (h.governed a).governs j gov
    exact ⟨q, by rw [other (governs gov)]; exact live, actuator, state⟩
  · rw [Machine.readied, orderAt_updOrder] at live
    split at live
    · obtain ⟨q, -, rfl⟩ := Option.map_eq_some_iff.1 live
      cases state
    · have handle : (Machine.readied i s).handleAt j = s.handleAt j := by simp [Machine.readied]
      rw [lane, handle]
      exact (h.governed a).alone j p outside live actuator state
  · rw [lane]; exact h.states a out
  · rw [lane]
    refine h.running ?_ a
    simpa [Machine.readied] using run
  · unfold State.takesPart at part
    rw [lane] at part
    intro c j p outside listed unmasked position live pending
    rw [lane] at listed unmasked position ⊢
    rw [other outside] at live
    obtain ⟨g, q, gov, there', rank⟩ :=
      h.resolved a all out part c j p (Set.notMem_empty _) listed unmasked position live pending
    exact ⟨g, q, gov, by rw [other (governs gov)]; exact there', rank⟩

theorem readied_pending (i : Slot) (s : State) {o : Order} (live : (readied i s).order? (s.handleAt i) = some o) :
    o.state = .pending := by
  rw [readied, order?_updOrder, if_pos (show (s.handleAt i).slot = i from rfl)] at live
  obtain ⟨p, -, rfl⟩ := Option.map_eq_some_iff.1 live
  rfl

theorem LanesBut.release (h : LanesBut A ∅ ∅ ∅ s) {i : Slot} {k : Handle} (w : s.waitsOn i k = true) :
    LanesBut A ∅ ∅ ∅ (release i s) := by
  have ready : PendingThere A ∅ {i} (s.handleAt i) (Machine.readied i s) :=
    ⟨h.readied w, fun _ => readied_pending i s⟩
  have armed := ready.armGuards.1
  have frame := armGuards_frame (s.handleAt i) (Machine.readied i s)
  rw [release_eq]
  generalize armGuards (s.handleAt i) (Machine.readied i s) = t at armed frame
  have at' : ∀ {p}, t.orderAt i = some p → t.order? (s.handleAt i) = some p := fun {p} there => by
    obtain ⟨q, -, -, gen⟩ := frame.orders i p there
    exact order?_of_orderAt (congrArg (Handle.mk i) (gen.trans (by simp [Machine.readied]))) there
  cases live : t.order? (s.handleAt i) with
  | some p => exact armed.close (show t.orderAt i = some p from orderAt_of_order? live)
  | none =>
    refine armed.narrow fun p there => ?_
    rw [at' there] at live
    cases live

end

/-! ### Settling -/

/-- What settling keeps: a release, a settle noted, a retirement with its cascade. -/
structure SettleKeeps (P : State → Prop) : Prop where
  release : ∀ {s i h}, P s → s.waitsOn i h = true → P (release i s)
  settled : ∀ {s} (h : Handle), P s → P (s.updOrder h.slot fun o => { o with settled := true })
  retires : ∀ {s} (i : Slot) (c : Cause), P s → P (retireCore true i c s)

namespace SettleKeeps

variable {P : State → Prop} {f : Handle → State → State}

theorem settleGateBy (hf : ∀ h s, P s → P (f h s)) {s : State} (hs : P s) : P (settleGateBy f s) := by
  unfold Machine.settleGateBy
  split
  · exact hf _ s hs
  · exact hs

theorem settleBy (K : SettleKeeps P) (hf : ∀ h s, P s → P (f h s)) (h : Handle) {s : State} (hs : P s) :
    P (settleBy f h s) := by
  have reports : P (reported f h s) := by
    unfold reported
    refine List.foldlRecOn allSlots _ (K.settled h hs) fun t ht i _ => ?_
    unfold releaseTurn
    split
    · next w => exact settleGateBy hf (K.release ht w)
    · exact ht
  rw [settleBy_eq]
  split
  · split
    · exact settleGateBy hf (K.retires _ _ reports)
    · exact reports
  · exact reports

theorem settleFor (K : SettleKeeps P) (n : Nat) : ∀ h s, P s → P (settleFor n h s) := by
  induction n with
  | zero => exact fun _ _ hs => hs
  | succ n ih => exact fun h _ hs => K.settleBy ih h hs

theorem settleOrder (K : SettleKeeps P) (h : Handle) {s : State} (hs : P s) : P (settleOrder h s) := by
  unfold Machine.settleOrder
  exact K.settleFor 81 h s hs

theorem settleGate (K : SettleKeeps P) {s : State} (hs : P s) : P (settleGate s) := by
  unfold Machine.settleGate
  exact settleGateBy (f := Machine.settleOrder) (fun h _ hs => K.settleOrder h hs) hs

end SettleKeeps

theorem lanesBut_settles (A : Set Actuator) : SettleKeeps (LanesBut A ∅ ∅ ∅) where
  release h w := h.release w
  settled _ h := h.updOrder fun _ => ⟨rfl, rfl, rfl⟩
  retires i c h := h.retiresAll i c

/-! ### A placement -/

section
variable {A B : Set Actuator} {X Y : Set Slot} {s t : State}

theorem initialState_ne_governing (s : State) (prereq : Option Handle) : s.initialState prereq ≠ .governing := by
  unfold State.initialState
  split
  · simp
  · split
    · split <;> simp
    · simp

/-- The lane of an order superseded is left to resolve. -/
theorem LanesBut.supersede (h : LanesBut A ∅ ∅ ∅ s) (a : Actuator) (c : Cls) :
    LanesBut A {b | b = a ∧ (s.holder a c).isSome = true} ∅ ∅ (supersede a c s) := by
  unfold Machine.supersede State.holder
  cases found : s.findOrder a c with
  | none => exact h.mono (Set.empty_subset _) subset_rfl
  | some i =>
    obtain ⟨o, live, actuator, -⟩ := findOrder_some found
    refine h.losesAll i .superseded (Set.empty_subset _) fun p there _ => ?_
    rw [live] at there
    cases there
    exact ⟨actuator, rfl⟩

/-- The record of a new order, which no lane names yet. -/
theorem LanesBut.written (h : LanesBut A B ∅ ∅ s) {i : Slot} (free : s.orderAt i = none) (o : Order) :
    LanesBut A B ∅ {i} (written o i s) := by
  have slot : ∀ {k : Handle} {p}, s.order? k = some p → (Machine.written o i s).order? k = some p := fun {k p} live => by
    have apart : k.slot ≠ i := by
      rintro rfl
      rw [orderAt_of_order? live] at free
      cases free
    rw [order?_of_slot ((written_slot o i s k.slot).trans (if_neg apart))]
    exact live
  have lane : ∀ a, (Machine.written o i s).lane a = s.lane a := fun _ => rfl
  refine ⟨fun a c k position => ?_, fun a => ⟨fun k gov => ?_, fun j p _ live actuator state => ?_⟩, h.states,
    h.running, fun a all out part => ?_⟩
  · obtain ⟨p, live, actuator, cls⟩ := h.positioned a c k position
    exact ⟨p, slot live, actuator, cls⟩
  · obtain ⟨p, live, actuator, state⟩ := (h.governed a).governs k gov
    exact ⟨p, slot live, actuator, state⟩
  · rw [State.orderAt, written_slot] at live
    rw [lane, State.handleAt, written_slot]
    split at live
    · cases live
      exact absurd state (initialState_ne_governing s o.prereq)
    · next apart =>
      rw [if_neg apart]
      exact (h.governed a).alone j p (Set.notMem_empty j) live actuator state
  · intro c k p outside listed unmasked position live pending
    rw [order?_of_slot ((written_slot o i s k.slot).trans (if_neg outside))] at live
    obtain ⟨g, q, gov, there, rank⟩ :=
      h.resolved a all out part c k p (Set.notMem_empty _) listed unmasked position live pending
    exact ⟨g, q, gov, slot there, rank⟩

theorem LanesBut.armedNew (h : LanesBut A B ∅ ∅ s) {i : Slot} (free : s.orderAt i = none) (o : Order) :
    LanesBut A B ∅ {i} (armedNew o i s) := by
  unfold Machine.armedNew
  split
  · next pending =>
    refine (PendingThere.armGuards ⟨h.written free o, fun p live => ?_⟩).1
    rw [written_self] at live
    cases live
    exact pending
  · exact h.written free o

/-- The lane records the order in its position. -/
theorem LanesBut.records {k : Handle} {a : Actuator} {c : Cls} {p : Order} (h : LanesBut A B ∅ {k.slot} s)
    (live : s.order? k = some p) (actuator : p.actuator = a) (cls : p.cls = c) :
    LanesBut A B ∅ {k.slot} (recordOrder k a c s) := by
  rw [recordOrder_live live]
  have fields : ∀ b, ((s.updLane a fun l => { l with orderSet := l.orderSet.set c (some k) }).lane b) =
      { s.lane b with orderSet := if b = a then (s.lane a).orderSet.set c (some k) else (s.lane b).orderSet } := fun b => by
    rw [lane_updLane]
    split
    · next same => subst same; rfl
    · rfl
  have position : ∀ {b d j}, ((s.updLane a fun l => { l with orderSet := l.orderSet.set c (some k) }).lane b).orderSet.get d =
      some j → (b = a ∧ d = c ∧ j = k) ∨ (s.lane b).orderSet.get d = some j := fun {b d j} hj => by
    rw [fields] at hj
    dsimp only at hj
    split at hj
    · next same =>
      rw [PerClass.get_set] at hj
      split at hj
      · next sameCls => exact .inl ⟨same, sameCls, (Option.some.inj hj).symm⟩
      · rw [same]; exact .inr hj
    · exact .inr hj
  refine ⟨fun b d j hj => ?_, fun b => ⟨fun j gov => ?_, fun j q outside there onLane state => ?_⟩, fun b out => ?_,
    fun run b => ?_, fun b all out part => ?_⟩
  · rcases position hj with ⟨rfl, rfl, rfl⟩ | was
    · exact ⟨p, live, actuator, cls⟩
    · exact h.positioned b d j was
  · rw [fields] at gov; exact (h.governed b).governs j gov
  · rw [fields]; exact (h.governed b).alone j q outside there onLane state
  · rw [fields]; exact h.states b out
  · rw [fields]; exact h.running run b
  · unfold State.takesPart at part
    rw [fields] at part
    intro d j q outside listed unmasked hj there pending
    have was := (position hj).resolve_left fun ⟨_, _, same⟩ => outside (congrArg Handle.slot same)
    rw [fields] at listed unmasked ⊢
    exact h.resolved b all out part d j q outside listed unmasked was there pending

theorem armedNew_kept {o p : Order} {i : Slot} (live : (armedNew o i s).order? (s.handleAt i) = some p) :
    o.kept p ∧ (s.initialState o.prereq ≠ .pending → p.state = s.initialState o.prereq) := by
  unfold armedNew at live
  split at live
  · next pending =>
    obtain ⟨q, was, kept⟩ := (armGuards_frame _ _).orders.reached live
    rw [written_self] at was
    cases was
    exact ⟨kept, fun not => absurd pending not⟩
  · rw [written_self] at live
    cases live
    exact ⟨Order.kept_refl o, fun _ => rfl⟩

theorem LanesBut.entered (h : LanesBut A B ∅ ∅ s) {i : Slot} (free : s.orderAt i = none) (o : Order) :
    LanesBut A B ∅ {i} (entered o i s) := by
  have armed := h.armedNew free o
  cases live : (Machine.armedNew o i s).order? (s.handleAt i) with
  | none =>
    have same : Machine.entered o i s = Machine.armedNew o i s := by simp [Machine.entered, recordOrder, live]
    rw [same]
    exact armed
  | some p =>
    obtain ⟨kept, -⟩ := armedNew_kept live
    exact LanesBut.records (k := s.handleAt i) armed live kept.2.1 kept.1

/-- The order in the slot of a placement is the new one. -/
theorem entered_order {o p : Order} {i : Slot} (live : (entered o i s).orderAt i = some p) :
    p.actuator = o.actuator ∧ (s.initialState o.prereq ≠ .pending → p.state ≠ .pending) := by
  have slot : (entered o i s).orderAt i = (armedNew o i s).orderAt i := by
    rw [State.orderAt, entered, recordOrder_slot]; rfl
  rw [slot] at live
  have gen : ((armedNew o i s).slot i).gen = (s.slot i).gen := by
    unfold armedNew at live ⊢
    split at live
    · next pending =>
      rw [if_pos pending]
      obtain ⟨q, -, -, gen⟩ := (armGuards_frame _ _).orders i p live
      rw [gen, written_slot, if_pos rfl]
    · next not => rw [if_neg not, written_slot, if_pos rfl]
  have there : (armedNew o i s).order? (s.handleAt i) = some p := order?_of_orderAt (congrArg (Handle.mk i) gen) live
  obtain ⟨kept, state⟩ := armedNew_kept there
  exact ⟨kept.2.1, fun not pending => not ((state not).symm.trans pending)⟩

theorem entered_mode (o : Order) (i : Slot) (s : State) : (entered o i s).mode = s.mode := by
  have armed : (armedNew o i s).mode = s.mode := by
    unfold armedNew
    split
    · exact (armGuards_frame _ _).blocks.mode
    · rfl
  exact (recordOrder_frame _ _ _ _).blocks.mode.trans armed

theorem LanesBut.installs {i : Slot} {o : Order} {replaced : Bool}
    (h : LanesBut A {b | b = o.actuator ∧ replaced = true} ∅ ∅ s) (free : s.orderAt i = none) (run : s.mode = .run)
    (up : (s.lane o.actuator).state ≠ .down) : LanesBut A ∅ ∅ ∅ (installOrder o i replaced s) := by
  rw [installOrder_eq]
  refine (lanesBut_settles A).settleGate ?_
  have entered := h.entered free o
  unfold resolvedNew
  split
  · have part : (Machine.entered o i s).takesPart o.actuator :=
      ⟨entered.running ((entered_mode o i s).trans run) o.actuator, fun down => up (((entered_downKept o i s).down _).1 down)⟩
    have wide : LanesBut A {o.actuator} ∅ {i} (Machine.entered o i s) := entered.mono (fun b inside => inside.1) subset_rfl
    have resolved := (wide.narrow fun p live => .inr (.inl (entered_order live).1)).resolve fun _ => part
    rwa [Set.sdiff_self] at resolved
  · next quiet =>
    obtain ⟨notPending, notReplaced⟩ := not_or.1 quiet
    have none : ({b | b = o.actuator ∧ replaced = true} : Set Actuator) ⊆ ∅ := fun b inside => notReplaced inside.2
    exact (entered.mono none subset_rfl).narrow fun p live => .inl ((entered_order live).2 notPending)

theorem supersede_mode (a : Actuator) (c : Cls) (s : State) : (supersede a c s).mode = s.mode :=
  (supersede_frame a c s).blocks.mode

/-- A placement that finds no slot has superseded nothing. -/
theorem supersede_full {a : Actuator} {c : Cls} (full : (supersede a c s).freeSlot? = none) : supersede a c s = s := by
  unfold supersede at full ⊢
  split
  · next i found =>
    obtain ⟨o, live, -⟩ := findOrder_some found
    rw [found] at full
    have gone : (retireCore false i .superseded s).orderAt i = none := by rw [State.orderAt, retireCore_self live]
    have := List.find?_eq_none.1 full i (mem_allSlots i)
    rw [gone] at this
    simp at this
  · rfl

theorem LanesBut.places {o : Order} (h : LanesBut A ∅ ∅ ∅ s) (run : s.mode = .run)
    (up : (s.lane o.actuator).state ≠ .down) : LanesBut A ∅ ∅ ∅ (placeOrder o s).1 := by
  cases free : (Machine.supersede o.actuator o.cls s).freeSlot? with
  | none => rw [placeOrder_full free, supersede_full free]; exact h
  | some i =>
    rw [placeOrder_free free]
    exact (h.supersede o.actuator o.cls).installs (freeSlot?_free free) ((supersede_mode _ _ s).trans run)
      fun down => up (((supersede_downKept _ _ s).down _).1 down)

end

end Sys2Proof.Machine
end

section
/-! The agreement of orders and lanes through every act. -/

namespace Sys2Proof.Machine

section
variable {A B : Set Actuator} {X Y : Set Slot} {s t : State}

theorem LanesBut.restrict {A' : Set Actuator} (h : LanesBut A B X Y s) (sub : A' ⊆ A) : LanesBut A' B X Y s :=
  ⟨h.positioned, h.governed, h.states, h.running, fun a all => h.resolved a (sub all)⟩

/-! ### Ranks and holds -/

/-- A lane of `B` changes its ranks. -/
theorem LanesBut.rerank {a : Actuator} (h : LanesBut A B X Y s) (left : a ∈ B) {f : Lane → Lane} (ranks : ranksOnly f) :
    LanesBut A B X Y (s.updLane a f) := by
  refine h.stands (.of_slot fun _ => rfl) rfl (fun b => ?_) fun b out => ?_ <;> rw [lane_updLane]
  · split
    · next same =>
      subst same
      obtain ⟨state, gov, orderSet, -⟩ := ranks (s.lane b)
      exact ⟨state, gov, orderSet⟩
    · exact ⟨rfl, rfl, rfl⟩
  · have apart : b ≠ a := by
      rintro rfl
      exact out left
    rw [if_neg apart]
    exact ⟨rfl, rfl⟩

/-- A lane that takes no part in resolution is resolved. -/
theorem LanesBut.idle {a : Actuator} (h : LanesBut A {a} X Y s) (states : (s.lane a).gov.isSome = true ↔
    ((s.lane a).state = .driven ∨ (s.lane a).state = .held)) (not : ¬ s.takesPart a) : LanesBut A ∅ X Y s where
  positioned := h.positioned
  governed := h.governed
  states b _ := by
    by_cases same : b = a
    · subst same; exact states
    · exact h.states b same
  running := h.running
  resolved b all _ part := by
    by_cases same : b = a
    · subst same; exact absurd part not
    · exact h.resolved b all same part

/-- A change of a lane's precedence, mask or yield resolves it. -/
theorem LanesBut.ranks (h : LanesBut A ∅ X Y s) (a : Actuator) {f : Lane → Lane} (ranks : ranksOnly f) :
    LanesBut A ∅ X Y (Machine.resolve a (s.updLane a f)) := by
  have left := (h.mono (Set.empty_subset {a}) subset_rfl).rerank (Set.mem_singleton a) ranks
  by_cases still : ((s.updLane a f).lane a).state = .off ∨ ((s.updLane a f).lane a).state = .down
  · rw [resolve_still still]
    refine left.idle ?_ fun part => State.takesPart_iff.1 part still
    obtain ⟨state, gov, -⟩ := ranks (s.lane a)
    rw [lane_updLane, if_pos rfl, state, gov]
    exact h.states a (Set.notMem_empty a)
  · have resolved := left.resolve (a := a) fun _ => State.takesPart_iff.2 still
    rwa [Set.sdiff_self] at resolved

theorem LanesBut.governed_takesPart (h : LanesBut A ∅ ∅ Y s) {i : Slot} {o : Order} (live : s.orderAt i = some o)
    (governs : o.state = .governing) : s.takesPart o.actuator := by
  have gov := (h.governed _).alone i o (Set.notMem_empty i) live rfl governs
  unfold State.takesPart
  rcases (h.states o.actuator (Set.notMem_empty _)).1 (by rw [gov]; rfl) with e | e <;> simp [e]

theorem LanesBut.holds (h : LanesBut A ∅ ∅ Y s) {i : Slot} {o : Order} (live : s.orderAt i = some o)
    (governs : o.state = .governing) : LanesBut A ∅ ∅ Y (Machine.takeHolds o.actuator s) := by
  have taken := h.takeHolds (a := o.actuator) fun all =>
    h.resolved _ all (Set.notMem_empty _) (h.governed_takesPart live governs)
  rwa [Set.empty_sdiff] at taken

/-! ### The map -/

theorem LanesBut.moves (h : LanesBut A B X Y s) (a : Actuator) (c : Chan) : LanesBut A B X Y (moveActuator a c s) :=
  h.of_lanes (.of_slot (moveActuator_slot a c s)) (moveActuator_mode a c s) (moveActuator_lane a c s)

theorem LanesBut.faulted (h : LanesBut A B X Y s) (c : Chan) (k : FaultKind) : LanesBut A B X Y (faulted c k s) :=
  h.of_lanes (.of_slot fun _ => rfl) rfl fun _ => rfl

theorem LanesBut.unassigned (h : LanesBut A B X Y s) (a : Actuator) (c : Chan) :
    LanesBut A B X Y (unassigned a c s) := by
  obtain ⟨slots, -, -, -, -, -, blocks⟩ := unassigned_leaves a c s
  exact h.of_lanes (.of_slots slots) blocks.mode (unassigned_lane a c s)

theorem LanesBut.retiresDriveLost (h : LanesBut A ∅ ∅ Y s) (a : Actuator) :
    LanesBut A {a} ∅ Y (retireDriveLost a s) := by
  rw [retireDriveLost_eq]
  refine List.foldlRecOn allSlots _ (h.mono (Set.empty_subset {a}) subset_rfl) fun t ht i _ =>
    driveTurn_keeps ht fun o live actuator => ht.losesAll i .driveLost subset_rfl fun p there _ => ?_
  rw [live] at there
  cases there
  exact actuator

theorem laneDown_mode (a : Actuator) (s : State) : (laneDown a s).mode = s.mode :=
  (laneDown_leaves a s).2.2.2.2.2.1.mode

/-- A lane without orders goes DOWN. -/
theorem LanesBut.laneDown {a : Actuator} (h : LanesBut A {a} ∅ Y s) (rid : ∀ i o, s.orderAt i = some o → o.actuator ≠ a) :
    LanesBut A ∅ ∅ Y (laneDown a s) := by
  have slot := slot_of_slots (laneDown_leaves a s).1
  have live : ∀ {k : Handle}, (Machine.laneDown a s).order? k = s.order? k := fun {k} => order?_of_slot (slot k.slot)
  have down := h.relane (t := Machine.laneDown a s) (a := a)
    ⟨fun b apart => laneDown_other apart s, fun i _ _ _ => slot i, fun i _ _ _ => slot i⟩ (laneDown_mode a s)
    (fun c k position => by
      rw [laneDown_lane] at position
      rw [live]
      exact h.positioned a c k position)
    ⟨fun k gov => (by rw [laneDown_lane] at gov; cases gov), fun i o _ there actuator _ => by
      rw [State.orderAt, slot] at there
      exact absurd actuator (rid i o there)⟩
    (by rw [laneDown_lane]; simp) (by rw [laneDown_lane]; simp)
    fun _ part => by
      unfold State.takesPart at part
      rw [laneDown_lane] at part
      exact absurd rfl part.2
  rwa [Set.sdiff_self] at down

theorem LanesBut.downs (h : LanesBut A ∅ ∅ Y s) (a : Actuator) (c : Chan) : LanesBut A ∅ ∅ Y (actuatorDown a c s) := by
  rw [actuatorDown_eq]
  exact ((h.unassigned a c).retiresDriveLost a).laneDown fun _ _ => retireDriveLost_rid a _

/-- A lane brought back from DOWN; where it is to be resolved, it has no orders. -/
theorem LanesBut.bringsBack {a : Actuator} (h : LanesBut A ∅ ∅ Y s) (c : Chan) (down : (s.lane a).state = .down)
    (empty : a ∈ A → ∀ i o, s.orderAt i = some o → o.actuator ≠ a) : LanesBut A ∅ ∅ Y (bringBack a c s) := by
  obtain ⟨rest, others⟩ := bringBack_lane a c s
  have slot := bringBack_slot a c s
  have live : ∀ {k : Handle}, (bringBack a c s).order? k = s.order? k := fun {k} => order?_of_slot (slot k.slot)
  have self : ((bringBack a c s).lane a).orderSet = (s.lane a).orderSet ∧ ((bringBack a c s).lane a).gov = none := by
    rw [bringBack_eq, laneRest_lane, if_pos rfl, lane_of_lanes (broughtBack_leaves a c s).1]
    exact ⟨rfl, rfl⟩
  have ungoverned : (s.lane a).gov = none := by
    have := h.states a (Set.notMem_empty a)
    rw [down] at this
    simpa using this
  have pos : Positioned a (bringBack a c s) := fun d k position => by
    rw [self.1] at position
    rw [live]
    exact h.positioned a d k position
  have back := h.relane (t := bringBack a c s) (a := a)
    ⟨others, fun i _ _ _ => slot i, fun i _ _ _ => slot i⟩ (bringBack_steady a c s).store.1 pos
    ⟨fun k gov => (by rw [self.2] at gov; cases gov), fun i o outside there actuator state => by
      rw [State.orderAt, slot] at there
      have gov := (h.governed a).alone i o outside there actuator state
      rw [ungoverned] at gov
      cases gov⟩
    (by rw [self.2, rest]; simp) (by rw [rest]; simp)
    fun all _ d k p _ _ _ position there _ => by
      rw [self.1] at position
      obtain ⟨q, there', actuator, -⟩ := h.positioned a d k position
      exact absurd actuator (empty all k.slot q (orderAt_of_order? there'))
  rwa [Set.empty_sdiff] at back

theorem LanesBut.maps (h : LanesBut A ∅ ∅ Y s) (a : Actuator) (c : Chan) (law : a ∈ A → DownLaw s) :
    LanesBut A ∅ ∅ Y (applyMap a c s) := by
  rcases applyMap_cases a c s with e | ⟨-, e⟩ | ⟨-, down, e⟩ | ⟨-, -, e⟩ <;> rw [e]
  · exact h
  · exact h.of_lanes (.of_slot fun _ => rfl) rfl fun _ => rfl
  · exact h.bringsBack c down fun all => (law all).empty a down
  · exact h.moves a c

/-! ### The modes -/

/-- Lanes without orders, and no orders. -/
theorem LanesBut.of_empty (none : ∀ i, s.orderAt i = none) (orderSet : ∀ a c, (s.lane a).orderSet.get c = Option.none)
    (gov : ∀ a, (s.lane a).gov = Option.none) (states : ∀ a, (s.lane a).state ≠ .driven ∧ (s.lane a).state ≠ .held)
    (running : s.mode = .run → ∀ a, (s.lane a).state ≠ .off) : LanesBut A B X Y s where
  positioned a c k hk := by rw [orderSet] at hk; cases hk
  governed a := ⟨fun k hk => (by rw [gov] at hk; cases hk), fun i o _ live => by rw [none] at live; cases live⟩
  states a _ := by rw [gov]; simp [states a]
  running := running
  resolved a _ _ _ c k o _ _ _ position := by rw [orderSet] at position; cases position

theorem leaveOff_orderSet (s : State) (a b : Actuator) : ((leaveOff s a).lane b).orderSet = (s.lane b).orderSet := by
  by_cases same : b = a
  · subst same
    unfold leaveOff
    split
    · rw [laneRest_lane, if_pos rfl]
    · rw [laneDown_lane]
  · rw [(leaveOff_leaves s a).2.2 b same]

theorem startLanes_orderSet (s : State) (b : Actuator) : ((startLanes s).lane b).orderSet = (s.lane b).orderSet := by
  have ordered : ((startOrdered s).lane b).orderSet = (s.lane b).orderSet := by
    rw [lane_of_lanes (startOrdered_leaves s).2.2]
  rw [startLanes_eq]
  exact List.foldlRecOn (motive := fun t : State => (t.lane b).orderSet = (s.lane b).orderSet) allActuators leaveOff
    ordered fun t h a _ => (leaveOff_orderSet t a b).trans h

theorem LanesBut.starts (h : LanesBut A ∅ ∅ Y s) (setup : s.mode = .setup) (law : SetupLaw s) :
    LanesBut A ∅ ∅ Y (startLanes s) := by
  have empty := law.noOrders setup
  have state : ∀ a, ((startLanes s).lane a).state = .rest ∨ ((startLanes s).lane a).state = .down := fun a =>
    (startLanes_leftOff s a).2.imp (fun x => x.2) fun x => x.2.1
  refine .of_empty (fun i => ?_) (fun a c => ?_) (fun a => (startLanes_leftOff s a).1) (fun a => ?_) fun _ a => ?_
  · rw [State.orderAt, (startLanes_leaves s).2]
    exact empty i
  · rw [startLanes_orderSet]
    cases position : (s.lane a).orderSet.get c with
    | none => rfl
    | some k =>
      obtain ⟨o, live, -⟩ := h.positioned a c k position
      have live := orderAt_of_order? live
      rw [empty] at live
      cases live
  · rcases state a with e | e <;> simp [e]
  · rcases state a with e | e <;> simp [e]

theorem lanesBut_restart (s : State) : LanesBut A B X Y (restartRun s) := by
  have lane := restartRun_lane s
  refine .of_empty (setupLaw_restart s |>.noOrders ?_) (fun a c => ?_) (fun a => ?_) (fun a => ?_) fun run => ?_
  · obtain ⟨_, _, _, _, _, e⟩ := restartRun_writes s
    rw [e]
  · rw [lane]; cases c <;> rfl
  · rw [lane]; rfl
  · rw [lane]; simp [Lane.reset]
  · obtain ⟨_, _, _, _, _, e⟩ := restartRun_writes s
    rw [e] at run
    cases run

theorem lanesBut_reset : LanesBut Set.univ ∅ ∅ ∅ State.reset :=
  lanesBut_univ_iff.2 ⟨lawsHoldAtReset.2.2.1, lawsHoldAtReset.2.2.2.2.2.2.2.2.2.2.1.resolved⟩

/-! ### Every act -/

theorem Act.lanesBut (act : Act s t) (setup : SetupLaw s) (down : ∀ a, a ∈ A → DownLaw s) (h : LanesBut A ∅ ∅ ∅ s) :
    LanesBut A ∅ ∅ ∅ t := by
  cases act with
  | stands k => exact k.lanesBut h
  | resolves _ ranks => exact h.ranks _ ranks
  | holds live governs => exact h.holds (orderAt_of_order? live) governs
  | settles _ => exact (lanesBut_settles A).settleOrder _ h
  | retires c _ => exact h.retiresAll _ c
  | places run up => exact h.places run up
  | moves _ _ _ => exact (h.faulted _ _).moves _ _
  | downs k _ _ => exact (h.faulted _ k).downs _ _
  | maps _ _ _ => exact h.maps _ _ (down _)
  | starts inSetup => exact h.starts inSetup setup
  | restarts => exact lanesBut_restart s
  | powers =>
    have reset : LanesBut A ∅ ∅ ∅ State.reset := lanesBut_reset.restrict (Set.subset_univ A)
    exact reset.of_lanes (t := { State.reset with pending := s.pending, draws := s.draws }) (.of_slot fun _ => rfl) rfl
      fun _ => rfl

end

end Sys2Proof.Machine
end

section
/-! Every live order stands in its position (R36), and with that the lane law and the rank law of a step. -/

namespace Sys2Proof.Machine

/-! ### Orders in their positions -/

/-- Every live order outside `Z` stands in the position of its class on its lane. -/
def PlacedBut (Z : Set Slot) (s : State) : Prop :=
  ∀ i o, i ∉ Z → s.orderAt i = some o → (s.lane o.actuator).orderSet.get o.cls = some (s.handleAt i)

section
variable {Z : Set Slot} {s t : State}

/-- An order kept is in its position where the position keeps it. -/
theorem PlacedBut.kept (h : PlacedBut Z s) (orders : OrdersKept s t)
    (positions : ∀ i p a c, t.orderAt i = some p → (s.lane a).orderSet.get c = some (s.handleAt i) →
      (t.lane a).orderSet.get c = some (s.handleAt i)) : PlacedBut Z t := by
  intro i p outside live
  obtain ⟨o, was, kept, gen⟩ := orders i p live
  have handle : t.handleAt i = s.handleAt i := congrArg (Handle.mk i) gen
  rw [handle, kept.1, kept.2.1]
  exact positions i p _ _ live (h i o outside was)

theorem PlacedBut.of_positions (h : PlacedBut Z s) (orders : OrdersKept s t)
    (same : ∀ a, (t.lane a).orderSet = (s.lane a).orderSet) : PlacedBut Z t :=
  h.kept orders fun _ _ a _ _ position => by rwa [same]

theorem PlacedBut.engine (h : PlacedBut Z s) (frame : EngineFrame s t)
    (same : ∀ a, (t.lane a).orderSet = (s.lane a).orderSet) : PlacedBut Z t := h.of_positions frame.orders same

theorem PlacedBut.stands (h : PlacedBut Z s) (slots : SlotsStand s t)
    (same : ∀ a, (t.lane a).orderSet = (s.lane a).orderSet) : PlacedBut Z t := by
  intro i p outside live
  obtain ⟨o, was, cls, actuator, -⟩ := slots.was live
  rw [slots.handleAt, same, cls, actuator]
  exact h i o outside was

theorem PlacedBut.of_empty (none : ∀ i, s.orderAt i = none) : PlacedBut Z s := fun i o _ live => by
  rw [none] at live
  cases live

theorem PlacedBut.updOrder (h : PlacedBut Z s) {i : Slot} {f : Order → Order} (hf : ∀ o : Order, o.kept (f o)) :
    PlacedBut Z (s.updOrder i f) := h.engine (updOrder_frame hf) fun a => by rw [updOrder_lane]

theorem PlacedBut.resolve (h : PlacedBut Z s) (a : Actuator) : PlacedBut Z (resolve a s) :=
  h.engine (resolve_frame a s) fun b => resolve_orderSet a b s

theorem PlacedBut.takeHolds (h : PlacedBut Z s) (a : Actuator) : PlacedBut Z (takeHolds a s) :=
  h.engine (takeHolds_frame a s) (takeHolds_resolves a s).orderSets

theorem PlacedBut.retireOne (h : PlacedBut Z s) (lane : Bool) (i : Slot) (c : Cause) :
    PlacedBut Z (retireOne lane i c s) := by
  cases own : s.orderAt i with
  | none => rw [retireOne_dead own]; exact h
  | some o =>
    refine h.kept (retireOne_frame lane i c s).orders fun j p a d live position => retireOne_position ?_ position
    rintro rfl
    have gone := retireOne_unreached lane j c s
    obtain ⟨-, -, -, gen⟩ := (retireOne_frame lane j c s).orders j p live
    have there : (Machine.retireOne lane j c s).order? (s.handleAt j) = some p :=
      order?_of_orderAt (congrArg (Handle.mk j) gen) live
    rw [there] at gone
    cases gone

theorem placedBut_engine (Z : Set Slot) : EngineKeeps (PlacedBut Z) (fun _ => True) (fun _ => True) where
  resolved h _ _ := h.resolve _
  waits _ _ _ := trivial
  settles _ _ := trivial
  lose h _ _ := h.retireOne _ _ _
  cond {_ k} g c h _ := h.engine (setCond_frame k g c _) fun a => by rw [setCond, updOrder_lane]
  trip h _ _ _ _ _ _ := h.retireOne _ _ _
  ready h _ _ := h.updOrder fun _ => by simp [Order.kept]
  settled h _ := h.updOrder fun _ => by simp [Order.kept]
  complete h _ _ _ _ := h.retireOne _ _ _

theorem PlacedBut.retireCore (h : PlacedBut Z s) (lane : Bool) (i : Slot) (c : Cause) :
    PlacedBut Z (retireCore lane i c s) :=
  (placedBut_engine Z).retireCore h fun _ _ => h.retireOne lane i c

/-! ### A placement -/

/-- No order of the class is on the lane. -/
def NoRival (a : Actuator) (c : Cls) (s : State) : Prop := ∀ i o, s.orderAt i = some o → ¬ (o.actuator = a ∧ o.cls = c)

/-- Two orders of one class on one lane would stand in one position. -/
theorem supersede_noRival (h : PlacedBut ∅ s) (a : Actuator) (c : Cls) : NoRival a c (supersede a c s) := by
  unfold supersede
  split
  · next i found =>
    obtain ⟨o, own, actuator, cls⟩ := findOrder_some found
    rintro j p live ⟨onLane, ofCls⟩
    obtain ⟨q, was, kept, -⟩ := (retireCore_frame false i .superseded s).orders j p live
    have first := h i o (Set.notMem_empty i) own
    have second := h j q (Set.notMem_empty j) was
    rw [actuator, cls] at first
    rw [← kept.2.1, ← kept.1, onLane, ofCls, first] at second
    obtain rfl : i = j := handleAt_inj (Option.some.inj second)
    rw [State.orderAt, retireCore_self own] at live
    cases live
  · next none => exact fun i o live => findOrder_none none live

theorem PlacedBut.supersede (h : PlacedBut Z s) (a : Actuator) (c : Cls) : PlacedBut Z (supersede a c s) := by
  unfold Machine.supersede
  split
  · exact h.retireCore _ _ _
  · exact h

theorem PlacedBut.armedNew (h : PlacedBut ∅ s) (o : Order) (i : Slot) : PlacedBut {i} (armedNew o i s) := by
  have written : PlacedBut {i} (written o i s) := fun j p outside live => by
    have slot : (Machine.written o i s).slot j = s.slot j := (written_slot o i s j).trans (if_neg outside)
    rw [State.orderAt, slot] at live
    rw [State.handleAt, slot]
    exact h j p (Set.notMem_empty j) live
  unfold Machine.armedNew
  split
  · exact (placedBut_engine {i}).armGuards trivial written
  · exact written

/-- The orders of a placement whose guards are armed: the new one, and those there were. -/
theorem armedNew_orders {o p : Order} {i j : Slot} (live : (armedNew o i s).orderAt j = some p) :
    ((armedNew o i s).slot j).gen = (s.slot j).gen ∧
      (j = i ∧ o.kept p ∨ j ≠ i ∧ ∃ q, s.orderAt j = some q ∧ q.kept p) := by
  have written : ∀ {q}, (written o i s).orderAt j = some q → ((written o i s).slot j).gen = (s.slot j).gen ∧
      (j = i ∧ o.kept q ∨ j ≠ i ∧ s.orderAt j = some q) := fun {q} there => by
    rw [State.orderAt, written_slot] at there
    rw [written_slot]
    split at there
    · next same => cases there; subst same; exact ⟨by rw [if_pos rfl], .inl ⟨rfl, by simp [Order.kept]⟩⟩
    · next apart => exact ⟨by rw [if_neg apart], .inr ⟨apart, there⟩⟩
  unfold armedNew at live ⊢
  split at live
  · next pending =>
    rw [if_pos pending]
    obtain ⟨q, there, kept, gen⟩ := (armGuards_frame _ _).orders j p live
    obtain ⟨gen', which⟩ := written there
    refine ⟨gen.trans gen', which.imp (fun ⟨same, k⟩ => ⟨same, Order.kept_trans k kept⟩)
      fun ⟨apart, was⟩ => ⟨apart, q, was, kept⟩⟩
  · next not =>
    rw [if_neg not]
    obtain ⟨gen, which⟩ := written live
    exact ⟨gen, which.imp id fun ⟨apart, was⟩ => ⟨apart, p, was, Order.kept_refl p⟩⟩

/-- The position of a new order is vacant before the lane records it. -/
theorem PlacedBut.entered (h : PlacedBut ∅ s) {o : Order} (vacant : NoRival o.actuator o.cls s) (i : Slot) :
    PlacedBut ∅ (entered o i s) := by
  intro j p _ live
  have armed := h.armedNew o i
  have slot : (Machine.entered o i s).slot j = (Machine.armedNew o i s).slot j := recordOrder_slot _ _ _ _ _
  rw [State.orderAt, slot] at live
  rw [State.handleAt, slot]
  obtain ⟨gen, new | ⟨apart, q, was, kept⟩⟩ := armedNew_orders live
  · obtain ⟨rfl, kept⟩ := new
    have there : (Machine.armedNew o j s).order? (s.handleAt j) = some p :=
      order?_of_orderAt (congrArg (Handle.mk j) gen) live
    rw [Machine.entered, recordOrder_live there, lane_updLane, if_pos kept.2.1]
    dsimp only
    rw [kept.1, PerClass.get_set, if_pos rfl, gen]
    rfl
  · have position := armed j p apart live
    unfold Machine.entered recordOrder
    split
    · rw [lane_updLane]
      split
      · next same =>
        dsimp only
        rw [PerClass.get_set, if_neg fun cls => vacant j q was ⟨kept.2.1.symm.trans same, kept.1.symm.trans cls⟩, ← same]
        exact position
      · exact position
    · exact position

theorem PlacedBut.places (h : PlacedBut ∅ s) (o : Order) : PlacedBut ∅ (placeOrder o s).1 := by
  have superseded := h.supersede o.actuator o.cls
  cases free : (Machine.supersede o.actuator o.cls s).freeSlot? with
  | none => rw [placeOrder_full free]; exact superseded
  | some i =>
    rw [placeOrder_free free, installOrder_eq]
    refine (placedBut_engine ∅).settleGate ?_
    have entered := superseded.entered (supersede_noRival h o.actuator o.cls) i
    unfold resolvedNew
    split
    · exact entered.resolve _
    · exact entered

/-! ### The map and the modes -/

theorem PlacedBut.downs (h : PlacedBut Z s) (a : Actuator) (c : Chan) : PlacedBut Z (actuatorDown a c s) := by
  have loose : PlacedBut Z (unassigned a c s) :=
    h.stands (.of_slots (Machine.unassigned_leaves a c s).1) fun b => by rw [unassigned_lane]
  have lost : PlacedBut Z (retireDriveLost a (unassigned a c s)) := by
    rw [retireDriveLost_eq]
    exact List.foldlRecOn allSlots _ loose fun t ht i _ => driveTurn_keeps ht fun _ _ _ => ht.retireCore _ _ _
  rw [actuatorDown_eq]
  refine lost.stands (.of_slots (laneDown_leaves a _).1) fun b => ?_
  by_cases same : b = a
  · subst same; rw [laneDown_lane]
  · rw [laneDown_other same]

theorem bringBack_orderSet (a : Actuator) (c : Chan) (s : State) (b : Actuator) :
    ((bringBack a c s).lane b).orderSet = (s.lane b).orderSet := by
  by_cases same : b = a
  · subst same
    rw [bringBack_eq, laneRest_lane, if_pos rfl, lane_of_lanes (broughtBack_leaves b c s).1]
  · rw [(bringBack_lane a c s).2 b same]

theorem PlacedBut.maps (h : PlacedBut Z s) (a : Actuator) (c : Chan) : PlacedBut Z (applyMap a c s) := by
  rcases applyMap_cases a c s with e | ⟨-, e⟩ | ⟨-, -, e⟩ | ⟨-, -, e⟩ <;> rw [e]
  · exact h
  · exact h.stands (.of_slot fun _ => rfl) fun _ => rfl
  · exact h.stands (.of_slot (bringBack_slot a c s)) (bringBack_orderSet a c s)
  · exact h.stands (.of_slot (moveActuator_slot a c s)) fun b => by rw [moveActuator_lane]

theorem Act.placed (act : Act s t) (setup : SetupLaw s) (h : PlacedBut ∅ s) : PlacedBut ∅ t := by
  cases act with
  | stands k => exact h.stands k.slots fun a => (k.lanes a).orderSet
  | @resolves a f _ ranks =>
    have reranked : PlacedBut ∅ (s.updLane a f) := h.stands (.of_slots rfl) fun b => by
      rw [lane_updLane]
      split
      · next same => subst same; exact (ranks _).2.2.1
      · rfl
    exact reranked.resolve a
  | holds _ _ => exact h.takeHolds _
  | settles _ => exact (placedBut_engine ∅).settleOrder h trivial
  | retires c _ => exact h.retireCore _ _ c
  | places _ _ => exact h.places _
  | @moves c k a sp _ _ _ =>
    have faulted : PlacedBut ∅ (faulted c k s) := h.stands (.of_slot fun _ => rfl) fun _ => rfl
    exact faulted.stands (.of_slot (moveActuator_slot _ _ _)) fun b => by rw [moveActuator_lane]
  | @downs c a k _ _ =>
    have faulted : PlacedBut ∅ (faulted c k s) := h.stands (.of_slot fun _ => rfl) fun _ => rfl
    exact faulted.downs _ _
  | maps _ _ _ => exact h.maps _ _
  | starts inSetup =>
    refine .of_empty fun i => ?_
    rw [State.orderAt, (startLanes_leaves s).2]
    exact setup.noOrders inSetup i
  | restarts =>
    refine .of_empty (setupLaw_restart s |>.noOrders ?_)
    obtain ⟨_, _, _, _, _, e⟩ := restartRun_writes s
    rw [e]
  | powers =>
    have reset : PlacedBut ∅ State.reset := fun i o _ => lawsHoldAtReset.2.2.2.2.2.2.2.2.2.2.1.placed i o
    exact reset.stands (t := { State.reset with pending := s.pending, draws := s.draws }) (.of_slot fun _ => rfl)
      fun _ => rfl

/-! ### The obligation -/

/-- The law of a chain of acts for the lane law: with the SETUP law, which says where START finds no order. -/
def LanesAgree (s : State) : Prop := SetupLaw s ∧ LanesBut ∅ ∅ ∅ ∅ s

/-- And for the rank law: with the orders in their positions and none on a DOWN lane, which a MAP may bring back. -/
def LanesRank (s : State) : Prop := SetupLaw s ∧ DownLaw s ∧ LanesBut Set.univ ∅ ∅ ∅ s ∧ PlacedBut ∅ s

theorem Act.lanesAgree (act : Act s t) : LanesAgree s → LanesAgree t := fun ⟨setup, lanes⟩ =>
  ⟨act.setup setup, act.lanesBut setup (fun _ none => none.elim) lanes⟩

theorem Act.lanesRank (act : Act s t) : LanesRank s → LanesRank t := fun ⟨setup, down, lanes, placed⟩ =>
  ⟨act.setup setup, act.down setup down, act.lanesBut setup (fun _ _ => down) lanes, act.placed setup placed⟩

/-- Settles O55. -/
theorem everyStepKeepsLaneLaw : Obligations.EveryStepKeepsLaneLaw := by
  intro s t e setup law
  refine ⟨laneLaw_iff.2 (step_keeps (P := LanesAgree) Act.lanesAgree e ⟨setup, laneLaw_iff.1 law⟩).2, fun drive ranks => ?_⟩
  have start : LanesRank s := ⟨setup, (driveLaw_iff.1 drive).1, lanesBut_univ_iff.2 ⟨law, ranks.resolved⟩,
    fun i o _ => ranks.placed i o⟩
  obtain ⟨-, -, lanes, placed⟩ := step_keeps (P := LanesRank) Act.lanesRank e start
  exact ⟨fun i o => placed i o (Set.notMem_empty i), (lanesBut_univ_iff.1 lanes).2⟩

end

end Sys2Proof.Machine
end

section
/-! The dwell expiry of a guard (R79 to R81). -/

namespace Sys2Proof.Machine

section
variable {h : Handle} {g : Fin 2} {o : Order} {e : GuardEntry} {n : Nat} {s : State}

/-- The order with one of its guards ACTIVE. -/
def Order.withActive (o : Order) (g : Nat) (e : GuardEntry) : Order :=
  { o with guards := o.guards.set g { e with cond := .active } }

theorem withActive_frozen {g : Nat} (at' : o.guards[g]? = some e) : (o.withActive g e).frozen = true := by
  obtain ⟨inside, -⟩ := List.getElem?_eq_some_iff.1 at'
  exact List.any_eq_true.2 ⟨_, List.mem_set inside _, rfl⟩

theorem guardDwellExpiry_early (live : s.order? h = some o) (at' : o.guards[g.val]? = some e) (timing : e.cond = .timing n)
    (early : n < e.guard.dwell) : exec (.guardDwellExpiry h g) s = .next s := by
  show execGuardDwellExpiry h g s = _
  simp [execGuardDwellExpiry, live, at', GuardEntry.dwellDue, timing, early]

theorem guardDwellExpiry_due (live : s.order? h = some o) (at' : o.guards[g.val]? = some e) (timing : e.cond = .timing n)
    (due : e.guard.dwell ≤ n) : exec (.guardDwellExpiry h g) s = .next (guardAct h g.val e.guard.action s) := by
  show execGuardDwellExpiry h g s = _
  simp [execGuardDwellExpiry, live, at', GuardEntry.dwellDue, timing, due]

theorem setCond_active {g : Nat} (live : s.order? h = some o) (at' : o.guards[g]? = some e) :
    setCond h g .active s = s.setSlot h.slot ⟨h.gen, some (o.withActive g e)⟩ := by
  have modified : (o.guards.modify g fun e => { e with cond := .active }) = o.guards.set g { e with cond := .active } := by
    rw [List.modify_eq_set_getElem?, at']
    rfl
  rw [setCond, updOrder_eq live, modified]
  rfl

/-- A FREEZE guard that acts, with the order as it leaves it. -/
theorem guardAct_freeze {g : Nat} (live : s.order? h = some o) (at' : o.guards[g]? = some e) :
    guardAct h g .freeze s = if o.state = .governing
      then takeHolds o.actuator (s.setSlot h.slot ⟨h.gen, some (o.withActive g e)⟩)
      else s.setSlot h.slot ⟨h.gen, some (o.withActive g e)⟩ := by
  unfold guardAct
  dsimp only
  rw [setCond_active live at', order?_setSlot]
  rfl

/-- The hold of a governing order that is frozen. -/
theorem takeHolds_frozen (gov : (s.lane o.actuator).gov = some h) (frozen : o.frozen = true) :
    takeHolds o.actuator (s.setSlot h.slot ⟨h.gen, some o⟩) =
      (s.setSlot h.slot ⟨h.gen, some { o with settled := false }⟩).updLane o.actuator fun l =>
        { l with state := .held, guardHold := true, maskHold := l.masked o.cls, detector := .idle } := by
  have governs : (s.setSlot h.slot ⟨h.gen, some o⟩).governing o.actuator = some (h, o) :=
    governing_eq_some.2 ⟨gov, order?_setSlot s h o⟩
  rw [takeHolds_holds governs (by rw [frozen, Bool.or_true]), updOrder_setSlot, frozen]
  unfold State.updLane
  congr

/-- Settles O34. -/
theorem guardDwellExpiryActs : Obligations.GuardDwellExpiryActs := by
  intro h g o e n s live at' timing
  have acts := guardDwellExpiry_due live at' timing
  refine ⟨guardDwellExpiry_early live at' timing, fun due retires => ?_, fun due freezes idle => ?_,
    fun due freezes governs gov => ?_⟩
  · obtain ⟨handle, own⟩ := order?_eq_some live
    have self := retire_self (c := .guardTrip) own
    have first := retire_first (c := .guardTrip) own (by simp)
    rw [order?_slot live] at self
    rw [handle] at first
    refine ⟨_, ?_, self, first, retire_frame _ _ _⟩
    rw [acts due, retires]
    rfl
  · rw [acts due, freezes, guardAct_freeze live at', if_neg idle]
    rfl
  · rw [acts due, freezes, guardAct_freeze live at', if_pos governs]
    exact congrArg _ (takeHolds_frozen (o := o.withActive g.val e) gov (withActive_frozen at'))

end

end Sys2Proof.Machine
end

section
/-! The requests that set a lane's ranks (R44, R46, R47, R49): their bodies read, their answers, and the one resolution of
a lane whose only order governs it. -/

namespace Sys2Proof.Machine

/-! ### The requests -/

theorem request_done {kind : Byte} {r : Req} {s t : State} {block : State → Reply} {body : List Byte}
    (short : r.body.length ≤ 120) (e : block (received s) = done t body) :
    request kind r s block = .next (answered kind r .done body t) := by
  rw [request_eq short, e]
  rfl

theorem formActuatorClass_bytes (a : Actuator) (c : Cls) :
    formActuatorClass (putByte a.val ++ putByte c.code) = some (a.val, c) := by
  simp [putByte, formActuatorClass, cls?_code, Nat.mod_eq_of_lt (by omega : a.val < 256)]

theorem formYield_bytes (a : Actuator) (on : Bool) : formYield (putByte a.val ++ putFlag on) = some (a.val, on) := by
  simp [putByte, putFlag_eq, formYield, flag?_flagByte, Nat.mod_eq_of_lt (by omega : a.val < 256)]

section
variable {a : Actuator} {c : Cls} {on : Bool} {s : State}

theorem checkLaneClass_ok (other : c ≠ .guard) (may : applicable c a = true) : checkLaneClass (a.val, c) = .ok a := by
  have fits : (decide (c ≠ .guard) && applicable c a) = true := by simp [other, may]
  unfold checkLaneClass
  rw [actuatorField_val, bind_ok rfl, fits, require_true, bind_ok rfl]

/-- OPERATOR's request that names a class of a lane passes the steps of R170 in RUN. -/
theorem laneClass_passes (tag : Word) (run : s.mode = .run) (other : c ≠ .guard) (may : applicable c a = true)
    (k : Cls → Actuator → Reply) : (inRun s <| admitting (isOperator ⟨.operator, tag, putByte a.val ++ putByte c.code⟩) s <|
      formed (formActuatorClass (putByte a.val ++ putByte c.code)) s fun f =>
        checked (checkLaneClass f) s fun a => k f.2 a) = k c a := by
  rw [inRun_run run, formActuatorClass_bytes, formed_some, checkLaneClass_ok other may, checked_ok]
  rfl

theorem exec_lowest (tag : Word) (run : s.mode = .run) (other : c ≠ .guard) (may : applicable c a = true) :
    let r : Req := ⟨.operator, tag, putByte a.val ++ putByte c.code⟩
    let t := setLowest a c (received s)
    exec (.lowest r) s = .next (answered 0x20 r .done (putClasses (t.lane a).precedence ++ t.laneReport a) t) :=
  (show execLowest _ s = _ from request_done (by simp [putByte]) <|
    laneClass_passes (s := received s) tag run other may fun c a =>
      let t := setLowest a c (received s)
      done t (putClasses (t.lane a).precedence ++ t.laneReport a))

theorem exec_mask (tag : Word) (run : s.mode = .run) (other : c ≠ .guard) (may : applicable c a = true) :
    let r : Req := ⟨.operator, tag, putByte a.val ++ putByte c.code⟩
    let t := setMask a c true (received s)
    exec (.mask r) s = .next (answered 0x21 r .done (putClasses (t.maskList a) ++ t.laneReport a) t) :=
  (show execMask _ s = _ from request_done (by simp [putByte]) <|
    laneClass_passes (s := received s) tag run other may fun c a => maskReply a (setMask a c true (received s)))

theorem exec_unmask (tag : Word) (run : s.mode = .run) (other : c ≠ .guard) (may : applicable c a = true) :
    let r : Req := ⟨.operator, tag, putByte a.val ++ putByte c.code⟩
    let t := setMask a c false (received s)
    exec (.unmask r) s = .next (answered 0x22 r .done (putClasses (t.maskList a) ++ t.laneReport a) t) :=
  (show execUnmask _ s = _ from request_done (by simp [putByte]) <|
    laneClass_passes (s := received s) tag run other may fun c a => maskReply a (setMask a c false (received s)))

theorem exec_yield (tag : Word) (run : s.mode = .run) :
    let r : Req := ⟨.operator, tag, putByte a.val ++ putFlag on⟩
    let t := setYield a on (received s)
    exec (.yield r) s = .next (answered 0x23 r .done (putFlag (t.lane a).yield ++ t.laneReport a) t) := by
  refine show execYield _ s = _ from request_done (by simp [putByte, putFlag_eq]) ?_
  dsimp only
  rw [inRun_run (s := received s) run, formYield_bytes, formed_some, actuatorField_val, checked_ok]
  rfl

/-! ### A setting, and the resolution and settle it brings -/

theorem setMask_same (same : (s.lane a).mask.get c = on) : setMask a c on s = s := if_pos same

theorem setMask_new (new : (s.lane a).mask.get c ≠ on) : setMask a c on s =
    settleGate (resolve a (s.updLane a fun l => { l with mask := l.mask.set c on })) := if_neg new

theorem resettled_frame (a : Actuator) (s : State) : EngineFrame s (settleGate (resolve a s)) :=
  (resolve_frame a s).trans (settleGate_frame _)

theorem setMask_mask (d : Cls) : ((setMask a c on s).lane a).mask.get d = if d = c then on else (s.lane a).mask.get d := by
  by_cases same : (s.lane a).mask.get c = on
  · rw [setMask_same same]
    split
    · next e => rw [e, same]
    · rfl
  · obtain ⟨-, mask, -⟩ := (resettled_frame a (s.updLane a fun l => { l with mask := l.mask.set c on })).tables.lanes a
    rw [setMask_new same, mask, lane_updLane, if_pos rfl]
    exact PerClass.get_set _ _ _ _

theorem setMask_list : (setMask a c on s).maskList a =
    (cycleOf a).filter fun d => if d = c then on else (s.lane a).mask.get d := by
  rw [maskList_eq]
  exact List.filter_congr fun d _ => setMask_mask d

end

/-! ### The only order on a lane, which governs it -/

theorem updLane_congr {s : State} {a : Actuator} {f g : Lane → Lane} (same : f (s.lane a) = g (s.lane a)) :
    s.updLane a f = s.updLane a g := by
  unfold State.updLane
  rw [same]

theorem setSlot_updLane (s : State) (i : Slot) (x : SlotState) (a : Actuator) (f : Lane → Lane) :
    (s.updLane a f).setSlot i x = (s.setSlot i x).updLane a f := rfl

/-- The order `o` under `h` governs the lane, and no other order is on it. -/
structure GovernsAlone (a : Actuator) (h : Handle) (o : Order) (s : State) : Prop where
  live : s.order? h = some o
  gov : (s.lane a).gov = some h
  only : ∀ d, d ≠ o.cls → (s.lane a).orderSet.get d = none

section
variable {a : Actuator} {h : Handle} {o : Order} {s : State}

theorem GovernsAlone.governing (x : GovernsAlone a h o s) : s.governing a = some (h, o) :=
  governing_eq_some.2 ⟨x.gov, x.live⟩

/-- A change of the mask leaves it. -/
theorem GovernsAlone.remask (x : GovernsAlone a h o s) (m : PerClass Bool) :
    GovernsAlone a h o (s.updLane a fun l => { l with mask := m }) where
  live := x.live
  gov := by rw [lane_updLane, if_pos rfl]; exact x.gov
  only d other := by rw [lane_updLane, if_pos rfl]; exact x.only d other

/-- Whatever may govern is the order itself. -/
theorem GovernsAlone.candidate (x : GovernsAlone a h o s) {c : Cls} {k : Handle} (e : s.candidate a = some (c, k)) :
    c = o.cls := by
  obtain ⟨position, -⟩ := candidate_eq_some e
  by_contra other
  rw [x.only c other] at position
  cases position

/-- It keeps its place where it does not yield: the resolution takes the holds. -/
theorem GovernsAlone.resolve_stays (x : GovernsAlone a h o s)
    (acts : ¬ ((s.lane a).state = .off ∨ (s.lane a).state = .down))
    (stays : ((s.lane a).masked o.cls && (s.lane a).yield) = false) : resolve a s = takeHolds a s := by
  have yield : resolveYield a s = s := by
    simp only [resolveYield, x.governing, stays, Bool.false_eq_true, if_false]
  have choice : resolveChoice a s = s := by
    cases e : s.candidate a with
    | none => simp only [resolveChoice, x.governing, e]
    | some found =>
      obtain ⟨c, k⟩ := found
      obtain rfl := x.candidate e
      simp [resolveChoice, x.governing, e, Lane.ranksAbove]
  rw [resolve_acts acts, yield, choice]

/-- Its lane at rest, the order PENDING. -/
def yielded (a : Actuator) (h : Handle) (o : Order) (s : State) : State :=
  (s.setSlot h.slot ⟨h.gen, some { o with state := .pending, settled := false }⟩).updLane a fun l =>
    { l with gov := none, maskHold := false, guardHold := false, state := .rest, detector := .idle }

/-- Masked on a lane that yields, it is demoted, and nothing takes its place. -/
theorem GovernsAlone.resolve_yields (x : GovernsAlone a h o s)
    (acts : ¬ ((s.lane a).state = .off ∨ (s.lane a).state = .down))
    (masked : (s.lane a).masked o.cls = true) (yields : (s.lane a).yield = true) :
    resolve a s = if a = gate then gateStep 0 (yielded a h o s) else yielded a h o s := by
  have demoted : demote a s =
      (s.setSlot h.slot ⟨h.gen, some { o with state := .pending, settled := false }⟩).updLane a fun l =>
        { l with gov := none, detector := .idle } := by
    simp only [demote, x.gov]
    rw [updOrder_eq x.live]
  have yield : resolveYield a s = demote a s := by
    simp only [resolveYield, x.governing, masked, yields, Bool.and_self, if_true]
  have lane : (demote a s).lane a = { s.lane a with gov := none, detector := .idle } := by
    rw [demoted, lane_updLane, if_pos rfl]
    rfl
  have ungoverned : (demote a s).governing a = none := by rw [State.governing, lane]
  have none : (demote a s).candidate a = none := by
    cases e : (demote a s).candidate a with
    | none => rfl
    | some found =>
      obtain ⟨c, k⟩ := found
      obtain ⟨position, unmasked, -⟩ := candidate_eq_some e
      rw [lane] at position unmasked
      by_cases same : c = o.cls
      · rw [same] at unmasked
        exact absurd (masked.symm.trans unmasked) (by simp)
      · rw [x.only c same] at position
        cases position
  have choice : resolveChoice a (demote a s) = demote a s := by simp only [resolveChoice, ungoverned, none]
  have rests : ((demote a s).updLane a fun l =>
      { l with gov := Option.none, maskHold := false, guardHold := false, state := .rest, detector := .idle }) =
      yielded a h o s := by
    rw [demoted, updLane_updLane]
    rfl
  rw [resolve_acts acts, yield, choice]
  unfold takeHolds
  rw [ungoverned]
  dsimp only
  rw [rests]

end

/-! ### Nothing settles on the GATE -/

theorem gateSettles_undriven {s : State} (state : (s.lane gate).state ≠ .driven) : s.gateSettles = none := by
  cases e : s.gateSettles with
  | none => rfl
  | some k =>
    obtain ⟨-, -, -, driven, -⟩ := gateSettles_iff.1 e
    exact absurd driven state

/-- The resolution of another lane brings the GATE nothing to settle. -/
theorem resolve_settles_nothing {a : Actuator} {s : State} (own : NamesOwn s) (apart : a ≠ gate)
    (quiet : s.gateSettles = none) : (resolve a s).gateSettles = none :=
  (resolve_gateAlike own apart).settles own (resolve_frame a s).orders quiet

/-- A change of a lane's mask settles nothing. -/
theorem remask_settles {a : Actuator} {s : State} (m : PerClass Bool) :
    (s.updLane a fun l => { l with mask := m }).gateSettles = s.gateSettles := by
  have lane : ∃ m', ((s.updLane a fun l => { l with mask := m }).lane gate) = { s.lane gate with mask := m' } := by
    rw [lane_updLane]
    split
    · next same => subst same; exact ⟨_, rfl⟩
    · exact ⟨_, rfl⟩
  obtain ⟨m', lane⟩ := lane
  have governing : (s.updLane a fun l => { l with mask := m }).governing gate = s.governing gate := by
    rw [State.governing, lane]
    rfl
  have at' : ∀ v, (s.updLane a fun l => { l with mask := m }).atTarget gate v = s.atTarget gate v := fun v => by
    rw [State.atTarget, lane]
    rfl
  rw [State.gateSettles, governing, lane]
  simp only [at']
  rfl

theorem NamesOwn.remask {s : State} (own : NamesOwn s) (a : Actuator) (m : PerClass Bool) :
    NamesOwn (s.updLane a fun l => { l with mask := m }) := by
  intro b k q names live
  refine own b k q ?_ live
  unfold State.names at names ⊢
  rw [lane_updLane] at names
  split at names
  · next same => subst same; exact names
  · exact names

/-! ### MASK of the governing class (R46) -/

section
variable {a : Actuator} {h : Handle} {o : Order} {s : State}

/-- A lane HELD by the mask. -/
def maskHeld (a : Actuator) (h : Handle) (o : Order) (s : State) : State :=
  (s.setSlot h.slot ⟨h.gen, some { o with settled := false }⟩).updLane a fun l =>
    { l with mask := l.mask.set o.cls true, state := .held, maskHold := true, guardHold := o.frozen, detector := .idle }

/-- A lane at rest, its order masked and PENDING. -/
def maskYielded (a : Actuator) (h : Handle) (o : Order) (s : State) : State :=
  (s.setSlot h.slot ⟨h.gen, some { o with state := .pending, settled := false }⟩).updLane a fun l =>
    { l with
      mask := l.mask.set o.cls true, state := .rest, gov := none, maskHold := false, guardHold := false
      detector := .idle }

section
variable (x : GovernsAlone a h o s) (driven : (s.lane a).state = .driven) (other : o.cls ≠ .guard)
  (unmasked : (s.lane a).mask.get o.cls = false) (quiet : s.gateSettles = none) (own : NamesOwn s)
include x driven other unmasked quiet own

omit x driven other in
/-- The settle that follows the mask finds nothing. -/
theorem setMask_governing {t : State}
    (e : resolve a (s.updLane a fun l => { l with mask := (s.lane a).mask.set o.cls true }) = t)
    (gateAt : a = gate → (t.lane gate).state ≠ .driven) : setMask a o.cls true s = t := by
  have writes : (s.updLane a fun l => { l with mask := l.mask.set o.cls true }) =
      s.updLane a fun l => { l with mask := (s.lane a).mask.set o.cls true } := updLane_congr rfl
  rw [setMask_new (by rw [unmasked]; simp), writes, settleGate_none, e]
  by_cases onGate : a = gate
  · rw [e]
    exact gateSettles_undriven (gateAt onGate)
  · exact resolve_settles_nothing (own.remask a _) onGate (by rw [remask_settles]; exact quiet)

theorem setMask_holds (yield : (s.lane a).yield = false) : setMask a o.cls true s = maskHeld a h o s := by
  have lane : (s.updLane a fun l => { l with mask := (s.lane a).mask.set o.cls true }).lane a =
      { s.lane a with mask := (s.lane a).mask.set o.cls true } := by rw [lane_updLane, if_pos rfl]
  have masked : ((s.updLane a fun l => { l with mask := (s.lane a).mask.set o.cls true }).lane a).masked o.cls = true := by
    rw [lane]
    simp [Lane.masked, other, PerClass.get_set]
  have y := x.remask ((s.lane a).mask.set o.cls true)
  refine setMask_governing unmasked quiet own ?_ fun onGate => ?_
  · rw [y.resolve_stays (by rw [lane]; simp [driven]) (by rw [lane]; simp [yield]),
      takeHolds_holds y.governing (by rw [masked]; rfl), masked, updOrder_eq y.live]
    rw [setSlot_updLane, updLane_updLane]
    exact updLane_congr rfl
  · subst onGate
    rw [maskHeld, lane_updLane, if_pos rfl]
    simp

theorem setMask_demotes (yield : (s.lane a).yield = true) :
    setMask a o.cls true s = if a = gate then gateStep 0 (maskYielded a h o s) else maskYielded a h o s := by
  have lane : (s.updLane a fun l => { l with mask := (s.lane a).mask.set o.cls true }).lane a =
      { s.lane a with mask := (s.lane a).mask.set o.cls true } := by rw [lane_updLane, if_pos rfl]
  have masked : ((s.updLane a fun l => { l with mask := (s.lane a).mask.set o.cls true }).lane a).masked o.cls = true := by
    rw [lane]
    simp [Lane.masked, other, PerClass.get_set]
  have y := x.remask ((s.lane a).mask.set o.cls true)
  have rests : yielded a h o (s.updLane a fun l => { l with mask := (s.lane a).mask.set o.cls true }) =
      maskYielded a h o s := by
    rw [yielded, setSlot_updLane, updLane_updLane]
    exact updLane_congr rfl
  refine setMask_governing unmasked quiet own ?_ fun onGate => ?_
  · rw [y.resolve_yields (by rw [lane]; simp [driven]) masked (by rw [lane]; exact yield), rests]
  · subst onGate
    rw [if_pos rfl, gateStep_lane, maskYielded, lane_updLane, if_pos rfl]
    simp

end

/-- The lane of the step on the GATE reports its state and governing order as before. -/
theorem laneReport_step (a : Actuator) (v : Int) (s : State) :
    (if a = gate then gateStep v s else s).laneReport a = s.laneReport a := by
  rw [State.laneReport, stepOnGate_lane]
  rfl

/-- Settles O27. -/
theorem maskHoldsOrDemotesTheGoverningOrder : Obligations.MaskHoldsOrDemotesTheGoverningOrder := by
  intro a h o tag s run live gov driven other may unmasked governs position only quiet law
  have x : GovernsAlone a h o (received s) := ⟨live, gov, only⟩
  have own : NamesOwn (received s) := law.namesOwn
  have answer := exec_mask (a := a) (c := o.cls) tag run other may
  dsimp only at answer
  rw [setMask_list] at answer
  have list : ((cycleOf a).filter fun d => if d = o.cls then true else ((received s).lane a).mask.get d) =
      (cycleOf a).filter fun d => d = o.cls || (s.lane a).mask.get d := by
    refine List.filter_congr fun d _ => ?_
    by_cases same : d = o.cls <;> simp [same]
  rw [list] at answer
  refine ⟨fun yield => ?_, fun yield => ?_⟩
  · rw [answer, setMask_holds x driven other unmasked quiet own yield, List.append_assoc]
    have report : (maskHeld a h o (received s)).laneReport a = [3] ++ putHandle (some h) := by
      rw [State.laneReport, maskHeld, lane_updLane, if_pos rfl]
      exact congrArg (fun k => [3] ++ putHandle k) gov
    rw [report]
    rfl
  · rw [answer, setMask_demotes x driven other unmasked quiet own yield, List.append_assoc, laneReport_step]
    have report : (maskYielded a h o (received s)).laneReport a = [1] ++ noHandle := by
      rw [State.laneReport, maskYielded, lane_updLane, if_pos rfl]
      rfl
    rw [report]
    rfl

end

end Sys2Proof.Machine
end

section
/-! LOWEST, MASK, UNMASK and YIELD (R44, R46, R47, R49): the setting, the lane left resolved, and what UNMASK returns a
HELD lane to. -/

namespace Sys2Proof.Machine

/-! ### The lane left resolved -/

section
variable {a : Actuator} {s : State}

/-- A lane law asks no lane to be resolved; so one lane may be left to resolve. -/
theorem LanesBut.unresolved (h : LanesBut ∅ ∅ ∅ ∅ s) (a : Actuator) : LanesBut {a} {a} ∅ ∅ s where
  positioned := h.positioned
  governed := h.governed
  states b _ := h.states b (Set.notMem_empty b)
  running := h.running
  resolved _ all out := absurd all out

/-- A change of its ranks leaves a lane that is not DOWN resolved. -/
theorem reranked_resolved {f : Lane → Lane} (ranks : ranksOnly f) (law : LaneLaw s) (run : s.mode = .run)
    (up : (s.lane a).state ≠ .down) : Resolved (settleGate (resolve a (s.updLane a f))) a := by
  obtain ⟨state, -⟩ := ranks (s.lane a)
  have lane : ((s.updLane a f).lane a).state = (s.lane a).state := by rw [lane_updLane, if_pos rfl, state]
  have part : (s.updLane a f).takesPart a := by
    unfold State.takesPart
    rw [lane]
    exact ⟨law.running run a, up⟩
  have left := ((laneLaw_iff.1 law).unresolved a).rerank (Set.mem_singleton a) ranks
  have resolved := left.resolve fun _ => part
  rw [Set.sdiff_self] at resolved
  have settled := (lanesBut_settles {a}).settleGate resolved
  have frame := (resettled_frame a (s.updLane a f)).blocks.mode
  have down := (resolve_downKept a (s.updLane a f)).trans (settleGate_downKept _)
  refine resolvedBut_empty.1 (settled.resolved a (Set.mem_singleton a) (Set.notMem_empty a)
    ⟨settled.running (frame.trans run) a, fun isDown => up ?_⟩)
  rw [← lane]
  exact (down.down a).1 isDown

end

theorem LaneLaw.received {s : State} (law : LaneLaw s) : LaneLaw (received s) :=
  laneLaw_iff.2 ((laneLaw_iff.1 law).of_lanes (.of_slot fun _ => rfl) rfl fun _ => rfl)

/-! ### The settings -/

/-- The list with the named class last is the cycle continued after it (R44). -/
theorem rotateLowest_eq {a : Actuator} {c : Cls} (other : c ≠ .guard) (may : applicable c a = true) :
    rotateLowest a c = lowestList a c := by
  by_cases wheel : a.val < 10
  · simp only [rotateLowest, lowestList, cycleOf, if_pos wheel]
    cases c with
    | guard => exact absurd rfl other
    | plant => simp [applicable] at may; omega
    | operator | verticality | plan => rfl
  · simp only [rotateLowest, lowestList, cycleOf, if_neg wheel]
    cases c with
    | guard => exact absurd rfl other
    | verticality | plan => simp [applicable] at may; omega
    | operator | plant => rfl

/-- What a setting changed: the ranks of the lane, then a resolution of it and a settle of the GATE. -/
def Resets (a : Actuator) (f : Lane → Lane) (s t : State) : Prop :=
  EngineFrame (s.updLane a f) t ∧ (LaneLaw s → (s.lane a).state ≠ .down → Resolved t a)

section
variable {a : Actuator} {c : Cls} {on : Bool} {s : State}

theorem resets {f : Lane → Lane} (ranks : ranksOnly f) (run : s.mode = .run) :
    Resets a f s (settleGate (resolve a (s.updLane a f))) :=
  ⟨resettled_frame a _, fun law up => reranked_resolved ranks law run up⟩

theorem setLowest_resets (run : s.mode = .run) (other : c ≠ .guard) (may : applicable c a = true)
    (new : (s.lane a).precedence.getLast? ≠ some c) :
    Resets a (fun l => { l with precedence := lowestList a c }) s (setLowest a c s) := by
  rw [setLowest, if_neg new, rotateLowest_eq other may]
  exact resets (fun _ => ⟨rfl, rfl, rfl, rfl⟩) run

theorem setMask_resets (run : s.mode = .run) (new : (s.lane a).mask.get c ≠ on) :
    Resets a (fun l => { l with mask := l.mask.set c on }) s (setMask a c on s) := by
  rw [setMask_new new]
  exact resets (fun _ => ⟨rfl, rfl, rfl, rfl⟩) run

theorem setYield_resets (run : s.mode = .run) (new : (s.lane a).yield ≠ on) :
    Resets a (fun l => { l with yield := on }) s (setYield a on s) := by
  rw [setYield, if_neg new]
  exact resets (fun _ => ⟨rfl, rfl, rfl, rfl⟩) run

theorem setLowest_same (same : (s.lane a).precedence.getLast? = some c) : setLowest a c s = s := if_pos same

theorem setYield_same (same : (s.lane a).yield = on) : setYield a on s = s := if_pos same

theorem setYield_yield : ((setYield a on s).lane a).yield = on := by
  unfold setYield
  split
  · next same => exact same
  · obtain ⟨-, -, yield, -⟩ := (resettled_frame a (s.updLane a fun l => { l with yield := on })).tables.lanes a
    rw [yield, lane_updLane, if_pos rfl]

/-- Read of the state before the request. -/
theorem Resets.received {f : Lane → Lane} {t : State} (r : Resets a f (received s) t) :
    EngineFrame ((Machine.received s).updLane a f) t ∧ (LaneLaw s → (s.lane a).state ≠ .down → Resolved t a) :=
  ⟨r.1, fun law up => r.2 law.received up⟩

end

/-! ### UNMASK of the class that a lane waits for (R47, R51, R60, R63) -/

section
variable {a : Actuator} {h : Handle} {o : Order} {s : State}

/-- The lane with the class of the order unmasked. -/
def opened (a : Actuator) (o : Order) (s : State) : State :=
  s.updLane a fun l => { l with mask := l.mask.set o.cls false }

/-- And DRIVEN without holds. -/
def unheld (a : Actuator) (o : Order) (s : State) : State :=
  (opened a o s).updLane a fun l => { l with state := .driven, maskHold := false, guardHold := false }

/-- And HELD by the guard alone. -/
def guardHeld (a : Actuator) (h : Handle) (o : Order) (s : State) : State :=
  ((opened a o s).setSlot h.slot ⟨h.gen, some { o with settled := false }⟩).updLane a fun l =>
    { l with maskHold := false, guardHold := true, detector := .idle }

theorem opened_lane : (opened a o s).lane a = { s.lane a with mask := (s.lane a).mask.set o.cls false } := by
  rw [opened, lane_updLane, if_pos rfl]

theorem unheld_lane : (unheld a o s).lane a = { s.lane a with
    mask := (s.lane a).mask.set o.cls false, state := .driven, maskHold := false, guardHold := false } := by
  rw [unheld, lane_updLane, if_pos rfl, opened_lane]

theorem guardHeld_lane : (guardHeld a h o s).lane a = { s.lane a with
    mask := (s.lane a).mask.set o.cls false, maskHold := false, guardHold := true, detector := .idle } := by
  have lane : (((opened a o s).setSlot h.slot ⟨h.gen, some { o with settled := false }⟩).lane a) = (opened a o s).lane a := rfl
  rw [guardHeld, lane_updLane, if_pos rfl, lane, opened_lane]

section
variable (x : GovernsAlone a h o s) (held : (s.lane a).state = .held) (masked : (s.lane a).mask.get o.cls = true)
  (own : NamesOwn s) (quiet : s.gateSettles = none)
include x held masked own quiet

omit masked own quiet in
theorem opened_resolve : resolve a (opened a o s) = takeHolds a (opened a o s) := by
  have y : GovernsAlone a h o (opened a o s) := x.remask _
  exact y.resolve_stays (by rw [opened_lane]; simp [held]) (by rw [opened_lane]; simp [Lane.masked, PerClass.get_set])

omit held own quiet x in
theorem unmask_settles : setMask a o.cls false s = settleGate (resolve a (opened a o s)) :=
  setMask_new (by rw [masked]; simp)

omit x held masked in
theorem opened_quiet (apart : a ≠ gate) : (resolve a (opened a o s)).gateSettles = none :=
  resolve_settles_nothing (own.remask a ((s.lane a).mask.set o.cls false)) apart
    ((remask_settles ((s.lane a).mask.set o.cls false)).trans quiet)

/-- Where a FREEZE guard is active, the guard alone holds the lane. -/
theorem unmask_frozen (frozen : o.frozen = true) : setMask a o.cls false s = guardHeld a h o s := by
  have y : GovernsAlone a h o (opened a o s) := x.remask _
  have bare : ((opened a o s).lane a).masked o.cls = false := by
    rw [opened_lane]
    simp [Lane.masked, PerClass.get_set]
  have taken : resolve a (opened a o s) = guardHeld a h o s := by
    rw [opened_resolve x held, takeHolds_holds y.governing (by rw [frozen, Bool.or_true]), updOrder_eq y.live, bare,
      frozen]
    refine updLane_congr ?_
    have state : (((opened a o s).setSlot h.slot ⟨h.gen, some { o with settled := false }⟩).lane a).state = .held := by
      show ((opened a o s).lane a).state = .held
      rw [opened_lane]
      exact held
    rw [← state]
  rw [unmask_settles masked, taken, settleGate_none]
  by_cases onGate : a = gate
  · subst onGate
    refine gateSettles_undriven ?_
    rw [guardHeld_lane]
    simp [held]
  · rw [← taken]
    exact opened_quiet own quiet onGate

omit masked own quiet in
/-- Otherwise the order drives the lane, the GATE stepping to its target. -/
theorem unmask_drives (free : o.frozen = false) : resolve a (opened a o s) =
    if a = gate then gateStep o.target (unheld a o s) else unheld a o s := by
  have y : GovernsAlone a h o (opened a o s) := x.remask _
  have bare : ((opened a o s).lane a).masked o.cls = false := by
    rw [opened_lane]
    simp [Lane.masked, PerClass.get_set]
  rw [opened_resolve x held]
  unfold takeHolds
  rw [y.governing]
  dsimp only
  rw [bare, free]
  rfl

theorem unmask_proportional (free : o.frozen = false) (apart : a ≠ gate) : setMask a o.cls false s = unheld a o s := by
  have drives := unmask_drives x held free
  rw [if_neg apart] at drives
  rw [unmask_settles masked, settleGate_none (opened_quiet own quiet apart), drives]

end

section
variable (x : GovernsAlone gate h o s) (held : (s.lane gate).state = .held) (masked : (s.lane gate).mask.get o.cls = true)
  (free : o.frozen = false)
include x held masked free

theorem unmask_gate : setMask gate o.cls false s = settleGate (gateStep o.target (unheld gate o s)) := by
  have drives := unmask_drives x held free
  rw [if_pos rfl] at drives
  rw [unmask_settles masked, drives]

/-- The GATE is under way, or its order has settled. -/
theorem unmask_gate_steps (way : (s.lane gate).command ≠ some o.target ∨ s.travel ≠ .complete ∨ o.settled = true) :
    setMask gate o.cls false s = gateStep o.target (unheld gate o s) := by
  rw [unmask_gate x held masked free, settleGate_none]
  cases e : (gateStep o.target (unheld gate o s)).gateSettles with
  | none => rfl
  | some k =>
    obtain ⟨p, gov, live, -, unsettled, complete, -⟩ := gateSettles_iff.1 e
    rw [gateStep_lane, unheld_lane] at gov
    obtain rfl := Option.some.inj (x.gov.symm.trans gov)
    rw [order?_of_slot (slot_of_slots (gateStep_slots _ _) h.slot)] at live
    obtain rfl := Option.some.inj (x.live.symm.trans live)
    rw [gateStep_travel, unheld_lane] at complete
    rcases way with apart | running | settled
    · rw [if_neg apart] at complete
      cases complete
    · split at complete
      · exact absurd complete running
      · cases complete
    · rw [unsettled] at settled
      cases settled

/-- It stands at the target, and a STANDING order settles at once. -/
theorem unmask_gate_settles (at' : (s.lane gate).command = some o.target) (complete : s.travel = .complete)
    (unsettled : o.settled = false) (standing : o.completion = .standing) (none : ∀ i, s.waitsOn i h = false) :
    setMask gate o.cls false s = (unheld gate o s).setSlot h.slot ⟨h.gen, some { o with settled := true }⟩ := by
  have live : (unheld gate o s).order? h = some o := x.live
  have stays : gateStep o.target (unheld gate o s) = unheld gate o s := gateStep_held (by rw [unheld_lane]; exact at')
  have settles : (unheld gate o s).gateSettles = some h := by
    refine gateSettles_iff.2 ⟨o, ?_, live, ?_, unsettled, complete, (gate_atTarget _ _).2 ?_⟩
    · rw [unheld_lane]; exact x.gov
    · rw [unheld_lane]
    · rw [unheld_lane]; exact at'
  rw [unmask_gate x held masked free, stays, settleGate_some settles, settleOrder_standing live standing none,
    updOrder_eq live]

end

/-- The masked classes without the one named. -/
theorem unmasked_list {c : Cls} : (setMask a c false s).maskList a =
    (cycleOf a).filter fun d => d ≠ c && (s.lane a).mask.get d := by
  rw [setMask_list]
  refine List.filter_congr fun d _ => ?_
  by_cases same : d = c <;> simp [same]

/-- The answer of UNMASK by the lane's report. -/
theorem exec_unmask_report {c : Cls} {t : State} {state : Byte} (tag : Word) (run : s.mode = .run) (other : c ≠ .guard)
    (may : applicable c a = true) (e : setMask a c false (received s) = t)
    (report : t.laneReport a = [state] ++ putHandle (some h)) :
    let r : Req := ⟨.operator, tag, putByte a.val ++ putByte c.code⟩
    exec (.unmask r) s = .next (answered 0x22 r .done (putClasses ((cycleOf a).filter fun d =>
      d ≠ c && (s.lane a).mask.get d) ++ [state] ++ putHandle (some h)) t) := by
  have answer := exec_unmask tag run other may
  dsimp only at answer ⊢
  rw [unmasked_list, e, report, ← List.append_assoc] at answer
  exact answer

theorem unheld_report {t : State} {v : Option Int} (gov : (s.lane a).gov = some h)
    (lane : t.lane a = { (unheld a o s).lane a with command := v }) : t.laneReport a = [2] ++ putHandle (some h) := by
  rw [State.laneReport, lane, unheld_lane]
  exact congrArg (fun k => [2] ++ putHandle k) gov

theorem guardHeld_report (gov : (s.lane a).gov = some h) (held : (s.lane a).state = .held) :
    (guardHeld a h o s).laneReport a = [4] ++ putHandle (some h) := by
  have code : ((guardHeld a h o s).lane a).code = 4 := by
    rw [guardHeld_lane, Lane.code]
    simp only [held, Bool.false_eq_true, if_false]
  rw [State.laneReport, code, guardHeld_lane]
  exact congrArg (fun k => [4] ++ putHandle k) gov

end

/-- Settles O26. -/
theorem lowestMaskUnmaskAndYieldSetTheLane : Obligations.LowestMaskUnmaskAndYieldSetTheLane := by
  intro a c on tag s run other may
  refine ⟨⟨_, exec_lowest tag run other may, setLowest_same (s := received s), fun new =>
      (setLowest_resets (s := received s) run other may new).received⟩,
    ⟨_, exec_mask tag run other may, setMask_same (s := received s), fun was =>
      (setMask_resets (s := received s) run (ne_of_eq_of_ne was (by simp))).received⟩,
    ⟨_, exec_unmask tag run other may, setMask_same (s := received s), fun was =>
      (setMask_resets (s := received s) run (ne_of_eq_of_ne was (by simp))).received⟩,
    ⟨setYield a on (received s), ?_, setYield_same (s := received s), fun new =>
      (setYield_resets (s := received s) run new).received⟩, ?_⟩
  · have answer := exec_yield (a := a) (on := on) tag run
    dsimp only at answer
    rwa [setYield_yield] at answer
  · rintro h o held maskHold masked gov live rfl position only quiet law
    have x : GovernsAlone a h o (received s) := ⟨live, gov, only⟩
    have own : NamesOwn (received s) := law.namesOwn
    have report := fun {t : State} {v : Option Int} => unheld_report (o := o) (s := received s) (t := t) (v := v) gov
    refine ⟨fun frozen => ?_, fun free apart => ?_,
      fun free onGate => ⟨fun way => ?_, fun at' complete unsettled standing none => ?_⟩⟩
    · exact exec_unmask_report tag run other may (unmask_frozen x held masked own quiet frozen)
        (guardHeld_report (s := received s) gov held)
    · exact exec_unmask_report tag run other may (unmask_proportional x held masked own quiet free apart) (report rfl)
    · subst onGate
      exact exec_unmask_report tag run other may (unmask_gate_steps x held masked free way) (report (gateStep_lane _ _))
    · subst onGate
      exact exec_unmask_report tag run other may
        (unmask_gate_settles x held masked free at' complete unsettled standing none) (report rfl)

end Sys2Proof.Machine
end

section
/-! The initial command of a lane (R59), and MAP (R142). -/

namespace Sys2Proof.Machine

/-! ### The initial command -/

theorem creepClamp_clampedAim (s : State) (a : Actuator) (raw : Int) : clampedAim s a raw (s.creepClamp a raw) := by
  unfold clampedAim State.creepClamp wheel?
  split
  · next wheel =>
    dsimp only
    split
    · unfold clamp
      split <;> [skip; split] <;> omega
    · rfl
  · rfl

theorem clamp_eq {lo hi : Int} (v : Int) (order : lo ≤ hi) : clamp lo hi v = max lo (min hi v) := by
  unfold clamp
  split <;> [skip; split] <;> omega

theorem restAim_eq (l : Lane) : restAim l = max 0 l.lo := by
  unfold restAim
  split <;> omega

theorem kindOf_gate_iff (a : Actuator) : kindOf a = .gate ↔ a = gate := by
  revert a
  decide

theorem toCommand_proportional {a : Actuator} (apart : a ≠ gate) (v : Int) : toCommand a v = 50 * v :=
  if_neg fun kind => apart ((kindOf_gate_iff a).1 kind)

theorem feedback_gate_iff (a : Actuator) : feedback a = none ↔ a = gate := by
  revert a
  decide

/-- R59, where the limits of the lane are in order. -/
theorem initialCommand_startValue {s : State} {a : Actuator} (order : (s.lane a).lo ≤ (s.lane a).hi) :
    startValue s a (s.initialCommand a) := by
  unfold startValue State.initialCommand
  split
  · next onGate => rw [(feedback_gate_iff a).2 onGate]
  · next apart =>
    cases point : feedback a with
    | none => exact absurd ((feedback_gate_iff a).1 point) apart
    | some p =>
      refine ⟨p, rfl, ?_⟩
      have rest : clampedAim s a (50 * max 0 (s.lane a).lo) (s.creepClamp a (toCommand a (restAim (s.lane a)))) := by
        rw [toCommand_proportional apart, restAim_eq]
        exact creepClamp_clampedAim s a _
      dsimp only
      split
      · next v status value =>
        refine .inl ⟨v, status, value, ?_⟩
        rw [toCommand_proportional apart, clamp_eq v order]
        exact creepClamp_clampedAim s a _
      · next not =>
        refine .inr ⟨?_, rest⟩
        by_contra both
        obtain ⟨status, value⟩ := not_or.1 both
        obtain ⟨v, value⟩ := Option.ne_none_iff_exists'.1 value
        exact not v (not_not.1 status) value

theorem limits_ordered {a : Actuator} {lo hi : Int} (allowed : limitsAllowed a lo hi = true) : lo ≤ hi := by
  simp only [limitsAllowed, Bool.and_eq_true, decide_eq_true_eq] at allowed
  omega

/-! ### What a MAP leaves -/

/-- Outside the map, the lane of the actuator and the channels it has and gets nothing changes. -/
structure Remaps (a : Actuator) (c : Chan) (s t : State) : Prop where
  blocks : BlocksKept { s with map := t.map } t
  interlocks : t.interlocks = s.interlocks
  lost : t.noticesLost = s.noticesLost
  slots : t.slots = s.slots
  banks : t.banks = s.banks
  queue : t.txQueue = s.txQueue
  lanes : ∀ b, b ≠ a → t.lane b = s.lane b
  chans : ∀ d, d ≠ c → (s.mapAt a).assigned ≠ some d → t.chan d = s.chan d

section
variable {a : Actuator} {c : Chan} {s : State}

theorem Remaps.refl (a : Actuator) (c : Chan) (s : State) : Remaps a c s s :=
  ⟨.refl s, rfl, rfl, rfl, rfl, rfl, fun _ _ => rfl, fun _ _ _ => rfl⟩

/-- Another map in both states. -/
theorem BlocksKept.remap {s t : State} (h : BlocksKept { s with map := t.map } t) (m : Vector MapEntry 12) :
    BlocksKept { s with map := m } { t with map := m } :=
  ⟨h.mode, h.travelLimit, h.direct, h.modules, h.modValues, h.depth, h.drift, h.active, rfl, h.cals, h.templates,
    h.fallback, h.halt, h.link, h.rx, h.pair, h.finishing, h.collided, h.line, h.pending⟩

theorem setChan_blocks (s : State) (c : Chan) (x : ChanState) : BlocksKept s (s.setChan c x) := by constructor <;> rfl

theorem Remaps.assign {t : State} (h : Remaps a c s t) (x : Option Chan) : Remaps a c s (assign a x t) :=
  ⟨h.blocks.remap _, h.interlocks, h.lost, h.slots, h.banks, h.queue, h.lanes, h.chans⟩

/-- A write to a channel the actuator has or gets. -/
theorem Remaps.setChan {t : State} (h : Remaps a c s t) {d : Chan} (own : d = c ∨ (s.mapAt a).assigned = some d)
    (x : ChanState) : Remaps a c s (t.setChan d x) := by
  refine ⟨h.blocks.mapped (setChan_blocks t d x), h.interlocks, h.lost, h.slots, h.banks, h.queue, h.lanes,
    fun e other held => ?_⟩
  have apart : e ≠ d := by
    rintro rfl
    exact own.elim other held
  rw [chan_setChan, if_neg apart]
  exact h.chans e other held

theorem assign_remaps : Remaps a c s (Machine.assign a (some c) s) := (Remaps.refl a c s).assign (some c)

theorem moveActuator_remaps : Remaps a c s (moveActuator a c s) := by
  unfold moveActuator refreshChan releaseChan
  split
  · next old assigned =>
    exact ((((Remaps.refl a c s).setChan (.inl rfl) _).setChan (.inr assigned) _).assign _).setChan (.inl rfl) _
  · exact ((Remaps.refl a c s).assign _).setChan (.inl rfl) _

/-- The lane in REST with its initial command, not yet handed on. -/
def rested (a : Actuator) (s : State) : State :=
  let t := s.updLane a fun l =>
    { l with
      state := .rest, gov := none, maskHold := false, guardHold := false
      command := some (s.initialCommand a), interval := some 0, detector := .idle }
  if a = gate then { t with travel := .running 0 } else t

theorem laneRest_eq (a : Actuator) (s : State) : laneRest a s = handCommand a (rested a s) := rfl

theorem rested_leaves (a : Actuator) (s : State) : BlocksKept s (rested a s) ∧ (rested a s).interlocks = s.interlocks ∧
    (rested a s).noticesLost = s.noticesLost ∧ (rested a s).slots = s.slots ∧ (rested a s).banks = s.banks ∧
    (rested a s).txQueue = s.txQueue ∧ (rested a s).chans = s.chans ∧ (rested a s).map = s.map ∧
    (rested a s).travel = (if a = gate then .running 0 else s.travel) := by
  unfold rested
  dsimp only
  split
  · exact ⟨by constructor <;> rfl, rfl, rfl, rfl, rfl, rfl, rfl, rfl, rfl⟩
  · exact ⟨by constructor <;> rfl, rfl, rfl, rfl, rfl, rfl, rfl, rfl, rfl⟩

theorem laneRest_leaves (a : Actuator) (s : State) : BlocksKept s (laneRest a s) ∧
    (laneRest a s).interlocks = s.interlocks ∧ (laneRest a s).noticesLost = s.noticesLost ∧
    (laneRest a s).slots = s.slots ∧ (laneRest a s).banks = s.banks ∧ (laneRest a s).txQueue = s.txQueue ∧
    (laneRest a s).travel = (if a = gate then .running 0 else s.travel) := by
  obtain ⟨blocks, interlocks, lost, slots, banks, queue, -, -, travel⟩ := rested_leaves a s
  obtain ⟨slots', -, banks', queue', lost', travel'⟩ := handCommand_leaves a (rested a s)
  have frame := handCommand_frame a (rested a s)
  rw [laneRest_eq]
  exact ⟨blocks.trans frame.blocks, frame.interlocks.trans interlocks, lost'.trans lost, slots'.trans slots,
    banks'.trans banks, queue'.trans queue, travel'.trans travel⟩

theorem laneRest_chan_other {d : Chan} (other : (s.mapAt a).assigned ≠ some d) : (laneRest a s).chan d = s.chan d := by
  obtain ⟨-, -, -, -, -, -, chans, map, -⟩ := rested_leaves a s
  rw [laneRest_eq, handCommand_chan _ _ (by rw [State.mapAt, map]; exact other), State.chan, chans]
  rfl

/-- The channel of a lane that comes to REST follows its command in ORDER. -/
theorem laneRest_chan (assigned : (s.mapAt a).assigned = some c) (once : ∀ b, (s.mapAt b).assigned = some c → b = a) :
    (laneRest a s).chan c = if (s.chan c).mode = .order
      then { s.chan c with output := s.dutyOf a (s.initialCommand a) } else s.chan c := by
  obtain ⟨blocks, -, -, -, -, -, chans, map, -⟩ := rested_leaves a s
  have chan : (rested a s).chan c = s.chan c := by rw [State.chan, chans]; rfl
  have mapAt : ∀ b, (rested a s).mapAt b = s.mapAt b := fun b => by rw [State.mapAt, map]; rfl
  have assignee : (rested a s).assignee c = some a :=
    assignee_some (by rw [mapAt]; exact assigned) fun b => by rw [mapAt]; exact once b
  have lane : ((rested a s).lane a).command = some (s.initialCommand a) := by
    unfold rested
    dsimp only
    rw [travelOnGate_lane, lane_updLane, if_pos rfl]
  have duty : (rested a s).dutyOf a (s.initialCommand a) = s.dutyOf a (s.initialCommand a) := by
    unfold State.dutyOf State.cal
    rw [blocks.cals]
  rw [laneRest_eq, handCommand_assigned (by rw [mapAt]; exact assigned), chan]
  split
  · next order => rw [outputOf_order (by rw [chan]; exact order) assignee lane, duty]
  · rfl

theorem broughtBack_chan (a : Actuator) (c : Chan) (s : State) (d : Chan) : (broughtBack a c s).chan d =
    if d = c ∧ (s.chan c).mode ≠ .localDuty then { s.chan c with mode := .order } else s.chan d := by
  unfold broughtBack
  dsimp only
  rw [assign_chan]
  split
  · next isLocal => rw [if_neg (by simp [isLocal])]; rfl
  · next other =>
    rw [chan_setChan]
    by_cases same : d = c
    · rw [if_pos same, if_pos ⟨same, other⟩]
    · rw [if_neg same, if_neg (by simp [same])]; rfl

theorem bringBack_remaps : Remaps a c s (bringBack a c s) := by
  obtain ⟨blocks, interlocks, lost, slots, banks, queue, -⟩ := laneRest_leaves a (broughtBack a c s)
  have brought : Remaps a c s (broughtBack a c s) := by
    unfold broughtBack
    dsimp only
    split
    · exact assign_remaps
    · exact assign_remaps.setChan (.inl rfl) _
  have assigned : ((broughtBack a c s).mapAt a).assigned = some c := by
    have self := (bringBack_reassigned a c s).self
    rw [bringBack_eq, State.mapAt, laneRest_map] at self
    exact self
  rw [bringBack_eq]
  refine ⟨brought.blocks.mapped blocks, interlocks.trans brought.interlocks, lost.trans brought.lost,
    slots.trans brought.slots, banks.trans brought.banks, queue.trans brought.queue, (bringBack_lane a c s).2,
    fun d other held => ?_⟩
  rw [laneRest_chan_other, brought.chans d other held]
  rw [assigned]
  exact fun e => other (Option.some.inj e).symm

theorem applyMap_remaps : Remaps a c s (applyMap a c s) := by
  rcases applyMap_cases a c s with e | ⟨-, e⟩ | ⟨-, -, e⟩ | ⟨-, -, e⟩ <;> rw [e]
  · exact .refl a c s
  · exact assign_remaps
  · exact bringBack_remaps
  · exact moveActuator_remaps

/-! ### MAP by the state it finds -/

theorem applyMap_same (same : (s.mapAt a).assigned = some c) : applyMap a c s = s := if_pos same

theorem applyMap_setup (setup : s.mode = .setup) : (applyMap a c s).chans = s.chans ∧ (applyMap a c s).lanes = s.lanes ∧
    (applyMap a c s).travel = s.travel := by
  by_cases same : (s.mapAt a).assigned = some c
  · rw [applyMap_same same]
    exact ⟨rfl, rfl, rfl⟩
  · rw [applyMap, if_neg same, if_pos setup]
    exact ⟨rfl, rfl, rfl⟩

theorem applyMap_moves (run : s.mode = .run) (up : (s.lane a).state ≠ .down) (new : (s.mapAt a).assigned ≠ some c) :
    applyMap a c s = moveActuator a c s := by
  rw [applyMap, if_neg new, if_neg (by rw [run]; simp), if_neg up]

theorem applyMap_brings (run : s.mode = .run) (down : (s.lane a).state = .down) (new : (s.mapAt a).assigned ≠ some c) :
    applyMap a c s = bringBack a c s := by
  rw [applyMap, if_neg new, if_neg (by rw [run]; simp), if_pos down]

/-- The channels of a move. -/
structure Moves (a : Actuator) (old c : Chan) (s t : State) : Prop where
  lanes : t.lanes = s.lanes
  travel : t.travel = s.travel
  released : t.chan old = { s.chan old with mode := .released, output := 0 }
  mode : (t.chan c).mode = (s.chan old).mode
  localDuty : (t.chan c).localDuty = (s.chan old).localDuty
  output : ∀ v, (s.chan old).mode = .order → (s.lane a).command = some v → (t.chan c).output = s.dutyOf a v

theorem moveActuator_moves {old : Chan} (assigned : (s.mapAt a).assigned = some old) (apart : old ≠ c)
    (free : ∀ b, (s.mapAt b).assigned ≠ some c) : Moves a old c s (moveActuator a c s) := by
  obtain ⟨offOld, onNew, -, -, lanes, -⟩ := swapped_leaves a s apart.symm
  have new : (refreshChan c (swapped a old c s)).chan c =
      { (swapped a old c s).chan c with output := (swapped a old c s).outputOf c } := by
    rw [refreshChan, chan_setChan, if_pos rfl]
  rw [moveActuator_eq assigned]
  refine ⟨lanes, rfl, ?_, ?_, ?_, fun v order command => ?_⟩
  · rw [refreshChan, chan_setChan, if_neg apart, offOld]
  · rw [new, onNew]
  · rw [new, onNew]
  · rw [new]
    exact swapped_output_order apart.symm free order command

/-- A lane brought back from DOWN, and its channel. -/
structure BringsBack (a : Actuator) (c : Chan) (s t : State) : Prop where
  state : (t.lane a).state = .rest
  gov : (t.lane a).gov = none
  interval : (t.lane a).interval = some 0
  detector : (t.lane a).detector = .idle
  command : ∃ v, (t.lane a).command = some v ∧ startValue s a v ∧
    ((s.chan c).mode ≠ .localDuty → (t.chan c).output = s.dutyOf a v)
  mode : (t.chan c).mode = (if (s.chan c).mode = .localDuty then .localDuty else .order)
  localDuty : (t.chan c).localDuty = (s.chan c).localDuty

theorem bringBack_brings (once : ∀ b, (s.mapAt b).assigned = some c → b = a) (law : CommandLaw s) :
    BringsBack a c s (bringBack a c s) := by
  have map : (bringBack a c s).map = (broughtBack a c s).map := laneRest_map a _
  have mapAt : ∀ b, (broughtBack a c s).mapAt b = (bringBack a c s).mapAt b := fun b => by
    rw [State.mapAt, ← map]
    rfl
  have reassigned := bringBack_reassigned a c s
  have once' : ∀ b, ((broughtBack a c s).mapAt b).assigned = some c → b = a := fun b assigned => by
    by_contra apart
    rw [mapAt, reassigned.other apart] at assigned
    exact apart (once b assigned)
  have initial : (broughtBack a c s).initialCommand a = s.initialCommand a := by
    unfold broughtBack
    dsimp only
    split <;> rfl
  have duty : ∀ v, (broughtBack a c s).dutyOf a v = s.dutyOf a v := fun v => by
    unfold broughtBack
    dsimp only
    split <;> rfl
  have lane := laneRest_lane a (broughtBack a c s) a
  rw [if_pos rfl, initial] at lane
  have chan := laneRest_chan (a := a) (c := c) (s := broughtBack a c s) (by rw [mapAt]; exact reassigned.self) once'
  rw [broughtBack_chan, initial, duty] at chan
  rw [bringBack_eq]
  refine ⟨by rw [lane], by rw [lane], by rw [lane], by rw [lane], ⟨s.initialCommand a, by rw [lane],
    initialCommand_startValue (limits_ordered (law.limits a)), fun other => ?_⟩, ?_, ?_⟩
  · rw [chan]
    simp [other]
  · rw [chan]
    by_cases isLocal : (s.chan c).mode = .localDuty <;> simp [isLocal]
  · rw [chan]
    by_cases isLocal : (s.chan c).mode = .localDuty <;> simp [isLocal]

/-! ### The request -/

theorem formTwoBytes_bytes (a : Actuator) (c : Chan) :
    formTwoBytes (putByte a.val ++ putByte c.val) = some (a.val, c.val) := by
  simp [putByte, formTwoBytes, Nat.mod_eq_of_lt (by omega : a.val < 256), Nat.mod_eq_of_lt (by omega : c.val < 256)]

theorem checkMap_passes (kind : kindsMatch a c = true) (ok : (s.chan c).fault = none)
    (once : ∀ b, (s.mapAt b).assigned = some c → b = a) : checkMap s (a.val, c.val) = .ok (a, c) := by
  have good : (kindsMatch a c && decide ((s.chan c).fault = none)) = true := by simp [kind, ok]
  have free : (match s.assignee c with | some b => decide (b = a) | none => true) = true := by
    split
    · next b assignee => exact decide_eq_true (once b (assigned_of_assignee assignee))
    · rfl
  unfold checkMap
  rw [actuatorField_val, bind_ok rfl, chanField_val, bind_ok rfl, good, require_true, bind_ok rfl]
  exact congrArg (fun ok => require ok .channelTaken >>= fun _ => Except.ok (a, c)) free

theorem exec_map (tag : Word) (kind : kindsMatch a c = true) (ok : (s.chan c).fault = none)
    (once : ∀ b, (s.mapAt b).assigned = some c → b = a) :
    let r : Req := ⟨.operator, tag, putByte a.val ++ putByte c.val⟩
    let t := applyMap a c (received s)
    exec (.mapActuator r) s = .next (answered 0x50 r .done
      (putByte a.val ++ putByte c.val ++ putByte (t.chan c).mode.code ++ putU16 (t.chan c).output
        ++ putByte (t.lane a).code) t) := by
  refine show execMapActuator _ s = _ from request_done (by simp [putByte]) ?_
  dsimp only
  rw [formTwoBytes_bytes, formed_some, checkMap_passes (s := received s) kind ok once, checked_ok]
  rfl

/-- Settles O45. -/
theorem mapAssignsMovesOrBringsBack : Obligations.MapAssignsMovesOrBringsBack := by
  intro a c tag s kind ok once
  have remaps : Remaps a c (received s) (applyMap a c (received s)) := applyMap_remaps
  have reassigned := applyMap_reassigned a c (received s)
  refine ⟨_, exec_map tag kind ok once, (reassigned a).trans (if_pos rfl), fun b apart => reassigned.other apart,
    remaps.blocks, remaps.interlocks, remaps.lost, remaps.slots, remaps.banks, remaps.queue, remaps.lanes, remaps.chans,
    applyMap_same (s := received s), applyMap_setup (s := received s), fun old run up assigned apart => ?_,
    fun run down none law => ?_⟩
  · have new : ((received s).mapAt a).assigned ≠ some c := fun same =>
      apart (Option.some.inj (assigned.symm.trans same))
    have moves := moveActuator_moves (s := received s) assigned apart fun b held => by
      obtain rfl := once b held
      exact new held
    rw [applyMap_moves (s := received s) run up new]
    exact ⟨moves.lanes, moves.travel, moves.released, moves.mode, moves.localDuty, moves.output⟩
  · have new : ((received s).mapAt a).assigned ≠ some c := fun same => by
      cases none.symm.trans same
    have law' : CommandLaw (received s) := ⟨law.limits, law.creep, law.targets, law.commands, law.clamped⟩
    have brings := bringBack_brings (s := received s) once law'
    rw [applyMap_brings (s := received s) run down new]
    exact ⟨brings.state, brings.gov, brings.interval, brings.detector, brings.command, brings.mode, brings.localDuty⟩

end

end Sys2Proof.Machine
end

section
/-! The lanes and channels of START after its test of the map (R59, R182). -/

namespace Sys2Proof.Machine

/-! ### Readings of two states alike -/

/-- The points read the same in both states. -/
structure SamePoints (s t : State) : Prop where
  direct : t.direct = s.direct
  modValues : t.modValues = s.modValues
  modules : t.modules = s.modules
  depth : t.depth = s.depth
  drift : t.drift = s.drift

theorem BlocksKept.points {s t : State} (h : BlocksKept s t) : SamePoints s t :=
  ⟨h.direct, h.modValues, h.modules, h.depth, h.drift⟩

section
variable {s t : State}

theorem SamePoints.status (h : SamePoints s t) (p : Point) : t.pointStatus p = s.pointStatus p := by
  simp only [State.pointStatus, State.directAt, State.module, h.direct, h.modules, h.depth, h.drift]

theorem SamePoints.value (h : SamePoints s t) (p : Point) : t.pointValue p = s.pointValue p := by
  simp only [State.pointValue, State.directAt, State.modValue, h.direct, h.modValues, h.depth, h.drift]

theorem SamePoints.flag (h : SamePoints s t) (x : Interlock) : t.interlockFlag x = s.interlockFlag x := by
  simp only [State.interlockFlag, State.short, h.status, h.value]

/-- The initial command rests on the points, the interlocks and the limits of the lane. -/
theorem initialCommand_same {a : Actuator} (points : SamePoints s t) (interlocks : t.interlocks = s.interlocks)
    (lo : (t.lane a).lo = (s.lane a).lo) (hi : (t.lane a).hi = (s.lane a).hi) : t.initialCommand a = s.initialCommand a := by
  have creep : ∀ v, t.creepClamp a v = s.creepClamp a v := fun v => by
    unfold State.creepClamp State.interlock
    rw [interlocks]
  simp only [State.initialCommand, points.status, points.value, creep, restAim, lo, hi]

theorem dutyOf_same (cals : t.cals = s.cals) (a : Actuator) (v : Int) : t.dutyOf a v = s.dutyOf a v := by
  simp only [State.dutyOf, State.cal, cals]

end

/-! ### The channels enter ORDER -/

/-- A channel that is not in LOCAL, in ORDER. -/
def ChanState.ordered (x : ChanState) : ChanState := if x.mode = .localDuty then x else { x with mode := .order }

theorem ChanState.ordered_ordered (x : ChanState) : x.ordered.ordered = x.ordered := by
  by_cases isLocal : x.mode = .localDuty <;> simp [ChanState.ordered, isLocal]

theorem enterOrder_chan (s : State) (a : Actuator) (d : Chan) : (enterOrder s a).chan d =
    if (s.mapAt a).assigned = some d then (s.chan d).ordered else s.chan d := by
  unfold enterOrder ChanState.ordered
  split
  · next c assigned =>
    rw [assigned]
    by_cases same : c = d
    · subst same
      rw [if_pos rfl]
      split
      · rfl
      · rw [chan_setChan, if_pos rfl]
    · rw [if_neg fun e => same (Option.some.inj e)]
      split
      · rfl
      · rw [chan_setChan, if_neg (Ne.symm same)]
  · next none => simp [none]

theorem enterOrder_writes (s : State) (a : Actuator) : ∃ ch, enterOrder s a = { s with chans := ch } := by
  unfold enterOrder
  split
  · split <;> exact ⟨_, rfl⟩
  · exact ⟨_, rfl⟩

section
variable {s : State}

theorem enterOrders_writes (s : State) : ∃ ch, allActuators.foldl enterOrder s = { s with chans := ch } :=
  List.foldlRecOn (motive := fun t : State => ∃ ch, t = { s with chans := ch }) allActuators enterOrder ⟨s.chans, rfl⟩
    fun t ⟨_, e⟩ a _ => by
      obtain ⟨ch, w⟩ := enterOrder_writes t a
      exact ⟨ch, by rw [w, e]⟩

theorem enterOrders_free {d : Chan} (free : ∀ a, (s.mapAt a).assigned ≠ some d) :
    (allActuators.foldl enterOrder s).chan d = s.chan d := by
  refine (List.foldlRecOn (motive := fun t : State => t.map = s.map ∧ t.chan d = s.chan d) allActuators enterOrder
    ⟨rfl, rfl⟩ fun t ⟨map, same⟩ a _ => ⟨(enterOrder_map t a).trans map, ?_⟩).2
  rw [enterOrder_chan, if_neg, same]
  rw [State.mapAt, map]
  exact free a

theorem enterOrders_assigned {a : Actuator} {c : Chan} (assigned : (s.mapAt a).assigned = some c) :
    (allActuators.foldl enterOrder s).chan c = (s.chan c).ordered := by
  refine foldl_establishes
    (P := fun t : State => t.map = s.map ∧ (t.chan c = s.chan c ∨ t.chan c = (s.chan c).ordered))
    (R := fun b t => b = a → t.chan c = (s.chan c).ordered) (f := enterOrder) (fun t b ⟨map, chan⟩ => ?_)
    (fun t b ⟨map, chan⟩ same => ?_) (fun t x y ⟨map, chan⟩ h same => ?_) allActuators s ⟨rfl, .inl rfl⟩ a
    (mem_allActuators a) rfl
  · refine ⟨(enterOrder_map t b).trans map, ?_⟩
    rw [enterOrder_chan]
    split
    · rcases chan with e | e <;> rw [e]
      · exact .inr rfl
      · exact .inr (s.chan c).ordered_ordered
    · exact chan
  · subst same
    rw [enterOrder_chan, if_pos (by rw [State.mapAt, map]; exact assigned)]
    rcases chan with e | e <;> rw [e]
    exact (s.chan c).ordered_ordered
  · rw [enterOrder_chan, h same]
    split
    · exact (s.chan c).ordered_ordered
    · rfl

end

/-! ### The lanes leave OFF -/

/-- What a lane out of OFF leaves: all but its lane, its channel and the travel timer. -/
structure LeavesOff (s t : State) : Prop where
  blocks : BlocksKept s t
  interlocks : t.interlocks = s.interlocks
  lost : t.noticesLost = s.noticesLost
  slots : t.slots = s.slots
  banks : t.banks = s.banks
  queue : t.txQueue = s.txQueue

theorem LeavesOff.refl (s : State) : LeavesOff s s := ⟨.refl s, rfl, rfl, rfl, rfl, rfl⟩

theorem LeavesOff.trans {s t u : State} (h : LeavesOff s t) (k : LeavesOff t u) : LeavesOff s u :=
  ⟨h.blocks.trans k.blocks, k.interlocks.trans h.interlocks, k.lost.trans h.lost, k.slots.trans h.slots,
    k.banks.trans h.banks, k.queue.trans h.queue⟩

theorem LeavesOff.mapAt {s t : State} (h : LeavesOff s t) (a : Actuator) : t.mapAt a = s.mapAt a := by
  rw [State.mapAt, h.blocks.map]
  rfl

theorem laneDown_interlocks (a : Actuator) (s : State) : (laneDown a s).interlocks = s.interlocks ∧
    (laneDown a s).noticesLost = s.noticesLost := by
  unfold laneDown
  dsimp only
  split <;> exact ⟨rfl, rfl⟩

theorem leaveOff_leavesOff (s : State) (a : Actuator) : LeavesOff s (leaveOff s a) := by
  unfold leaveOff
  split
  · obtain ⟨blocks, interlocks, lost, slots, banks, queue, -⟩ := laneRest_leaves a s
    exact ⟨blocks, interlocks, lost, slots, banks, queue⟩
  · obtain ⟨slots, banks, -, queue, -, blocks, -⟩ := laneDown_leaves a s
    obtain ⟨interlocks, lost⟩ := laneDown_interlocks a s
    exact ⟨blocks, interlocks, lost, slots, banks, queue⟩

/-- The lane of `a` out of OFF. -/
def State.outLane (s : State) (a : Actuator) : Lane :=
  if (s.mapAt a).assigned.isSome then
    { s.lane a with
      state := .rest, gov := none, maskHold := false, guardHold := false
      command := some (s.initialCommand a), interval := some 0, detector := .idle }
  else
    { s.lane a with
      state := .down, gov := none, maskHold := false, guardHold := false
      command := none, interval := none, detector := .idle }

/-- Its channel `c`, which follows the command in ORDER. -/
def State.outChan (s : State) (a : Actuator) (c : Chan) : ChanState :=
  if (s.chan c).mode = .order then { s.chan c with output := s.dutyOf a (s.initialCommand a) } else s.chan c

theorem leaveOff_lane (s : State) (a : Actuator) : (leaveOff s a).lane a = s.outLane a := by
  unfold leaveOff State.outLane
  split
  · next c assigned => rw [laneRest_lane, if_pos rfl, assigned]; rfl
  · next none => rw [laneDown_lane, none]; rfl

theorem leaveOff_chan {s : State} {a : Actuator} {c : Chan} (assigned : (s.mapAt a).assigned = some c)
    (once : ∀ b, (s.mapAt b).assigned = some c → b = a) : (leaveOff s a).chan c = s.outChan a c := by
  have e : leaveOff s a = laneRest a s := by simp only [leaveOff, assigned]
  rw [e, laneRest_chan assigned once, State.outChan]

theorem leaveOff_chan_other {s : State} {a : Actuator} {d : Chan} (other : (s.mapAt a).assigned ≠ some d) :
    (leaveOff s a).chan d = s.chan d := by
  unfold leaveOff
  split
  · exact laneRest_chan_other other
  · obtain ⟨-, -, chans, -⟩ := laneDown_leaves a s
    rw [State.chan, chans]
    rfl

theorem leaveOff_travel (s : State) (a : Actuator) : (leaveOff s a).travel =
    if a = gate then (if (s.mapAt a).assigned.isSome then .running 0 else .cleared) else s.travel := by
  unfold leaveOff
  split
  · next c assigned =>
    obtain ⟨-, -, -, -, -, -, travel⟩ := laneRest_leaves a s
    rw [travel, assigned]
    rfl
  · next none =>
    obtain ⟨-, -, -, -, -, -, travel⟩ := laneDown_leaves a s
    rw [travel, none]
    rfl

section
variable {s t : State}

/-- The lanes are as they were or out of OFF, and so are their channels. -/
structure OutOrBefore (s t : State) : Prop where
  leaves : LeavesOff s t
  lanes : ∀ a, t.lane a = s.lane a ∨ t.lane a = s.outLane a
  chans : ∀ a c, (s.mapAt a).assigned = some c → t.chan c = s.chan c ∨ t.chan c = s.outChan a c

/-- The lane, its channel, and on the GATE the travel timer are out of OFF. -/
structure IsOut (s : State) (a : Actuator) (t : State) : Prop where
  lane : t.lane a = s.outLane a
  chan : ∀ c, (s.mapAt a).assigned = some c → t.chan c = s.outChan a c
  travel : a = gate → t.travel = if (s.mapAt gate).assigned.isSome then .running 0 else .cleared

theorem OutOrBefore.refl (s : State) : OutOrBefore s s := ⟨.refl s, fun _ => .inl rfl, fun _ _ _ => .inl rfl⟩

theorem OutOrBefore.initialCommand (h : OutOrBefore s t) (a : Actuator) : t.initialCommand a = s.initialCommand a := by
  refine initialCommand_same h.leaves.blocks.points h.leaves.interlocks ?_ ?_ <;>
    rcases h.lanes a with e | e <;> rw [e] <;> unfold State.outLane <;> split <;> rfl

theorem OutOrBefore.outLane (h : OutOrBefore s t) (a : Actuator) : t.outLane a = s.outLane a := by
  have initial := h.initialCommand a
  rcases h.lanes a with e | e
  · rw [State.outLane, h.leaves.mapAt, initial, e]
    rfl
  · rw [State.outLane, h.leaves.mapAt, initial, e]
    unfold State.outLane
    split <;> rfl

theorem OutOrBefore.outChan (h : OutOrBefore s t) {a : Actuator} {c : Chan} (assigned : (s.mapAt a).assigned = some c) :
    t.outChan a c = s.outChan a c := by
  have initial := h.initialCommand a
  have duty := dutyOf_same h.leaves.blocks.cals a (s.initialCommand a)
  rcases h.chans a c assigned with e | e
  · rw [State.outChan, e, initial, duty]
    rfl
  · rw [State.outChan, e, initial, duty]
    unfold State.outChan
    by_cases order : (s.chan c).mode = .order <;> simp [order]

section
variable (once : ∀ a b c, (s.mapAt a).assigned = some c → (s.mapAt b).assigned = some c → a = b)
include once

theorem OutOrBefore.out (h : OutOrBefore s t) (a : Actuator) : IsOut s a (leaveOff t a) where
  lane := (leaveOff_lane t a).trans (h.outLane a)
  chan c assigned := by
    refine (leaveOff_chan (by rw [h.leaves.mapAt]; exact assigned) fun b hb => ?_).trans (h.outChan assigned)
    rw [h.leaves.mapAt] at hb
    exact once b a c hb assigned
  travel onGate := by
    rw [leaveOff_travel, if_pos onGate, h.leaves.mapAt, onGate]

theorem OutOrBefore.leaveOff (h : OutOrBefore s t) (a : Actuator) : OutOrBefore s (leaveOff t a) where
  leaves := h.leaves.trans (leaveOff_leavesOff t a)
  lanes b := by
    by_cases same : b = a
    · subst same
      exact .inr (h.out once b).lane
    · rw [(leaveOff_leaves t a).2.2 b same]
      exact h.lanes b
  chans b c assigned := by
    by_cases same : b = a
    · subst same
      exact .inr ((h.out once b).chan c assigned)
    · rw [leaveOff_chan_other]
      · exact h.chans b c assigned
      · rw [h.leaves.mapAt]
        exact fun other => same (once b a c assigned other)

theorem IsOut.leaveOff (h : OutOrBefore s t) {a b : Actuator} (out : IsOut s b t) : IsOut s b (leaveOff t a) := by
  by_cases same : b = a
  · subst same
    exact h.out once b
  · refine ⟨by rw [(leaveOff_leaves t a).2.2 b same]; exact out.lane, fun c assigned => ?_, fun onGate => ?_⟩
    · rw [leaveOff_chan_other]
      · exact out.chan c assigned
      · rw [h.leaves.mapAt]
        exact fun other => same (once b a c assigned other)
    · rw [leaveOff_travel, if_neg fun e => same (onGate.trans e.symm)]
      exact out.travel onGate

theorem leaveOffs_out (a : Actuator) : IsOut s a (allActuators.foldl leaveOff s) :=
  foldl_establishes (P := OutOrBefore s) (R := fun a t => IsOut s a t) (fun _ x h => h.leaveOff once x)
    (fun _ x h => h.out once x) (fun _ _ _ h out => out.leaveOff once h) allActuators s (.refl s) a (mem_allActuators a)

theorem leaveOffs_before : OutOrBefore s (allActuators.foldl leaveOff s) :=
  List.foldlRecOn (motive := OutOrBefore s) allActuators leaveOff (.refl s) fun _ h a _ => h.leaveOff once a

end

theorem leaveOffs_free {d : Chan} (free : ∀ a, (s.mapAt a).assigned ≠ some d) :
    (allActuators.foldl leaveOff s).chan d = s.chan d := by
  refine (List.foldlRecOn (motive := fun t : State => t.map = s.map ∧ t.chan d = s.chan d) allActuators leaveOff
    ⟨rfl, rfl⟩ fun t ⟨map, same⟩ a _ => ⟨(leaveOff_map t a).trans map, ?_⟩).2
  rw [leaveOff_chan_other, same]
  rw [State.mapAt, map]
  exact free a

end

/-! ### The lanes started -/

/-- The state of START when its lanes have left OFF, from the one its test of the map leaves. -/
def lanesStarted (s : State) : State := allActuators.foldl leaveOff (refreshFlags (allActuators.foldl enterOrder s))

/-- A lane with a channel is in REST with its initial command, and the channel in ORDER at its duty unless in LOCAL; one
without is DOWN; the flags are evaluated, and the rest stands. -/
structure LanesStarted (s t : State) : Prop where
  blocks : BlocksKept s t
  lost : t.noticesLost = s.noticesLost
  slots : t.slots = s.slots
  banks : t.banks = s.banks
  queue : t.txQueue = s.txQueue
  flags : ∀ w, t.interlock w = { s.interlock w with engaged := s.interlockFlag (s.interlock w) }
  rests : ∀ a c, (s.mapAt a).assigned = some c → startedOn s t a c (s.chan c)
  downs : ∀ a, (s.mapAt a).assigned = none → t.lane a = { s.lane a with
    state := .down, gov := none, maskHold := false, guardHold := false, command := none, interval := none
    detector := .idle }
  frees : ∀ c, (∀ a, (s.mapAt a).assigned ≠ some c) → t.chan c = s.chan c
  travel : t.travel = if (s.mapAt gate).assigned.isSome then .running 0 else .cleared

theorem lanesStarted_does {s : State} (once : ∀ a b c, (s.mapAt a).assigned = some c → (s.mapAt b).assigned = some c → a = b)
    (limits : ∀ a, (s.lane a).lo ≤ (s.lane a).hi) : LanesStarted s (lanesStarted s) := by
  have entered := fun {a c} => enterOrders_assigned (s := s) (a := a) (c := c)
  have free := fun {d} => enterOrders_free (s := s) (d := d)
  obtain ⟨ch, writes⟩ := enterOrders_writes s
  unfold lanesStarted
  rw [writes] at entered free ⊢
  obtain ⟨il, flags⟩ := refreshFlags_writes { s with chans := ch }
  have interlock := refreshFlags_interlock { s with chans := ch }
  rw [flags] at interlock ⊢
  generalize hu : ({ s with chans := ch, interlocks := il } : State) = u
  have blocks : BlocksKept s u := by subst hu; constructor <;> rfl
  have chans : ∀ c, u.chan c = ({ s with chans := ch } : State).chan c := fun c => by subst hu; rfl
  have mapAt : ∀ a, u.mapAt a = s.mapAt a := fun a => by subst hu; rfl
  have lane : ∀ a, u.lane a = s.lane a := fun a => by subst hu; rfl
  have once' : ∀ a b c, (u.mapAt a).assigned = some c → (u.mapAt b).assigned = some c → a = b := fun a b c => by
    rw [mapAt, mapAt]
    exact once a b c
  have out := leaveOffs_out once'
  have before := leaveOffs_before once'
  have leaves := before.leaves
  have freed := fun {d} => leaveOffs_free (s := u) (d := d)
  have u_leaves : u.noticesLost = s.noticesLost ∧ u.slots = s.slots ∧ u.banks = s.banks ∧ u.txQueue = s.txQueue ∧
      ∀ w, u.interlock w = { s.interlock w with engaged := s.interlockFlag (s.interlock w) } := by
    subst hu
    exact ⟨rfl, rfl, rfl, rfl, interlock⟩
  obtain ⟨lost, slots, banks, queue, engaged⟩ := u_leaves
  generalize allActuators.foldl leaveOff u = t at out before leaves freed
  refine ⟨blocks.trans leaves.blocks, leaves.lost.trans lost, leaves.slots.trans slots, leaves.banks.trans banks,
    leaves.queue.trans queue, fun w => ?_, fun a c assigned => ?_, fun a none => ?_, fun c unassigned => ?_, ?_⟩
  · rw [State.interlock, leaves.interlocks]
    exact engaged w
  · have assigned' : (u.mapAt a).assigned = some c := by rw [mapAt]; exact assigned
    have limit : (t.lane a).lo ≤ (t.lane a).hi := by
      have same : (u.outLane a).lo = (s.lane a).lo ∧ (u.outLane a).hi = (s.lane a).hi := by
        unfold State.outLane
        rw [lane]
        split <;> exact ⟨rfl, rfl⟩
      rw [(out a).lane, same.1, same.2]
      exact limits a
    refine ⟨t.initialCommand a, initialCommand_startValue limit, ?_, ?_⟩
    · rw [(out a).lane, State.outLane, if_pos (by rw [assigned']; rfl), lane, before.initialCommand]
    · rw [(out a).chan c assigned', State.outChan, chans, entered assigned, before.initialCommand,
        dutyOf_same blocks.cals]
      unfold ChanState.ordered
      by_cases isLocal : (s.chan c).mode = .localDuty <;> simp [isLocal]
  · rw [(out a).lane, State.outLane, mapAt, none, lane]
    rfl
  · rw [freed fun a => by rw [mapAt]; exact unassigned a, chans, free unassigned]
  · rw [(out gate).travel rfl, mapAt]

end Sys2Proof.Machine
end

section
/-! The test of the map at START (R140): every channel OK, or one actuator that moves to its spare or is left DOWN. -/

namespace Sys2Proof.Machine

/-! ### The test of one actuator among others that stand -/

/-- A fold that one item alone changes. -/
theorem foldl_at {α σ : Type} {f : σ → α → σ} {x : α} {s t : σ} (hit : f s x = t) (before : ∀ y, y ≠ x → f s y = s)
    (after : ∀ y, y ≠ x → f t y = t) : ∀ {l : List α}, l.Nodup → x ∈ l → l.foldl f s = t
  | y :: l, nodup, mem => by
    obtain ⟨out, nodup⟩ := List.nodup_cons.1 nodup
    rw [List.foldl_cons]
    by_cases same : y = x
    · subst same
      rw [hit]
      exact List.foldlRecOn (motive := fun u => u = t) l f rfl fun u e z hz => by
        rw [e]
        exact after z fun same => out (same ▸ hz)
    · rw [before y same]
      exact foldl_at hit before after nodup ((List.mem_cons.1 mem).resolve_left (Ne.symm same))

theorem testActuator_ok {r : StartRun} {a : Actuator} (ok : r.st.usable a) : testActuator r a = r :=
  if_pos (channelOk_iff.2 ok)

theorem testActuator_stays {r : StartRun} {a b : Actuator} (apart : b ≠ a) (ok : r.st.usable b) :
    testActuator (testActuator r a) b = testActuator r a := by
  obtain ⟨others, health, -⟩ := testActuator_leaves r a
  refine testActuator_ok ?_
  obtain ⟨c, assigned, good⟩ := ok
  exact ⟨c, by rw [others b apart]; exact assigned, (health c).trans good⟩

section
variable {s : State} {a : Actuator}

theorem tests_all (ok : ∀ a, s.usable a) : allActuators.foldl testActuator ⟨s, 0, 0⟩ = ⟨s, 0, 0⟩ :=
  List.foldlRecOn (motive := fun r => r = ⟨s, 0, 0⟩) allActuators testActuator rfl fun r e b _ => by
    rw [e]
    exact testActuator_ok (ok b)

theorem tests_one (others : ∀ b, b ≠ a → s.usable b) :
    allActuators.foldl testActuator ⟨s, 0, 0⟩ = testActuator ⟨s, 0, 0⟩ a :=
  foldl_at (s := (⟨s, 0, 0⟩ : StartRun)) rfl (fun b apart => testActuator_ok (others b apart))
    (fun b apart => testActuator_stays (r := ⟨s, 0, 0⟩) apart (others b apart)) nodup_allActuators (mem_allActuators a)

theorem channelOk_false (bad : ¬ s.usable a) : s.channelOk a = false := by
  rw [Bool.eq_false_iff]
  exact fun ok => bad (channelOk_iff.1 ok)

theorem testActuator_moves {sp : Chan} (bad : ¬ s.usable a) (spare : s.usableSpare a = some sp) :
    testActuator ⟨s, 0, 0⟩ a =
      ⟨queueNotice .operator (.remapped a (s.mapAt a).assigned sp) (moveActuator a sp s), 1, 0⟩ := by
  unfold testActuator
  dsimp only
  rw [channelOk_false bad, spare]
  rfl

theorem testActuator_downs (bad : ¬ s.usable a) (none : s.usableSpare a = none) :
    testActuator ⟨s, 0, 0⟩ a = ⟨queueNotice .operator (.down a (s.mapAt a).assigned) (leaveDown a s), 0, 1⟩ := by
  unfold testActuator
  dsimp only
  rw [channelOk_false bad, none]
  rfl

end

/-! ### What the test leaves -/

/-- The test changes the map and channels, and queues the notices `ns`. -/
structure MapTested (s u : State) (ns : List Notice) : Prop where
  blocks : BlocksKept { s with map := u.map } u
  interlocks : u.interlocks = s.interlocks
  slots : u.slots = s.slots
  banks : u.banks = s.banks
  lanes : u.lanes = s.lanes
  queue : s.noticeCount + ns.length ≤ 16 →
    u.txQueue = s.txQueue ++ ns.map (TxFrame.notice .operator) ∧ u.noticesLost = s.noticesLost

section
variable {s u : State} {a : Actuator}

theorem MapTested.refl (s : State) : MapTested s s [] :=
  ⟨by constructor <;> rfl, rfl, rfl, rfl, rfl, fun _ => ⟨by simp, rfl⟩⟩

/-- A move or an assignment removed, with its notice. -/
theorem MapTested.noticed (n : Notice) (blocks : BlocksKept { s with map := u.map } u) (interlocks : u.interlocks = s.interlocks)
    (slots : u.slots = s.slots) (banks : u.banks = s.banks) (lanes : u.lanes = s.lanes) (queue : u.txQueue = s.txQueue)
    (lost : u.noticesLost = s.noticesLost) : MapTested s (queueNotice .operator n u) [n] := by
  have count : u.noticeCount = s.noticeCount := by rw [State.noticeCount, queue]; rfl
  obtain ⟨queued, flag⟩ := queueNotice_queue .operator n u
  refine ⟨blocks.mapped (queueNotice_frame .operator n u).blocks, by simpa using interlocks, by simpa using slots,
    by simpa using banks, by simpa using lanes, fun room => ?_⟩
  have room : u.noticeCount < 16 := by
    rw [count]
    simpa using room
  rw [queued, flag, if_pos room, queue, lost]
  simp [room]

/-- The actuator `a` alone is tested: its assignment becomes `x`, and what it had is RELEASED. -/
structure Retested (a : Actuator) (x : Option Chan) (s u : State) (ns : List Notice) : Prop where
  tested : MapTested s u ns
  map : Reassigned a x s u
  others : ∀ d, (s.mapAt a).assigned ≠ some d → x ≠ some d → u.chan d = s.chan d
  old : ∀ c, (s.mapAt a).assigned = some c → x ≠ some c → u.chan c = { s.chan c with mode := .released, output := 0 }

theorem moveActuator_retests {sp : Chan} (n : Notice) :
    Retested a (some sp) s (queueNotice .operator n (moveActuator a sp s)) [n] := by
  have r : Remaps a sp s (moveActuator a sp s) := moveActuator_remaps
  have lanes : (moveActuator a sp s).lanes = s.lanes := by
    unfold moveActuator
    split <;> rfl
  refine ⟨.noticed n r.blocks r.interlocks r.slots r.banks lanes r.queue r.lost,
    (moveActuator_reassigned a sp s).of_map (by simp), fun d other apart => ?_, fun c assigned apart => ?_⟩
  · have same := r.chans d (fun e => apart (congrArg some e.symm)) other
    simpa using same
  · have apart : sp ≠ c := fun e => apart (congrArg some e)
    have chan : (moveActuator a sp s).chan c = { s.chan c with mode := .released, output := 0 } := by
      rw [moveActuator_eq assigned, refreshChan, chan_setChan, if_neg apart.symm]
      exact (swapped_leaves a s apart).1
    simpa using chan

theorem leaveDown_retests (n : Notice) : Retested a none s (queueNotice .operator n (leaveDown a s)) [n] := by
  have kept : BlocksKept { s with map := (leaveDown a s).map } (leaveDown a s) ∧
      (leaveDown a s).interlocks = s.interlocks ∧ (leaveDown a s).slots = s.slots ∧ (leaveDown a s).banks = s.banks ∧
      (leaveDown a s).lanes = s.lanes ∧ (leaveDown a s).txQueue = s.txQueue ∧
      (leaveDown a s).noticesLost = s.noticesLost := by
    unfold leaveDown
    split <;> exact ⟨by constructor <;> rfl, rfl, rfl, rfl, rfl, rfl, rfl⟩
  obtain ⟨blocks, interlocks, slots, banks, lanes, queue, lost⟩ := kept
  have chan : ∀ d, (leaveDown a s).chan d = if (s.mapAt a).assigned = some d
      then { s.chan d with mode := .released, output := 0 } else s.chan d := fun d => by
    unfold leaveDown
    split
    · next c assigned =>
      rw [assign_chan, releaseChan, chan_setChan, assigned]
      by_cases same : d = c
      · subst same
        rw [if_pos rfl, if_pos rfl]
      · rw [if_neg same, if_neg fun e => same (Option.some.inj e).symm]
    · next none => simp [none]
  refine ⟨.noticed n blocks interlocks slots banks lanes queue lost, (leaveDown_reassigned a s).of_map (by simp),
    fun d other _ => ?_, fun c assigned _ => ?_⟩
  · have same := chan d
    rw [if_neg other] at same
    simpa using same
  · have same := chan c
    rw [if_pos assigned] at same
    simpa using same

end

/-! ### START's frame -/

/-- START's test works on the state its frame leaves, in RUN. -/
def runBegun (s : State) : State := { received s with mode := .run }

section
variable {s u t : State} {ns : List Notice} {a : Actuator} {x : Option Chan}

theorem startOn_of_lane {c : Chan} {y z : ChanState} (points : startedOn u t a c y) (lanes : u.lanes = s.lanes)
    (cals : u.cals = s.cals) (same : (if y.mode = .localDuty then y else { y with mode := .order, output := 0 }) =
      if z.mode = .localDuty then z else { z with mode := .order, output := 0 }) : startedOn s t a c z := by
  obtain ⟨v, start, lane, chan⟩ := points
  refine ⟨v, start, by rw [lane, lane_of_lanes lanes], chan.trans ?_⟩
  rw [dutyOf_same cals]
  split <;> rename_i hy <;> split <;> rename_i hz <;> simp only [hy, hz, if_true, if_false] at same
  · exact same
  · rw [same] at hy
    cases hy
  · rw [← same] at hz
    cases hz
  · simp only [ChanState.mk.injEq] at same ⊢
    exact ⟨same.1, trivial, same.2.2.1, trivial⟩

theorem startedOn_congr {c : Chan} {y : ChanState} (started : startedOn u t a c y) (lanes : u.lanes = s.lanes)
    (cals : u.cals = s.cals) : startedOn s t a c y := startOn_of_lane started lanes cals rfl

theorem MapTested.startFrame (h : MapTested (runBegun s) u ns) (k : LanesStarted u t) : startFrame s t ns := by
  have points : SamePoints s u :=
    ⟨h.blocks.direct, h.blocks.modValues, h.blocks.modules, h.blocks.depth, h.blocks.drift⟩
  refine ⟨k.slots.trans h.slots, k.banks.trans h.banks, fun room => ?_, fun w => ?_, h.blocks.mapped k.blocks⟩
  · obtain ⟨queue, lost⟩ := h.queue room
    exact ⟨k.queue.trans queue, k.lost.trans lost⟩
  · have same : u.interlock w = s.interlock w := by rw [State.interlock, h.interlocks]; rfl
    refine ⟨_, by rw [k.flags, same], ?_⟩
    rw [points.flag]
    exact interlockFlag_iff s _

/-- The other actuators and channels of a START with one actuator tested. -/
theorem Retested.startOthers (h : Retested a x (runBegun s) u ns) (k : LanesStarted u t)
    (once : ∀ a b c, (s.mapAt a).assigned = some c → (s.mapAt b).assigned = some c → a = b)
    (free : ∀ b c, x = some c → (s.mapAt b).assigned ≠ some c) :
    (∀ b, b ≠ a → (∀ c, (s.mapAt b).assigned = some c → startedOn s t b c (s.chan c)) ∧ t.mapAt b = s.mapAt b) ∧
      ∀ c, (∀ b, (s.mapAt b).assigned ≠ some c) → (t.mapAt a).assigned ≠ some c → t.chan c = s.chan c := by
  have mapAt : ∀ b, t.mapAt b = u.mapAt b := fun b => by rw [State.mapAt, k.blocks.map]; rfl
  refine ⟨fun b apart => ⟨fun c assigned => ?_, (mapAt b).trans (h.map.other apart)⟩, fun c unassigned other => ?_⟩
  · have chan : u.chan c = s.chan c :=
      h.others c (fun e => apart (once b a c assigned e)) fun e => free b c e assigned
    rw [← chan]
    exact startedOn_congr (k.rests b c (by rw [h.map.other apart]; exact assigned)) h.tested.lanes h.tested.blocks.cals
  · rw [mapAt, h.map.self] at other
    rw [k.frees c fun b => ?_, h.others c (unassigned a) other]
    · rfl
    · by_cases same : b = a
      · subst same
        rw [h.map.self]
        exact other
      · rw [h.map.other same]
        exact unassigned b

/-- The channel it had is RELEASED and assigned to none. -/
theorem Retested.startReleased (h : Retested a x (runBegun s) u ns) (k : LanesStarted u t)
    (once : ∀ a b c, (s.mapAt a).assigned = some c → (s.mapAt b).assigned = some c → a = b)
    (free : ∀ b c, x = some c → (s.mapAt b).assigned ≠ some c) {c : Chan} (assigned : (s.mapAt a).assigned = some c) :
    t.chan c = { s.chan c with mode := .released, output := 0 } := by
  have apart : x ≠ some c := fun e => free a c e assigned
  rw [k.frees c fun b => ?_, h.old c assigned apart]
  · rfl
  · by_cases same : b = a
    · subst same
      rw [h.map.self]
      exact apart
    · rw [h.map.other same]
      exact fun other => same (once b a c other assigned)

end

end Sys2Proof.Machine
end

section
/-! The evaluation of the active bank (R115, R116): no entry, no depth, or one entry in band. -/

namespace Sys2Proof.Machine

/-! ### Entries by position -/

/-- The state an entry takes by its position, AHEAD where the depth is unknown. -/
def PlanEntry.placed (d : Option Int) (x : PlanEntry) : EntryState :=
  match d with
  | some v => x.position v
  | none => .ahead

section
variable {s : State} {d : Option Int}

theorem placeEntries_writes (d : Option Int) (s : State) : ∃ bk, placeEntries d s = { s with banks := bk } := by
  unfold placeEntries
  refine overEntries_keeps (P := fun t => ∃ bk, t = { s with banks := bk }) (fun t e x ⟨bk, h⟩ _ => ?_) ⟨s.banks, rfl⟩
  obtain ⟨bk', w⟩ := setEntryState_writes t t.active e _
  exact ⟨bk', by rw [w, h]⟩

/-- A turn of the bank's placing by position. -/
def placeTurn (d : Option Int) (s : State) (e : EntryIx) : State :=
  match s.entry s.active e with
  | some x => s.setEntryState s.active e (x.placed d)
  | none => s

theorem placeEntries_eq (d : Option Int) (s : State) : placeEntries d s = allEntries.foldl (placeTurn d) s := by
  unfold placeEntries overEntries
  refine congrArg (fun f => List.foldl f s allEntries) ?_
  funext t e
  unfold placeTurn PlanEntry.placed
  rfl

/-- The item a turn rewrites is its entry's state. -/
theorem placeTurn_entry (d : Option Int) (s : State) (e y : EntryIx) :
    (placeTurn d s e).entry (placeTurn d s e).active y = if y = e
      then (s.entry s.active e).map fun x => { x with state := x.placed d } else s.entry s.active y := by
  unfold placeTurn
  cases at' : s.entry s.active e with
  | none =>
    by_cases same : y = e
    · subst same
      simp [at']
    · simp [same]
  | some x =>
    simp only [setEntryState_leaves, entry_setEntryState, true_and, at']
    rfl

theorem placeEntries_entry (d : Option Int) (s : State) (e : EntryIx) : (placeEntries d s).entry s.active e =
    (s.entry s.active e).map fun x => { x with state := x.placed d } := by
  have active : (placeEntries d s).active = s.active := by
    obtain ⟨bk, w⟩ := placeEntries_writes d s
    rw [w]
  have turns := foldl_items (fun (t : State) e => t.entry t.active e)
    (fun _ o => o.map fun x : PlanEntry => { x with state := x.placed d }) (f := placeTurn d)
    (fun t e y => placeTurn_entry d t e y) allEntries s e nodup_allEntries
  rw [if_pos (mem_allEntries e), ← placeEntries_eq, active] at turns
  exact turns

theorem placeEntries_empty (empty : ∀ e, s.entry s.active e = none) : placeEntries d s = s :=
  overEntries_keeps (P := fun t => t = s) (fun t e x same hx => by
    rw [same, empty e] at hx
    cases hx) rfl

theorem evaluateBank_empty (empty : ∀ e, s.entry s.active e = none) : evaluateBank s = s := by
  unfold evaluateBank
  rw [placeEntries_empty empty]
  unfold spawnEntries
  split
  · rfl
  · exact overEntries_keeps (P := fun t => t = s) (fun t e x same hx => by
      rw [same, empty e] at hx
      cases hx) rfl

theorem evaluateBank_unknown (unknown : s.depth.value = none) : evaluateBank s = placeEntries none s := by
  rw [evaluateBank, unknown]
  rfl

end

/-! ### One entry in band -/

theorem PlanEntry.holds_iff {x : PlanEntry} {d : Int} : x.holds d = true ↔ x.depthFrom ≤ d ∧ d < x.depthTo := by
  simp [PlanEntry.holds, inBandOf]

/-- A turn of the bank's spawns. -/
def spawnTurn (d : Int) (s : State) (e : EntryIx) : State :=
  match s.entry s.active e with
  | some x => if x.holds d then spawn e s else s
  | none => s

theorem spawnEntries_eq (d : Int) (s : State) : spawnEntries (some d) s = allEntries.foldl (spawnTurn d) s := rfl

theorem spawnTurn_idle {d : Int} {s : State} {e : EntryIx} (out : ∀ x, s.entry s.active e = some x → x.holds d = false) :
    spawnTurn d s e = s := by
  unfold spawnTurn
  split
  · next x hx => rw [out x hx]; rfl
  · rfl

/-- The bank `b` with the entry `e` in the state `st`, the others by their position. -/
structure Evaluated (b : BankIx) (d : Int) (e : EntryIx) (st : EntryState) (s t : State) : Prop where
  active : t.active = b
  here : t.entry b e = (s.entry b e).map fun x => { x with state := st }
  others : ∀ y, y ≠ e → t.entry b y = (s.entry b y).map fun x => { x with state := x.position d }

/-- The entry `e` of the bank `b` alone takes another state. -/
structure EntryOnly (b : BankIx) (e : EntryIx) (st : EntryState) (s t : State) : Prop where
  active : t.active = b
  here : t.entry b e = (s.entry b e).map fun x => { x with state := st }
  others : ∀ y, y ≠ e → t.entry b y = s.entry b y

section
variable {s t : State} {d : Int} {e : EntryIx} {x : PlanEntry} {st : EntryState}

/-- One spawn evaluates a bank of which one entry is in band. -/
theorem evaluateBank_one (depth : s.depth.value = some d) (hx : s.entry s.active e = some x) (holds : x.holds d = true)
    (out : ∀ y z, y ≠ e → s.entry s.active y = some z → z.holds d = false)
    (spawned : spawn e (placeEntries (some d) s) = t)
    (only : EntryOnly s.active e st (placeEntries (some d) s) t) : evaluateBank s = t ∧ Evaluated s.active d e st s t := by
  have placed := placeEntries_entry (some d) s
  have active : (placeEntries (some d) s).active = s.active := by
    obtain ⟨bk, w⟩ := placeEntries_writes (some d) s
    rw [w]
  have outPlaced : ∀ y z, y ≠ e → (placeEntries (some d) s).entry s.active y = some z → z.holds d = false :=
    fun y z apart hz => by
      rw [placed] at hz
      obtain ⟨z', was, rfl⟩ := Option.map_eq_some_iff.1 hz
      exact out y z' apart was
  refine ⟨?_, only.active, ?_, fun y apart => ?_⟩
  · rw [evaluateBank, depth, spawnEntries_eq]
    refine foldl_at (x := e) ?_ (fun y apart => spawnTurn_idle fun z hz => ?_) (fun y apart => spawnTurn_idle fun z hz => ?_)
      nodup_allEntries (mem_allEntries e)
    · rw [spawnTurn, active, placed, hx]
      exact (if_pos holds).trans spawned
    · rw [active] at hz
      exact outPlaced y z apart hz
    · rw [only.active, only.others y apart] at hz
      exact outPlaced y z apart hz
  · rw [only.here, placed, Option.map_map]
    rfl
  · rw [only.others y apart, placed]
    rfl

/-! ### What became of the entries -/

theorem filter_one {p : EntryIx → Bool} (only : ∀ y, p y = true ↔ y = e) : (allEntries.filter p).length = 1 := by
  have same : allEntries.filter p = allEntries.filter fun y => y == e :=
    List.filter_congr fun y _ => by
      rw [Bool.eq_iff_iff, only, beq_iff_eq]
  rw [same, ← List.countP_eq_length_filter]
  exact List.count_eq_one_of_mem nodup_allEntries (mem_allEntries e)

theorem filter_none {p : EntryIx → Bool} (none : ∀ y, p y = false) : (allEntries.filter p).length = 0 := by
  rw [List.length_eq_zero_iff, List.filter_eq_nil_iff]
  intro y _
  simp [none y]

theorem position_asleep (x : PlanEntry) (d : Int) : (∀ h, x.position d ≠ .live h) ∧ x.position d ≠ .skipped := by
  unfold PlanEntry.position
  split <;> simp

/-- An entry that is neither LIVE nor SKIPPED counts as neither. -/
theorem uncounted {y : PlanEntry} (live : ∀ h, y.state ≠ .live h) (skipped : y.state ≠ .skipped) :
    y.isLive = false ∧ decide (y.state = .skipped) = false := by
  refine ⟨?_, by simpa using skipped⟩
  unfold PlanEntry.isLive
  split
  · next h e => exact absurd e (live h)
  · rfl

theorem counts_none (none : ∀ y z, s.entry s.active y = some z → (∀ h, z.state ≠ .live h) ∧ z.state ≠ .skipped) :
    s.liveEntries = 0 ∧ s.skippedEntries = 0 := by
  constructor
  · refine filter_none fun y => ?_
    cases hz : s.entry s.active y with
    | none => rfl
    | some z => exact (uncounted (none y z hz).1 (none y z hz).2).1
  · refine filter_none fun y => ?_
    cases hz : s.entry s.active y with
    | none => rfl
    | some z => exact (uncounted (none y z hz).1 (none y z hz).2).2

section
variable {b : BankIx} (h : Evaluated b d e st s t) (hx : s.entry b e = some x)
include h

theorem Evaluated.other_state {y : EntryIx} {z : PlanEntry} (apart : y ≠ e) (hz : t.entry t.active y = some z) :
    (∀ k, z.state ≠ .live k) ∧ z.state ≠ .skipped := by
  rw [h.active, h.others y apart] at hz
  obtain ⟨z', -, rfl⟩ := Option.map_eq_some_iff.1 hz
  exact position_asleep z' d

include hx

theorem Evaluated.entry : t.entry t.active e = some { x with state := st } := by
  rw [h.active, h.here, hx]
  rfl

theorem Evaluated.counts_live {k : Handle} (live : st = .live k) : t.liveEntries = 1 ∧ t.skippedEntries = 0 := by
  subst live
  constructor
  · refine filter_one (e := e) fun y => ⟨fun counted => ?_, fun same => ?_⟩
    · by_contra apart
      cases hz : t.entry t.active y with
      | none => rw [hz] at counted; cases counted
      | some z =>
        rw [hz] at counted
        obtain ⟨live, skipped⟩ := h.other_state apart hz
        exact absurd (show z.isLive = true from counted) (by rw [(uncounted live skipped).1]; simp)
    · rw [same, h.entry hx]
      rfl
  · refine filter_none fun y => ?_
    by_cases same : y = e
    · rw [same, h.entry hx]
      rfl
    · cases hz : t.entry t.active y with
      | none => rfl
      | some z =>
        obtain ⟨live, skipped⟩ := h.other_state same hz
        exact (uncounted live skipped).2

theorem Evaluated.counts_skipped (skipped : st = .skipped) : t.liveEntries = 0 ∧ t.skippedEntries = 1 := by
  subst skipped
  constructor
  · refine filter_none fun y => ?_
    by_cases same : y = e
    · rw [same, h.entry hx]
      rfl
    · cases hz : t.entry t.active y with
      | none => rfl
      | some z =>
        obtain ⟨live, skipped⟩ := h.other_state same hz
        exact (uncounted live skipped).1
  · refine filter_one (e := e) fun y => ⟨fun counted => ?_, fun same => ?_⟩
    · by_contra apart
      cases hz : t.entry t.active y with
      | none => rw [hz] at counted; cases counted
      | some z =>
        rw [hz] at counted
        obtain ⟨live, skipped⟩ := h.other_state apart hz
        exact absurd (show decide (z.state = .skipped) = true from counted) (by rw [(uncounted live skipped).2]; simp)
    · rw [same, h.entry hx]
      rfl

end

/-! ### A spawn that fails, and one on a lane without orders -/

theorem spawn_fails {w : SpawnFailure} (hx : s.entry s.active e = some x) (fails : s.spawnFailure x = some w) :
    spawn e s = queueNotice .operator (.entrySkipped s.active e x.actuator w) (s.setEntryState s.active e .skipped) := by
  simp only [spawn, hx, fails]

theorem spawn_fails_only (n : Notice) :
    EntryOnly s.active e .skipped s (queueNotice .operator n (s.setEntryState s.active e .skipped)) := by
  refine ⟨by simp, by simp [entry_setEntryState], fun y apart => by simp [entry_setEntryState, apart]⟩

/-- The entry spawned onto a lane at rest, where there are no orders. -/
structure FreshSpawn (e : EntryIx) (x : PlanEntry) (s : State) : Prop where
  entry : s.entry s.active e = some x
  empty : ∀ i, s.orderAt i = none
  rest : (s.lane x.actuator).state = .rest
  gateRest : (s.lane gate).state ≠ .driven
  apart : x.actuator ≠ gate
  fits : targetOk s x.actuator x.target = true

/-- The order of an entry, live, of exactly its fields. -/
structure SpawnedAs (b : BankIx) (e : EntryIx) (x : PlanEntry) (p : Order) : Prop where
  state : p.state = .pending ∨ p.state = .governing
  cls : p.cls = .plan
  actuator : p.actuator = x.actuator
  target : p.target = x.target
  ramp : p.ramp = x.ramp
  completion : p.completion = .standing
  prereq : p.prereq = none
  guards : p.guards = []
  lease : p.lease = none
  tethered : p.tethered = false
  planEntry : p.planEntry = some (b, e)
  template : p.template = none

theorem spawnedAs_of_restands {b : BankIx} {p : Order} (h : (started (planOrder b e x) s).restands p) :
    SpawnedAs b e x p := by
  obtain ⟨same, waits⟩ := h
  have acts : p.state ≠ .waiting := fun w => by
    have := waits w
    simp [started] at this
  rw [same]
  exact ⟨not_waiting_iff.1 acts, rfl, rfl, rfl, rfl, rfl, rfl, rfl, rfl, rfl, rfl, rfl⟩

namespace FreshSpawn

variable (h : FreshSpawn e x s)
include h

/-- What is installed: the lane resolved with the order in its position. -/
theorem installs : placeOrder (planOrder s.active e x) s =
    (resolve x.actuator (seated (started (planOrder s.active e x) s) 0 s), some (s.handleAt 0, none)) := by
  have unheld : s.findOrder x.actuator .plan = none := by
    refine List.find?_eq_none.2 fun i _ => ?_
    simp [h.empty i]
  have alone : supersede x.actuator .plan s = s := by
    unfold supersede
    rw [unheld]
  have free : (supersede (planOrder s.active e x).actuator (planOrder s.active e x).cls s).freeSlot? = some 0 := by
    show (supersede x.actuator .plan s).freeSlot? = some 0
    rw [alone]
    exact freeSlot?_lowest (h.empty 0) fun k below => absurd below (Nat.not_lt_zero _)
  have nobody : s.holder x.actuator .plan = none := by
    unfold State.holder
    rw [unheld]
    rfl
  have settles : (resolve x.actuator (seated (started (planOrder s.active e x) s) 0 s)).gateSettles = none := by
    have other : gate ≠ (started (planOrder s.active e x) s).actuator := h.apart.symm
    refine gateSettles_undriven ?_
    rw [(resolve_resolves x.actuator _).lanes gate h.apart.symm, seated_lane, if_neg other]
    exact h.gateRest
  have placed := placeOrder_free free
  rw [installOrder_started (s := supersede _ _ s) rfl (by simp [planOrder, newOrder]) (by simp [planOrder, newOrder])] at placed
  rw [placed]
  show (settleGate (resolve x.actuator (seated (started (planOrder s.active e x) (supersede x.actuator .plan s)) 0
    (supersede x.actuator .plan s))), some ((supersede x.actuator .plan s).handleAt 0, s.holder x.actuator .plan)) = _
  rw [alone, nobody, settleGate_none settles]

theorem noFailure : s.spawnFailure x = none := by
  have free : s.freeSlot?.isSome = true := freeSlot?_isSome.2 ⟨0, h.empty 0⟩
  cases slot : s.freeSlot? with
  | none => rw [slot] at free; cases free
  | some i => simp [State.spawnFailure, h.rest, h.fits, slot]

theorem spawns : spawn e s = (resolve x.actuator (seated (started (planOrder s.active e x) s) 0 s)).setEntryState s.active e
    (.live (s.handleAt 0)) := by
  unfold spawn
  rw [h.entry]
  dsimp only
  rw [h.noFailure, h.installs]

omit h in
theorem resolved_leaves : (resolve x.actuator (seated (started (planOrder s.active e x) s) 0 s)).banks = s.banks ∧
    (resolve x.actuator (seated (started (planOrder s.active e x) s) 0 s)).txQueue = s.txQueue ∧
    (resolve x.actuator (seated (started (planOrder s.active e x) s) 0 s)).active = s.active := by
  have r := resolve_resolves x.actuator (seated (started (planOrder s.active e x) s) 0 s)
  have frame := (resolve_frame x.actuator (seated (started (planOrder s.active e x) s) 0 s)).blocks
  exact ⟨r.banks, r.queue, frame.active⟩

theorem only : EntryOnly s.active e (.live (s.handleAt 0)) s (spawn e s) := by
  obtain ⟨banks, -, active⟩ := resolved_leaves (e := e) (x := x) (s := s)
  rw [h.spawns]
  refine ⟨by simpa using active, ?_, fun y apart => ?_⟩
  · rw [entry_setEntryState, if_pos ⟨rfl, rfl⟩, entry_of_banks banks]
  · rw [entry_setEntryState, if_neg fun same => apart same.2, entry_of_banks banks]

theorem order : ∃ p, (spawn e s).order? (s.handleAt 0) = some p ∧ SpawnedAs s.active e x p := by
  have live : (seated (started (planOrder s.active e x) s) 0 s).order? (s.handleAt 0) =
      some (started (planOrder s.active e x) s) := seated_order?
  obtain ⟨p, there, stands⟩ := (resolve_resolves x.actuator _).slots.reach live
  refine ⟨p, ?_, spawnedAs_of_restands stands⟩
  rw [h.spawns, order?_of_slot (slot_of_slots (setEntryState_leaves _ _ _ _).2.1 _)]
  exact there

theorem queue : (spawn e s).txQueue = s.txQueue := by
  obtain ⟨-, queue, -⟩ := resolved_leaves (e := e) (x := x) (s := s)
  rw [h.spawns]
  simpa using queue

end FreshSpawn

end

end Sys2Proof.Machine
end

section
/-! START (R140, R182): from the test of the map over the lanes to the evaluation of the active bank. -/

namespace Sys2Proof.Machine

/-! ### The request -/

section
variable {s u t : State} {moved down live skipped : Nat}

theorem startRun_of (tests : allActuators.foldl testActuator ⟨runBegun s, 0, 0⟩ = ⟨u, moved, down⟩) :
    startRun (received s) = ⟨evaluateBank (lanesStarted u), moved, down⟩ := by
  unfold startRun
  rw [show ({ received s with mode := .run } : State) = runBegun s from rfl, tests]
  rfl

/-- The answer counts what the test moved and left DOWN, and what the bank's evaluation spawned and skipped. -/
theorem exec_start (tag : Word) (setup : s.mode = .setup)
    (tests : allActuators.foldl testActuator ⟨runBegun s, 0, 0⟩ = ⟨u, moved, down⟩)
    (evaluated : evaluateBank (lanesStarted u) = t) (run : t.mode = .run)
    (counts : t.liveEntries = live ∧ t.skippedEntries = skipped) :
    exec (.start ⟨.operator, tag, []⟩) s = .next (answered 0x71 ⟨.operator, tag, []⟩ .done
      [1, BitVec.ofNat 8 moved, BitVec.ofNat 8 down, BitVec.ofNat 8 live, BitVec.ofNat 8 skipped] t) := by
  have mode : (received s).mode = .setup := setup
  refine show execStart _ s = _ from request_done (Nat.zero_le _) ?_
  dsimp only
  rw [inSetup, if_pos mode, startRun_of tests, evaluated, run, counts.1, counts.2]
  rfl

end

/-! ### The lanes of a START -/

/-- START has tested the map, with the notices `ns`, and its lanes have left OFF. -/
structure Begins (s u w : State) (ns : List Notice) : Prop where
  tested : MapTested (runBegun s) u ns
  lanes : LanesStarted u w

section
variable {s u w : State} {ns : List Notice}

theorem MapTested.begins (h : MapTested (runBegun s) u ns) (map : MapLaw u) (law : CommandLaw s) :
    Begins s u (lanesStarted u) ns := by
  refine ⟨h, lanesStarted_does (fun a b c => map.assignedOnce a b c) fun a => ?_⟩
  rw [lane_of_lanes h.lanes]
  exact limits_ordered (law.limits a)

namespace Begins

variable (h : Begins s u w ns)
include h

theorem mode : w.mode = .run := h.lanes.blocks.mode.trans h.tested.blocks.mode

theorem depth : w.depth = s.depth := h.lanes.blocks.depth.trans h.tested.blocks.depth

theorem active : w.active = s.active := h.lanes.blocks.active.trans h.tested.blocks.active

theorem slots : w.slots = s.slots := h.lanes.slots.trans h.tested.slots

theorem entry (b : BankIx) (e : EntryIx) : w.entry b e = s.entry b e :=
  entry_of_banks (h.lanes.banks.trans h.tested.banks) b e

theorem handleAt (i : Slot) : w.handleAt i = s.handleAt i := by
  rw [State.handleAt, slot_of_slots h.slots]
  rfl

theorem free (law : SetupLaw s) (setup : s.mode = .setup) (i : Slot) : w.orderAt i = none := by
  rw [State.orderAt, slot_of_slots h.slots]
  exact law.noOrders setup i

theorem rests {a : Actuator} {c : Chan} (assigned : (u.mapAt a).assigned = some c) : startedOn s w a c (u.chan c) :=
  startedOn_congr (h.lanes.rests a c assigned) h.tested.lanes h.tested.blocks.cals

theorem down_lane {a : Actuator} (none : (u.mapAt a).assigned = none) : w.lane a = { s.lane a with
    state := .down, gov := Option.none, maskHold := false, guardHold := false, command := Option.none
    interval := Option.none, detector := .idle } := by
  have same : u.lane a = s.lane a := lane_of_lanes h.tested.lanes a
  rw [h.lanes.downs a none, same]

theorem rest {a : Actuator} {c : Chan} (assigned : (u.mapAt a).assigned = some c) :
    (w.lane a).state = .rest ∧ (w.lane a).lo = (s.lane a).lo ∧ (w.lane a).hi = (s.lane a).hi := by
  obtain ⟨v, -, lane, -⟩ := h.rests assigned
  rw [lane]
  exact ⟨rfl, rfl, rfl⟩

theorem evaluated_mode : (evaluateBank w).mode = .run := (evaluateBank_runs h.mode).mode.trans h.mode

theorem room (space : s.noticeCount + ns.length ≤ 16) : w.txQueue = s.txQueue ++ ns.map (TxFrame.notice .operator) ∧
    w.noticeCount = s.noticeCount + ns.length := by
  obtain ⟨queue, -⟩ := h.tested.queue space
  have queue : w.txQueue = s.txQueue ++ ns.map (TxFrame.notice .operator) := h.lanes.queue.trans queue
  refine ⟨queue, ?_⟩
  have notices : (ns.map (TxFrame.notice .operator)).filter TxFrame.isNotice = ns.map (TxFrame.notice .operator) :=
    List.filter_eq_self.2 fun f hf => by
      obtain ⟨n, -, rfl⟩ := List.mem_map.1 hf
      rfl
  rw [State.noticeCount, queue, List.filter_append, notices, List.length_append, List.length_map]
  rfl

end Begins

/-! ### The bank of a START -/

theorem Begins.empty (h : Begins s u w ns) (empty : ∀ e, s.entry s.active e = none) :
    evaluateBank w = w ∧ w.liveEntries = 0 ∧ w.skippedEntries = 0 := by
  have none : ∀ e, w.entry w.active e = none := fun e => by
    rw [h.active, h.entry]
    exact empty e
  refine ⟨evaluateBank_empty none, counts_none fun y z hz => ?_⟩
  rw [none] at hz
  cases hz

theorem Begins.unknown (h : Begins s u w ns) (unknown : s.depth.value = none) :
    (evaluateBank w).slots = s.slots ∧
      (∀ e, (evaluateBank w).entry s.active e = (s.entry s.active e).map fun x => { x with state := .ahead }) ∧
      (evaluateBank w).liveEntries = 0 ∧ (evaluateBank w).skippedEntries = 0 := by
  have eq := evaluateBank_unknown (s := w) (by rw [h.depth]; exact unknown)
  have placed := placeEntries_entry none w
  obtain ⟨bk, writes⟩ := placeEntries_writes none w
  have active : (placeEntries none w).active = w.active := by rw [writes]
  have slots : (placeEntries none w).slots = w.slots := by rw [writes]
  rw [eq]
  refine ⟨slots.trans h.slots, fun e => ?_, counts_none fun y z hz => ?_⟩
  · rw [← h.active, placed, h.entry, h.active]
    rfl
  · rw [active, placed] at hz
    obtain ⟨z', -, rfl⟩ := Option.map_eq_some_iff.1 hz
    exact ⟨fun _ e => (by cases e), fun e => (by cases e)⟩

/-- The entry in band, and the others out of it. -/
structure OneInBand (s : State) (d : Int) (e : EntryIx) (x : PlanEntry) : Prop where
  depth : s.depth.value = some d
  entry : s.entry s.active e = some x
  begun : x.depthFrom ≤ d
  before : d < x.depthTo
  out : ∀ y z, y ≠ e → s.entry s.active y = some z → (d < z.depthFrom ∨ z.depthTo ≤ d)

section
variable {d : Int} {e : EntryIx} {x : PlanEntry} (one : OneInBand s d e x)
include one

theorem OneInBand.holds : x.holds d = true := PlanEntry.holds_iff.2 ⟨one.begun, one.before⟩

theorem OneInBand.others_out (y : EntryIx) (z : PlanEntry) (apart : y ≠ e) (hz : s.entry s.active y = some z) :
    z.holds d = false := by
  rw [Bool.eq_false_iff]
  intro holds
  obtain ⟨h1, h2⟩ := PlanEntry.holds_iff.1 holds
  rcases one.out y z apart hz with before | past <;> omega

/-- What START's evaluation does where one spawn takes place. -/
theorem Begins.evaluates (h : Begins s u w ns) {t : State} {st : EntryState} (spawned : spawn e (placeEntries (some d) w) = t)
    (only : EntryOnly w.active e st (placeEntries (some d) w) t) :
    evaluateBank w = t ∧ Evaluated w.active d e st w t ∧ t.entry s.active e = some { x with state := st } := by
  have active := h.active
  have hx : w.entry w.active e = some x := by rw [active, h.entry]; exact one.entry
  obtain ⟨eq, evaluated⟩ := evaluateBank_one (by rw [h.depth]; exact one.depth) hx one.holds
    (fun y z apart hz => one.others_out y z apart (by rw [active, h.entry] at hz; exact hz)) spawned only
  refine ⟨eq, evaluated, ?_⟩
  rw [← active, evaluated.here, hx]
  rfl

omit one in
/-- The other entries are AHEAD or PASSED by the depth. -/
theorem Begins.others (h : Begins s u w ns) {t : State} {st : EntryState} (evaluated : Evaluated w.active d e st w t)
    {y : EntryIx} {z : PlanEntry} (apart : y ≠ e) (hz : s.entry s.active y = some z) (order : z.depthFrom ≤ z.depthTo) :
    (d < z.depthFrom → t.entry s.active y = some { z with state := .ahead }) ∧
      (z.depthTo ≤ d → t.entry s.active y = some { z with state := .passed }) := by
  have entry : t.entry s.active y = some { z with state := z.position d } := by
    rw [← h.active, evaluated.others y apart, h.entry, h.active, hz]
    rfl
  refine ⟨fun before => ?_, fun past => ?_⟩
  · rw [entry, PlanEntry.position, if_neg (by omega)]
  · rw [entry, PlanEntry.position, if_pos past]

/-- The spawn of the entry in band, from the state its bank is placed in. -/
theorem Begins.placed (h : Begins s u w ns) : ∃ p, placeEntries (some d) w = p ∧ p.active = w.active ∧ p.lanes = w.lanes ∧
    p.slots = w.slots ∧ p.txQueue = w.txQueue ∧ p.entry p.active e = some { x with state := x.position d } := by
  have placed := placeEntries_entry (some d) w e
  obtain ⟨bk, writes⟩ := placeEntries_writes (some d) w
  have active : (placeEntries (some d) w).active = w.active := by rw [writes]
  refine ⟨_, rfl, active, by rw [writes], by rw [writes], by rw [writes], ?_⟩
  rw [active, placed, h.active, h.entry, one.entry]
  rfl

/-- The spawn fails: the entry is SKIPPED, with its notice. -/
theorem Begins.skips (h : Begins s u w ns) {f : SpawnFailure}
    (fails : ∀ p : State, p.lanes = w.lanes → p.spawnFailure { x with state := x.position d } = some f) :
    ∃ t, evaluateBank w = t ∧ Evaluated w.active d e .skipped w t ∧ t.entry s.active e = some { x with state := .skipped } ∧
      (t.liveEntries = 0 ∧ t.skippedEntries = 1) ∧ t.lanes = w.lanes ∧ t.slots = w.slots ∧
      (w.noticeCount < 16 →
        t.txQueue = w.txQueue ++ [.notice .operator (.entrySkipped s.active e x.actuator f)]) := by
  obtain ⟨p, placed, active, lanes, slots, queue, entry⟩ := h.placed one
  have spawned := spawn_fails entry (fails p lanes)
  have only := spawn_fails_only (s := p) (e := e) (.entrySkipped p.active e x.actuator f)
  subst placed
  rw [active] at spawned only
  obtain ⟨eq, evaluated, here⟩ := h.evaluates one spawned only
  have hx : w.entry w.active e = some x := by rw [h.active, h.entry]; exact one.entry
  refine ⟨_, eq, evaluated, here, evaluated.counts_skipped hx rfl, by simpa using lanes, by simpa using slots, fun room => ?_⟩
  obtain ⟨queued, -⟩ := queueNotice_queue .operator (.entrySkipped w.active e x.actuator f)
    ((placeEntries (some d) w).setEntryState w.active e .skipped)
  have count : ((placeEntries (some d) w).setEntryState w.active e .skipped).noticeCount = w.noticeCount := by
    simp [State.noticeCount, queue]
  rw [count, if_pos room] at queued
  rw [queued, h.active]
  simp [queue]

/-- The spawn succeeds: the entry is LIVE with its order in slot 0. -/
theorem Begins.spawns (h : Begins s u w ns) (free : ∀ i, w.orderAt i = none) (rest : (w.lane x.actuator).state = .rest)
    (gateRest : (w.lane gate).state ≠ .driven) (apart : x.actuator ≠ gate) (fits : targetOk w x.actuator x.target = true) :
    ∃ t p, evaluateBank w = t ∧ Evaluated w.active d e (.live (s.handleAt 0)) w t ∧
      t.entry s.active e = some { x with state := .live (s.handleAt 0) } ∧ (t.liveEntries = 1 ∧ t.skippedEntries = 0) ∧
      t.order? (s.handleAt 0) = some p ∧ SpawnedAs s.active e x p ∧ t.txQueue = w.txQueue := by
  obtain ⟨p, placed, active, lanes, slots, queue, entry⟩ := h.placed one
  have lane := lane_of_lanes lanes
  have handle : p.handleAt 0 = s.handleAt 0 := by
    rw [State.handleAt, slot_of_slots slots]
    exact h.handleAt 0
  have fresh : FreshSpawn e { x with state := x.position d } p := by
    refine ⟨entry, fun i => ?_, ?_, ?_, apart, ?_⟩
    · rw [State.orderAt, slot_of_slots slots]
      exact free i
    · rw [lane]; exact rest
    · rw [lane]; exact gateRest
    · unfold targetOk at fits ⊢
      rw [lane]
      exact fits
  have only := fresh.only
  have queued := fresh.queue
  obtain ⟨o, live, as⟩ := fresh.order
  subst placed
  rw [active, handle] at only
  rw [handle] at live
  obtain ⟨eq, evaluated, here⟩ := h.evaluates one rfl only
  have hx : w.entry w.active e = some x := by rw [h.active, h.entry]; exact one.entry
  refine ⟨_, o, eq, evaluated, here, evaluated.counts_live hx rfl, live, ?_, queued.trans queue⟩
  rw [active, h.active] at as
  exact ⟨as.state, as.cls, as.actuator, as.target, as.ramp, as.completion, as.prereq, as.guards, as.lease, as.tethered,
    as.planEntry, as.template⟩

end

end

end Sys2Proof.Machine
end

section
/-! START by the channels and the bank it finds (R140, R182). -/

namespace Sys2Proof.Machine

section
variable {s : State} {a : Actuator}

/-! ### Every channel OK -/

theorem begins_all (map : MapLaw s) (law : CommandLaw s) : Begins s (runBegun s) (lanesStarted (runBegun s)) [] :=
  (MapTested.refl (runBegun s)).begins (map.of_map rfl) law

theorem exec_start_all {t : State} {live skipped : Nat} (tag : Word) (setup : s.mode = .setup) (ok : ∀ a, s.usable a)
    (evaluated : evaluateBank (lanesStarted (runBegun s)) = t) (run : t.mode = .run)
    (counts : t.liveEntries = live ∧ t.skippedEntries = skipped) : exec (.start ⟨.operator, tag, []⟩) s =
      .next (answered 0x71 ⟨.operator, tag, []⟩ .done [1, 0, 0, BitVec.ofNat 8 live, BitVec.ofNat 8 skipped] t) :=
  exec_start tag setup (tests_all (s := runBegun s) ok) evaluated run counts

theorem travel_runs {u w : State} (k : LanesStarted u w) (assigned : ∃ c, (u.mapAt gate).assigned = some c) :
    w.travel = .running 0 := by
  obtain ⟨c, hc⟩ := assigned
  rw [k.travel, hc]
  rfl

/-- Every lane is in REST, with its channel in ORDER unless in LOCAL. -/
theorem start_all (map : MapLaw s) (law : CommandLaw s) (ok : ∀ a, s.usable a) :
    (∀ a c, (s.mapAt a).assigned = some c → startedOn s (lanesStarted (runBegun s)) a c (s.chan c)) ∧
    (∀ c, (∀ a, (s.mapAt a).assigned ≠ some c) → (lanesStarted (runBegun s)).chan c = s.chan c) ∧
    (lanesStarted (runBegun s)).map = s.map ∧ (lanesStarted (runBegun s)).travel = .running 0 ∧
    startFrame s (lanesStarted (runBegun s)) [] := by
  have begins := begins_all map law
  refine ⟨fun a c assigned => begins.rests (u := runBegun s) assigned, fun c free => begins.lanes.frees c free,
    begins.lanes.blocks.map, travel_runs begins.lanes ?_, begins.tested.startFrame begins.lanes⟩
  obtain ⟨c, assigned, -⟩ := ok gate
  exact ⟨c, assigned⟩

/-! ### One actuator without an OK channel -/

/-- The test of the one actuator `a`: what the state it leaves makes of the lanes. -/
structure StartsOne (s : State) (a : Actuator) (x : Option Chan) (u : State) (n : Notice) : Prop where
  retested : Retested a x (runBegun s) u [n]
  begins : Begins s u (lanesStarted u) [n]

theorem Retested.startsOne {x : Option Chan} {u : State} {n : Notice} (h : Retested a x (runBegun s) u [n]) (map : MapLaw s)
    (law : CommandLaw s) (kind : ∀ c, x = some c → kindsMatch a c = true)
    (free : ∀ b c, x = some c → (s.mapAt b).assigned ≠ some c) : StartsOne s a x u n :=
  ⟨h, h.tested.begins (h.map.mapLaw (map.of_map rfl) kind fun b c e assigned => absurd assigned (free b c e)) law⟩

namespace StartsOne

variable {x : Option Chan} {u : State} {n : Notice} (h : StartsOne s a x u n) (map : MapLaw s)
  (free : ∀ b c, x = some c → (s.mapAt b).assigned ≠ some c)
include h

theorem mapAt : (lanesStarted u).mapAt a = { s.mapAt a with assigned := x } := by
  rw [State.mapAt, h.begins.lanes.blocks.map]
  exact (h.retested.map a).trans (if_pos rfl)

theorem frame : startFrame s (lanesStarted u) [n] := h.begins.tested.startFrame h.begins.lanes

include map free in
theorem released : ∀ c, (s.mapAt a).assigned = some c →
    (lanesStarted u).chan c = { s.chan c with mode := .released, output := 0 } := fun _ assigned =>
  h.retested.startReleased h.begins.lanes (fun a b c => map.assignedOnce a b c) free assigned

include map free in
theorem others : (∀ b, b ≠ a → (∀ c, (s.mapAt b).assigned = some c → startedOn s (lanesStarted u) b c (s.chan c)) ∧
      (lanesStarted u).mapAt b = s.mapAt b) ∧
    ∀ c, (∀ b, (s.mapAt b).assigned ≠ some c) → ((lanesStarted u).mapAt a).assigned ≠ some c →
      (lanesStarted u).chan c = s.chan c :=
  h.retested.startOthers h.begins.lanes (fun a b c => map.assignedOnce a b c) free

theorem gate_other (apart : a ≠ gate) (ok : s.usable gate) : (lanesStarted u).travel = .running 0 := by
  refine travel_runs h.begins.lanes ?_
  obtain ⟨c, assigned, -⟩ := ok
  exact ⟨c, by rw [h.retested.map.other apart.symm]; exact assigned⟩

end StartsOne

/-! ### The move to the spare -/

/-- The state START's test leaves after a move. -/
def startMoved (a : Actuator) (sp : Chan) (s : State) : State :=
  queueNotice .operator (.remapped a (s.mapAt a).assigned sp) (moveActuator a sp (runBegun s))

theorem startMoved_startsOne {sp : Chan} (map : MapLaw s) (law : CommandLaw s) (spare : (s.mapAt a).spare = some sp)
    (free : ∀ b, (s.mapAt b).assigned ≠ some sp) :
    StartsOne s a (some sp) (startMoved a sp s) (.remapped a (s.mapAt a).assigned sp) :=
  (moveActuator_retests (s := runBegun s) _).startsOne map law
    (fun c e => by cases e; exact map.spareKind a sp spare) fun b c e => by cases e; exact free b

theorem startMoved_tests {sp : Chan} (bad : ¬ s.usable a) (others : ∀ b, b ≠ a → s.usable b)
    (thawed : (s.mapAt a).frozen = false) (spare : (s.mapAt a).spare = some sp) (good : (s.chan sp).fault = none)
    (free : ∀ b, (s.mapAt b).assigned ≠ some sp) :
    allActuators.foldl testActuator ⟨runBegun s, 0, 0⟩ = ⟨startMoved a sp s, 1, 0⟩ := by
  have usable : (runBegun s).usableSpare a = some sp :=
    usableSpare_some (s := runBegun s) thawed spare good (assignee_none (s := runBegun s) free)
  rw [tests_one (s := runBegun s) others, testActuator_moves (s := runBegun s) bad usable]
  rfl

/-- The spare of a move: the mode and local duty of the old channel, the output of its mode. -/
theorem moveActuator_spare {sp c : Chan} (assigned : (s.mapAt a).assigned = some c) (apart : sp ≠ c) :
    (moveActuator a sp s).chan sp = { s.chan sp with
      mode := (s.chan c).mode, localDuty := (s.chan c).localDuty, output := (swapped a c sp s).outputOf sp } := by
  obtain ⟨-, spare, -⟩ := swapped_leaves a s apart
  rw [moveActuator_eq assigned, refreshChan, chan_setChan, if_pos rfl, spare]

theorem moveActuator_spare_first {sp : Chan} (none : (s.mapAt a).assigned = none) : (moveActuator a sp s).chan sp =
    { s.chan sp with output := (assign a (some sp) s).outputOf sp } := by
  rw [moveActuator]
  simp only [none]
  rw [refreshChan, chan_setChan, if_pos rfl]
  rfl

theorem startMoved_chan (sp d : Chan) : (startMoved a sp s).chan d = (moveActuator a sp (runBegun s)).chan d := by
  simp [startMoved]

section
variable {sp : Chan} (h : StartsOne s a (some sp) (startMoved a sp s) (.remapped a (s.mapAt a).assigned sp))
include h

theorem startMoved_rests : startedOn s (lanesStarted (startMoved a sp s)) a sp ((startMoved a sp s).chan sp) :=
  h.begins.rests h.retested.map.self

/-- The spare starts with the old channel's mode and local duty. -/
theorem startMoved_spare {c : Chan} (assigned : (s.mapAt a).assigned = some c) (apart : sp ≠ c) :
    let x : ChanState := { s.chan sp with mode := (s.chan c).mode, localDuty := (s.chan c).localDuty }
    startedOn s (lanesStarted (startMoved a sp s)) a sp
      (if x.mode = .localDuty then { x with output := x.localDuty } else x) := by
  have rests := startMoved_rests h
  have spare := moveActuator_spare (s := runBegun s) assigned apart
  rw [startMoved_chan, spare] at rests
  refine startOn_of_lane rests rfl rfl ?_
  by_cases isLocal : (s.chan c).mode = .localDuty
  · have output := swapped_output_local (a := a) (s := runBegun s) apart isLocal
    have mode : ((runBegun s).chan c).mode = .localDuty := isLocal
    simp only [mode, isLocal, if_true, output]
    rfl
  · have mode : ((runBegun s).chan c).mode ≠ .localDuty := isLocal
    simp only [mode, isLocal, if_false]
    rfl

/-- Where there was no old channel the spare starts as it stands. -/
theorem startMoved_first (none : (s.mapAt a).assigned = none) (law : OutputLaw s) :
    startedOn s (lanesStarted (startMoved a sp s)) a sp (s.chan sp) := by
  have rests := startMoved_rests h
  have spare := moveActuator_spare_first (s := runBegun s) (sp := sp) none
  rw [startMoved_chan, spare] at rests
  refine startOn_of_lane rests rfl rfl ?_
  by_cases isLocal : (s.chan sp).mode = .localDuty
  · have mode : ((runBegun s).chan sp).mode = .localDuty := isLocal
    have before : (s.chan sp).output = (s.chan sp).localDuty := by
      rw [law sp, State.outputOf, isLocal]
    have after : (assign a (some sp) (runBegun s)).outputOf sp = (s.chan sp).localDuty := by
      have same : (assign a (some sp) (runBegun s)).chan sp = s.chan sp := rfl
      rw [State.outputOf, same, isLocal]
    simp only [mode, isLocal, if_true, after, ← before]
    rw [← isLocal]
    rfl
  · have mode : ((runBegun s).chan sp).mode ≠ .localDuty := isLocal
    simp only [mode, isLocal, if_false]
    rfl

end

/-! ### The actuator left DOWN -/

/-- The state START's test leaves with an actuator left DOWN. -/
def startDowned (a : Actuator) (s : State) : State :=
  queueNotice .operator (.down a (s.mapAt a).assigned) (leaveDown a (runBegun s))

theorem startDowned_startsOne (map : MapLaw s) (law : CommandLaw s) :
    StartsOne s a none (startDowned a s) (.down a (s.mapAt a).assigned) :=
  (leaveDown_retests (s := runBegun s) _).startsOne map law (fun _ e => by cases e) fun _ _ e => by cases e

theorem startDowned_tests (map : MapLaw s) (bad : ¬ s.usable a) (others : ∀ b, b ≠ a → s.usable b)
    (stuck : (s.mapAt a).frozen = true ∨ (s.mapAt a).spare = none ∨
      ∃ sp, (s.mapAt a).spare = some sp ∧ ((s.chan sp).fault ≠ none ∨ ∃ b, (s.mapAt b).assigned = some sp)) :
    allActuators.foldl testActuator ⟨runBegun s, 0, 0⟩ = ⟨startDowned a s, 0, 1⟩ := by
  have none : (runBegun s).usableSpare a = none := by
    refine usableSpare_none (s := runBegun s) (stuck.imp_right (.imp_right fun ⟨sp, spare, why⟩ => ⟨sp, spare, ?_⟩))
    refine why.imp id fun ⟨b, taken⟩ => ?_
    rw [assignee_some (s := runBegun s) taken fun d hd => map.assignedOnce d b sp hd taken]
    simp
  rw [tests_one (s := runBegun s) others, testActuator_downs (s := runBegun s) bad none]
  rfl

theorem startDowned_lane (h : StartsOne s a none (startDowned a s) (.down a (s.mapAt a).assigned)) :
    (lanesStarted (startDowned a s)).lane a = { s.lane a with
      state := .down, gov := none, maskHold := false, guardHold := false, command := none, interval := none
      detector := .idle } :=
  h.begins.down_lane h.retested.map.self

theorem startDowned_travel (h : StartsOne s a none (startDowned a s) (.down a (s.mapAt a).assigned))
    (others : ∀ b, b ≠ a → s.usable b) :
    (lanesStarted (startDowned a s)).travel = if a = gate then .cleared else .running 0 := by
  by_cases onGate : a = gate
  · subst onGate
    rw [if_pos rfl, h.begins.lanes.travel, h.retested.map.self]
    rfl
  · rw [if_neg onGate]
    exact h.gate_other onGate (others gate (Ne.symm onGate))

end

/-! ### The obligation -/

/-- Settles O50. -/
theorem startTakesThePartIntoRun : Obligations.StartTakesThePartIntoRun := by
  intro tag s setup law map commands r starts usable empty started
  refine ⟨fun ok none => ?all, fun a bad others none => ⟨fun sp thawed spare good free => ?moves, fun stuck => ?downs⟩,
    fun ok unknown => ?unknown,
    fun d e x ok depth entry begun before apart out => ⟨fun fits _ => ?spawns, fun misfits => ?skips⟩,
    fun d a e x bad others spareless depth entry same begun before out => ?lost⟩
  case all =>
    have begins := begins_all map commands
    obtain ⟨same, counts⟩ := begins.empty none
    exact ⟨_, exec_start_all tag setup ok same begins.mode counts, start_all map commands ok⟩
  case moves =>
    have one := startMoved_startsOne map commands spare free
    have free' : ∀ b c, some sp = some c → (s.mapAt b).assigned ≠ some c := fun b c e => by
      cases e
      exact free b
    obtain ⟨same, counts⟩ := one.begins.empty none
    refine ⟨_, exec_start tag setup (startMoved_tests bad others thawed spare good free) same one.begins.mode counts,
      one.mapAt, one.released map free', one.others map free', fun c assigned => ?_, startMoved_first one, ?_, one.frame⟩
    · refine startMoved_spare one assigned ?_
      rintro rfl
      exact free a assigned
    · by_cases onGate : a = gate
      · subst onGate
        exact travel_runs one.begins.lanes ⟨sp, one.retested.map.self⟩
      · exact one.gate_other onGate (others gate (Ne.symm onGate))
  case downs =>
    have one := startDowned_startsOne (a := a) map commands
    have free' : ∀ b c, (Option.none : Option Chan) = some c → (s.mapAt b).assigned ≠ some c := fun _ _ e => by cases e
    obtain ⟨same, counts⟩ := one.begins.empty none
    exact ⟨_, exec_start tag setup (startDowned_tests map bad others stuck) same one.begins.mode counts, one.mapAt,
      one.released map free', one.others map free', startDowned_lane one, startDowned_travel one others, one.frame⟩
  case unknown =>
    have begins := begins_all map commands
    obtain ⟨slots, entries, counts⟩ := begins.unknown unknown
    exact ⟨_, exec_start_all tag setup ok rfl begins.evaluated_mode counts, slots, entries⟩
  case spawns =>
    have begins := begins_all map commands
    have one : OneInBand s d e x := ⟨depth, entry, begun, before, out⟩
    obtain ⟨c, assigned, -⟩ := ok x.actuator
    obtain ⟨k, onGate, -⟩ := ok gate
    obtain ⟨rest, lo, hi⟩ := begins.rest (u := runBegun s) assigned
    obtain ⟨gateRest, -⟩ := begins.rest (u := runBegun s) onGate
    obtain ⟨t, p, same, evaluated, here, counts, live, as, queue⟩ := begins.spawns one (begins.free law setup) rest
      (by rw [gateRest]; simp) apart (by unfold targetOk; rw [lo, hi]; exact fits)
    refine ⟨t, p, exec_start_all tag setup ok same (same ▸ begins.evaluated_mode) counts,
      fun y z other hz order => begins.others evaluated other hz order, here, live, as.state, as.cls, as.actuator, as.target,
      as.ramp, as.completion, as.prereq, as.guards, as.lease, as.tethered, as.planEntry, as.template,
      queue.trans begins.lanes.queue⟩
  case skips =>
    have begins := begins_all map commands
    have one : OneInBand s d e x := ⟨depth, entry, begun, before, out⟩
    obtain ⟨c, assigned, -⟩ := ok x.actuator
    obtain ⟨rest, lo, hi⟩ := begins.rest (u := runBegun s) assigned
    obtain ⟨t, same, evaluated, here, counts, -, slots, queue⟩ := begins.skips one (f := .limits) fun p lanes => by
      have lane := lane_of_lanes lanes x.actuator
      have misses : targetOk p x.actuator x.target = false := by
        unfold targetOk
        rw [lane, lo, hi]
        exact misfits
      simp [State.spawnFailure, lane, rest, misses]
    refine ⟨t, exec_start_all tag setup ok same (same ▸ begins.evaluated_mode) counts,
      fun y z other hz order => begins.others evaluated other hz order, here, slots.trans begins.slots, fun room => ?_⟩
    have count : (lanesStarted (runBegun s)).noticeCount = s.noticeCount := by
      rw [State.noticeCount, begins.lanes.queue]
      rfl
    rw [queue (by rw [count]; exact room), begins.lanes.queue]
    rfl
  case lost =>
    have one' := startDowned_startsOne (a := a) map commands
    have one : OneInBand s d e x := ⟨depth, entry, begun, before, out⟩
    have lane := startDowned_lane one'
    obtain ⟨t, sameBank, evaluated, here, counts, lanes, -, queue⟩ := one'.begins.skips one (f := .down) fun p kept => by
      have down : (p.lane x.actuator).state = .down := by rw [lane_of_lanes kept, same, lane]
      simp [State.spawnFailure, down]
    refine ⟨t, exec_start tag setup (startDowned_tests map bad others (.inr (.inl spareless))) sameBank
      (sameBank ▸ one'.begins.evaluated_mode) counts, here, by rw [lane_of_lanes lanes, lane], fun room => ?_⟩
    obtain ⟨queued, count⟩ := one'.begins.room (by simp only [List.length_singleton]; omega)
    rw [queue (by rw [count]; simp only [List.length_singleton]; omega), queued, same]
    simp

end Sys2Proof.Machine
end

section
/-! Commands a lane may have: within its limits, and on a wheel lane within the creep limit of an engaged interlock (R55,
R67 to R69). -/

namespace Sys2Proof.Machine

/-- The lane of `a` may have the command `v` (R55, R68). -/
structure State.Allows (s : State) (a : Actuator) (v : Int) : Prop where
  lower : toCommand a (s.lane a).lo ≤ v
  upper : v ≤ toCommand a (s.lane a).hi
  creep : s.creepClamp a v = v

theorem CommandLaw.allowed {s : State} (law : CommandLaw s) {a : Actuator} {v : Int}
    (command : (s.lane a).command = some v) : s.Allows a v :=
  ⟨(law.commands a v command).1, (law.commands a v command).2, law.clamped a v command⟩

/-! ### The creep limit -/

/-- The creep limit is in force on the lane of `a` at `k` fiftieths. -/
def State.creeps (s : State) (a : Actuator) (k : Int) : Prop :=
  ∃ w, wheel? a = some w ∧ (s.interlock w).engaged = true ∧ k = 50 * (s.interlock w).creep

theorem creepClamp_creeps {s : State} {a : Actuator} {k : Int} (creeps : s.creeps a k) (v : Int) :
    s.creepClamp a v = clamp (-k) k v := by
  obtain ⟨w, wheel, engaged, rfl⟩ := creeps
  simp only [State.creepClamp, wheel, engaged, if_true]

theorem creepClamp_free {s : State} {a : Actuator} (free : ∀ k, ¬ s.creeps a k) (v : Int) : s.creepClamp a v = v := by
  unfold State.creepClamp
  split
  · next w wheel =>
    exact if_neg fun engaged => free _ ⟨w, wheel, engaged, rfl⟩
  · rfl

theorem clamp_eq_self_iff {k v : Int} (pos : 0 ≤ k) : clamp (-k) k v = v ↔ -k ≤ v ∧ v ≤ k := by
  rw [clamp_eq v (by omega)]
  omega

theorem kindOf_wheel {a : Actuator} {w : Fin 2} (wheel : wheel? a = some w) : kindOf a = .wheel := by
  unfold wheel? at wheel
  split at wheel
  · next h => exact if_pos h
  · cases wheel

theorem wheel?_gate : wheel? gate = none := rfl

theorem wheel?_wheelActuator (w : Fin 2) : wheel? (wheelActuator w) = some w :=
  dif_pos w.isLt

theorem wheel?_some {a : Actuator} {w : Fin 2} (wheel : wheel? a = some w) : a = wheelActuator w := by
  unfold wheel? at wheel
  split at wheel
  · cases wheel; rfl
  · cases wheel

theorem wheelActuator_ne_gate (w : Fin 2) : wheelActuator w ≠ gate := by revert w; decide

/-- The creep limit is 0 or more, and is on a lane whose limits have 0 between them. -/
theorem CommandLaw.creeps {s : State} (law : CommandLaw s) {a : Actuator} {k : Int} (creeps : s.creeps a k) :
    0 ≤ k ∧ toCommand a (s.lane a).lo ≤ 0 ∧ 0 ≤ toCommand a (s.lane a).hi := by
  obtain ⟨w, wheel, -, rfl⟩ := creeps
  have creep := law.creep w
  have allowed := law.limits a
  have kind := kindOf_wheel wheel
  simp only [limitsAllowed, kind, Bool.and_eq_true, Bool.not_eq_true', decide_true, Bool.true_and, Bool.or_eq_false_iff,
    decide_eq_false_iff_not] at allowed
  simp only [toCommand, kind, reduceCtorEq, if_false]
  omega

/-! ### Commands allowed -/

theorem toCommand_mono (a : Actuator) {u v : Int} (le : u ≤ v) : toCommand a u ≤ toCommand a v := by
  unfold toCommand
  split <;> omega

section
variable {s : State} {a : Actuator} (law : CommandLaw s)
include law

/-- A command within the limits, cut to the creep limit. -/
theorem CommandLaw.cut {v : Int} (lower : toCommand a (s.lane a).lo ≤ v) (upper : v ≤ toCommand a (s.lane a).hi) :
    s.Allows a (s.creepClamp a v) := by
  by_cases creeping : ∃ k, s.creeps a k
  · obtain ⟨k, creeps⟩ := creeping
    obtain ⟨pos, below, above⟩ := law.creeps creeps
    have clamped := creepClamp_creeps creeps
    refine ⟨?_, ?_, ?_⟩ <;> simp only [clamped, clamp_eq _ (show -k ≤ k by omega)] <;> omega
  · have same := creepClamp_free fun k creeps => creeping ⟨k, creeps⟩
    rw [same]
    exact ⟨lower, upper, same v⟩

/-- A command between two allowed ones (R57). -/
theorem CommandLaw.between {u v x : Int} (hu : s.Allows a u) (hv : s.Allows a v) (lower : min u v ≤ x)
    (upper : x ≤ max u v) : s.Allows a x := by
  obtain ⟨u1, u2, u3⟩ := hu
  obtain ⟨v1, v2, v3⟩ := hv
  refine ⟨by omega, by omega, ?_⟩
  by_cases creeping : ∃ k, s.creeps a k
  · obtain ⟨k, creeps⟩ := creeping
    obtain ⟨pos, -⟩ := law.creeps creeps
    rw [creepClamp_creeps creeps, clamp_eq_self_iff pos] at u3 v3 ⊢
    omega
  · exact creepClamp_free (fun k creeps => creeping ⟨k, creeps⟩) x

/-- A target within the limits, as a command (R56, R68). -/
theorem CommandLaw.aims {t : Int} (fits : targetOk s a t = true) : s.Allows a (s.creepClamp a (toCommand a t)) := by
  simp only [targetOk, inRange, Bool.and_eq_true, decide_eq_true_eq] at fits
  exact law.cut (toCommand_mono a fits.1) (toCommand_mono a fits.2)

omit law in
theorem creepClamp_gate (s : State) (v : Int) : s.creepClamp gate v = v := by
  simp only [State.creepClamp, wheel?_gate]

/-- A target the GATE may have is a command it may have. -/
theorem CommandLaw.gateAims {t : Int} (fits : targetOk s gate t = true) : s.Allows gate t := by
  have := law.aims fits
  rwa [creepClamp_gate] at this

/-- The rest aim is within the limits (R56). -/
theorem CommandLaw.restAim_ok : targetOk s a (restAim (s.lane a)) = true := by
  have allowed := law.limits a
  simp only [targetOk, inRange, restAim_eq, Bool.and_eq_true, decide_eq_true_eq]
  simp only [limitsAllowed, inRange, fullRange, Bool.and_eq_true, decide_eq_true_eq, Bool.not_eq_true'] at allowed
  cases kind : kindOf a <;> simp only [kind] at allowed <;> simp at allowed <;> omega

theorem CommandLaw.gateRests : s.Allows gate 0 := by
  have fits := law.restAim_ok (a := gate)
  have allowed := law.limits gate
  refine law.gateAims ?_
  simp only [targetOk, inRange, Bool.and_eq_true, decide_eq_true_eq]
  simp [limitsAllowed, inRange, fullRange, show kindOf gate = .gate from rfl] at allowed
  omega

/-- The initial command of a lane (R59). -/
theorem CommandLaw.starts : s.Allows a (s.initialCommand a) := by
  have ordered := limits_ordered (law.limits a)
  unfold State.initialCommand
  split
  · next none =>
    rw [(feedback_gate_iff a).1 none]
    exact law.gateRests
  · split
    · next v _ _ =>
      refine law.aims ?_
      simp only [targetOk, inRange, clamp_eq v ordered, Bool.and_eq_true, decide_eq_true_eq]
      omega
    · exact law.aims law.restAim_ok

end

end Sys2Proof.Machine
end

section
/-! The limits, the targets and the commands through the order engine (R55, R60): a resolution, a retirement, a settle. -/

namespace Sys2Proof.Machine

section
variable {s t : State}

/-! ### What the laws rest on -/

/-- The law holds where limits and interlocks stand, every target is one of before, and every new command is allowed. -/
theorem CommandLaw.framed (law : CommandLaw s) (limits : ∀ a, (t.lane a).lo = (s.lane a).lo ∧ (t.lane a).hi = (s.lane a).hi)
    (interlocks : t.interlocks = s.interlocks)
    (targets : ∀ i p, t.orderAt i = some p → targetOk s p.actuator p.target = true)
    (commands : ∀ a v, (t.lane a).command = some v → (s.lane a).command = some v ∨ s.Allows a v) : CommandLaw t := by
  have interlock : ∀ w, t.interlock w = s.interlock w := fun w => by rw [State.interlock, interlocks]; rfl
  have allowed : ∀ a v, (t.lane a).command = some v → s.Allows a v := fun a v command =>
    (commands a v command).elim law.allowed id
  refine ⟨fun a => ?_, fun w => ?_, fun i p live => ?_, fun a v command => ?_, fun a v command => ?_⟩
  · rw [(limits a).1, (limits a).2]; exact law.limits a
  · rw [interlock]; exact law.creep w
  · have fits := targets i p live
    rw [targetOk] at fits ⊢
    rwa [(limits _).1, (limits _).2]
  · rw [(limits a).1, (limits a).2]
    exact ⟨(allowed a v command).lower, (allowed a v command).upper⟩
  · have same := (allowed a v command).creep
    simpa only [State.creepClamp, interlock] using same

theorem EngineFrame.limits (frame : EngineFrame s t) (a : Actuator) :
    (t.lane a).lo = (s.lane a).lo ∧ (t.lane a).hi = (s.lane a).hi := by
  obtain ⟨-, -, -, -, lo, hi, -⟩ := frame.tables.lanes a
  exact ⟨lo, hi⟩

/-- The law through an operation of the engine: a command that is new is one its lane is allowed. -/
theorem CommandLaw.engine (law : CommandLaw s) (frame : EngineFrame s t)
    (commands : ∀ a v, (t.lane a).command = some v → (s.lane a).command = some v ∨ s.Allows a v) : CommandLaw t := by
  refine law.framed frame.limits frame.interlocks (fun i p live => ?_) commands
  obtain ⟨o, before, ⟨-, actuator, target, -⟩, -⟩ := frame.orders i p live
  rw [actuator, target]
  exact law.targets i o before

/-- The GATE's law where its lane keeps its state and its command and loses its governing order at most. -/
theorem GateLaw.framed (law : GateLaw s) (state : (t.lane gate).state = (s.lane gate).state)
    (command : (t.lane gate).command = (s.lane gate).command)
    (gov : ∀ h, (t.lane gate).gov = some h → (s.lane gate).gov = some h) (orders : OrdersKept s t) : GateLaw t where
  rest resting := command.trans (law.rest (state.symm.trans resting))
  driven h p driving governs live := by
    obtain ⟨o, before, -, -, target, -⟩ := orders.reached live
    rw [command, target]
    exact law.driven h o (state.symm.trans driving) (gov h governs) before

/-! ### Resolution -/

theorem demote_command (a b : Actuator) (s : State) : ((demote a s).lane b).command = (s.lane b).command := by
  unfold demote
  split
  · rw [lane_updLane]
    split
    · next same => subst same; rw [updOrder_lane]
    · rw [updOrder_lane]
  · rfl

theorem promote_command (a b : Actuator) (h : Handle) (s : State) :
    ((promote a h s).lane b).command = (s.lane b).command := by
  rw [promote, lane_updLane]
  split
  · next same => subst same; rw [updOrder_lane]
  · rw [updOrder_lane]

/-- The choice of the governing order moves no command (R58). -/
theorem resolveChoice_command (a b : Actuator) (s : State) :
    ((resolveChoice a (resolveYield a s)).lane b).command = (s.lane b).command := by
  have yielded : ((resolveYield a s).lane b).command = (s.lane b).command := by
    unfold resolveYield
    split
    · split
      · exact demote_command a b s
      · rfl
    · rfl
  unfold resolveChoice
  split
  · rw [promote_command, yielded]
  · split
    · rw [promote_command, demote_command, yielded]
    · exact yielded
  · exact yielded

/-- A lane that takes its holds keeps its command, but the GATE steps to its aim (R60). -/
theorem takeHolds_command {a b : Actuator} {s : State} {v : Int} (command : ((takeHolds a s).lane b).command = some v) :
    (s.lane b).command = some v ∨
      (b = a ∧ a = gate ∧ (v = 0 ∨ ∃ h o, s.governing a = some (h, o) ∧ v = o.target)) := by
  by_cases same : b = a
  · subst same
    cases gov : s.governing b with
    | none =>
      rw [takeHolds_rests gov] at command
      dsimp only at command
      split at command
      · next onGate => exact .inr ⟨rfl, onGate, .inl (Option.some.inj command).symm⟩
      · exact .inl command
    | some p =>
      obtain ⟨h, o⟩ := p
      cases held : (s.lane b).masked o.cls || o.frozen with
      | true =>
        rw [takeHolds_holds gov held, lane_updLane, if_pos rfl, updOrder_lane] at command
        exact .inl command
      | false =>
        rw [takeHolds_drives gov held] at command
        dsimp only at command
        split at command
        · next onGate => exact .inr ⟨rfl, onGate, .inr ⟨h, o, rfl, (Option.some.inj command).symm⟩⟩
        · exact .inl command
  · rw [(takeHolds_resolves a s).lanes b same] at command
    exact .inl command

theorem CommandLaw.takeHolds (law : CommandLaw s) (own : NamesOwn s) (a : Actuator) : CommandLaw (takeHolds a s) := by
  refine law.engine (takeHolds_frame a s) fun b v command => ?_
  rcases takeHolds_command command with same | ⟨rfl, onGate, rfl | ⟨h, o, gov, rfl⟩⟩
  · exact .inl same
  · exact .inr (onGate ▸ law.gateRests)
  · obtain ⟨names, live⟩ := governing_eq_some.1 gov
    have fits := law.targets _ o (orderAt_of_order? live)
    rw [own b h o (.inl names) live, onGate] at fits
    exact .inr (onGate ▸ law.gateAims fits)

/-- The GATE that takes its holds stands at its aim (R60). -/
theorem gateLaw_takeHolds (s : State) : GateLaw (takeHolds gate s) := by
  cases gov : s.governing gate with
  | none =>
    have lane := takeHolds_rests gov
    refine ⟨fun _ => by rw [lane]; rfl, fun h o driving => ?_⟩
    rw [lane] at driving
    cases driving
  | some p =>
    obtain ⟨h, o⟩ := p
    cases held : (s.lane gate).masked o.cls || o.frozen with
    | true =>
      have state : ((takeHolds gate s).lane gate).state = .held := by
        rw [takeHolds_holds gov held, lane_updLane, if_pos rfl]
      exact ⟨fun resting => (by rw [state] at resting; cases resting), fun k p driving => by rw [state] at driving; cases driving⟩
    | false =>
      have lane := takeHolds_drives gov held
      obtain ⟨names, live⟩ := governing_eq_some.1 gov
      refine ⟨fun resting => (by rw [lane] at resting; cases resting), fun k p _ governs there => ?_⟩
      obtain ⟨q, before, -, -, target, -⟩ := (takeHolds_frame gate s).orders.reached there
      have same : k = h := by
        have := takeHolds_gov gate s governs
        rw [names] at this
        exact (Option.some.inj this).symm
      subst same
      rw [live] at before
      cases before
      rw [lane, target]
      rfl

theorem GateLaw.takeHolds (law : GateLaw s) (a : Actuator) : GateLaw (takeHolds a s) := by
  by_cases onGate : a = gate
  · subst onGate; exact gateLaw_takeHolds s
  · have lane := (takeHolds_resolves a s).lanes gate (Ne.symm onGate)
    exact law.framed (by rw [lane]) (by rw [lane]) (fun h => by rw [lane]; exact id) (takeHolds_frame a s).orders

theorem CommandLaw.resolve (law : CommandLaw s) (own : NamesOwn s) (a : Actuator) : CommandLaw (resolve a s) := by
  by_cases still : (s.lane a).state = .off ∨ (s.lane a).state = .down
  · rwa [resolve_still still]
  · have frame := (resolveYield_frame a s).trans (resolveChoice_frame a _)
    have names : ∀ b k, (resolveChoice a (resolveYield a s)).names b k → s.names b k := fun b k n =>
      (resolveYield_resolves a s).names (fun _ h => .inl (resolveYield_gov a s h)) b k
        ((resolveChoice_resolves a _).names (fun _ h => resolveChoice_gov a _ h) b k n)
    rw [resolve_acts still]
    exact (law.engine frame fun b v command => .inl (by rwa [resolveChoice_command] at command)).takeHolds
      (own.mono frame.orders names) a

theorem GateLaw.resolve (law : GateLaw s) (a : Actuator) : GateLaw (resolve a s) := by
  by_cases onGate : a = gate
  · subst onGate
    by_cases still : (s.lane gate).state = .off ∨ (s.lane gate).state = .down
    · rwa [resolve_still still]
    · rw [resolve_acts still]; exact gateLaw_takeHolds _
  · have lane := (resolve_resolves a s).lanes gate (Ne.symm onGate)
    exact law.framed (by rw [lane]) (by rw [lane]) (fun h => by rw [lane]; exact id) (resolve_frame a s).orders

/-! ### Retirement -/

theorem CommandLaw.lanes (law : CommandLaw s) (frame : EngineFrame s t) (lanes : ∀ a, t.lane a = s.lane a) : CommandLaw t :=
  law.engine frame fun a v command => .inl (by rwa [lanes] at command)

theorem GateLaw.lanes (law : GateLaw s) (lanes : ∀ a, t.lane a = s.lane a) (orders : OrdersKept s t) : GateLaw t :=
  law.framed (by rw [lanes]) (by rw [lanes]) (fun h => by rw [lanes]; exact id) orders

theorem leaveLane_frame (lane : Bool) (o : Order) (h : Handle) (s : State) : EngineFrame s (leaveLane lane o h s) := by
  unfold leaveLane
  split
  · exact (dropFromLane_frame _ _ _ s).trans (resolve_frame _ _)
  · exact dropFromLane_frame _ _ _ s

theorem CommandLaw.leaveLane (law : CommandLaw s) (own : NamesOwn s) (lane : Bool) (o : Order) (h : Handle) :
    CommandLaw (leaveLane lane o h s) := by
  have drop := dropFromLane_frame o.actuator o.cls h s
  have dropped := law.engine drop fun a v command =>
    .inl (by rwa [(dropFromLane_shrinks o.actuator o.cls h s).command] at command)
  unfold Machine.leaveLane
  split
  · exact dropped.resolve (own.mono drop.orders (dropFromLane_names _ _ _ s)) _
  · exact dropped

theorem GateLaw.leaveLane (law : GateLaw s) (lane : Bool) (o : Order) (h : Handle) : GateLaw (leaveLane lane o h s) := by
  have shrinks := dropFromLane_shrinks o.actuator o.cls h s
  have dropped := law.framed (shrinks.state gate) (shrinks.command gate) (shrinks.gov gate)
    (dropFromLane_frame o.actuator o.cls h s).orders
  unfold Machine.leaveLane
  split
  · exact dropped.resolve _
  · exact dropped

theorem freeSlot_orders (o : Order) (i : Slot) (h : Handle) (c : Cause) (s : State) : OrdersKept s (freeSlot o i h c s) := by
  intro j p there
  rw [State.orderAt, freeSlot_slot] at there
  split at there
  · cases there
  · next apart => exact ⟨p, there, p.kept_refl, by rw [freeSlot_slot, if_neg apart]⟩

theorem CommandLaw.retireOne (law : CommandLaw s) (own : NamesOwn s) (lane : Bool) (i : Slot) (c : Cause) :
    CommandLaw (retireOne lane i c s) := by
  cases live : s.orderAt i with
  | none => rwa [retireOne_dead live]
  | some o =>
    have interlocks := (retireOne_frame lane i c s).interlocks.trans (leaveLane_frame lane o (s.handleAt i) s).interlocks.symm
    rw [retireOne_live live] at interlocks ⊢
    have lanes := lane_of_lanes (freeSlot_leaves o i (s.handleAt i) c (Machine.leaveLane lane o (s.handleAt i) s)).2.1
    refine (law.leaveLane own lane o (s.handleAt i)).framed (fun a => by simp only [lanes, and_self]) interlocks
      (fun j p there => ?_) (fun a v command => .inl (by rwa [lanes] at command))
    obtain ⟨q, before, ⟨-, actuator, target, -⟩, -⟩ := freeSlot_orders _ _ _ _ _ j p there
    rw [actuator, target]
    exact (law.leaveLane own lane o (s.handleAt i)).targets j q before

theorem GateLaw.retireOne (law : GateLaw s) (lane : Bool) (i : Slot) (c : Cause) : GateLaw (retireOne lane i c s) := by
  cases live : s.orderAt i with
  | none => rwa [retireOne_dead live]
  | some o =>
    rw [retireOne_live live]
    exact (law.leaveLane lane o (s.handleAt i)).lanes (lane_of_lanes (freeSlot_leaves _ _ _ _ _).2.1) (freeSlot_orders _ _ _ _ _)

/-! ### The engine whole -/

/-- The limits, the targets and the commands stand, and every lane names its own orders. -/
structure Ruled (s : State) : Prop where
  own : NamesOwn s
  commands : CommandLaw s

theorem Ruled.lanes (h : Ruled s) (frame : EngineFrame s t) (lanes : ∀ a, t.lane a = s.lane a) : Ruled t where
  own := h.own.mono frame.orders fun a _ => (names_of_lane (lanes a)).1
  commands := h.commands.lanes frame lanes

theorem Ruled.resolve (h : Ruled s) (a : Actuator) : Ruled (resolve a s) where
  own := h.own.mono (resolve_frame a s).orders (resolve_names a s)
  commands := h.commands.resolve h.own a

theorem Ruled.retireOne (h : Ruled s) (lane : Bool) (i : Slot) (c : Cause) : Ruled (retireOne lane i c s) where
  own := h.own.mono (retireOne_frame lane i c s).orders (retireOne_names lane i c s)
  commands := h.commands.retireOne h.own lane i c

theorem setCond_lane (h : Handle) (g : Nat) (c : Cond) (s : State) (a : Actuator) : (setCond h g c s).lane a = s.lane a :=
  updOrder_lane s h.slot _ a

theorem readied_lane (i : Slot) (s : State) (a : Actuator) : (readied i s).lane a = s.lane a := updOrder_lane s i _ a

theorem ruled_engine : EngineKeeps Ruled (fun _ => True) (fun _ => True) where
  resolved h _ _ := h.resolve _
  lose h _ _ := h.retireOne _ _ _
  cond g c h _ := h.lanes (setCond_frame _ g c _) (setCond_lane _ g c _)
  trip h _ _ _ _ _ _ := h.retireOne _ _ _
  ready h _ _ := h.lanes (readied_frame _ _) (readied_lane _ _)
  waits _ _ _ := trivial
  settles _ _ := trivial
  settled h _ := h.lanes (settled_frame _ _) (settled_lane _ _)
  complete h _ _ _ _ := h.retireOne _ _ _

theorem gateLaw_engine : EngineKeeps GateLaw (fun _ => True) (fun _ => True) where
  resolved h _ _ := h.resolve _
  lose h _ _ := h.retireOne _ _ _
  cond g c h _ := h.lanes (setCond_lane _ g c _) (setCond_frame _ g c _).orders
  trip h _ _ _ _ _ _ := h.retireOne _ _ _
  ready h _ _ := h.lanes (readied_lane _ _) (readied_frame _ _).orders
  waits _ _ _ := trivial
  settles _ _ := trivial
  settled h _ := h.lanes (settled_lane _ _) (settled_frame _ _).orders
  complete h _ _ _ _ := h.retireOne _ _ _

theorem Ruled.retireCore (h : Ruled s) (lane : Bool) (i : Slot) (c : Cause) : Ruled (retireCore lane i c s) :=
  ruled_engine.retireCore h fun _ _ => h.retireOne lane i c

theorem GateLaw.retireCore (law : GateLaw s) (lane : Bool) (i : Slot) (c : Cause) : GateLaw (retireCore lane i c s) :=
  gateLaw_engine.retireCore law fun _ _ => law.retireOne lane i c

end

end Sys2Proof.Machine
end

section
/-! The limits, the targets and the commands through the operations of the lanes (R55 to R71). -/

namespace Sys2Proof.Machine

/-! ### Keeping both laws -/

/-- A chain of acts that keeps the law of the commands and the law of the GATE, where orders and lanes agree. -/
structure Obeys (s t : State) : Prop where
  runs : Runs s t
  laws : LanesAgree s → (CommandLaw s → CommandLaw t) ∧ (GateLaw s → GateLaw t)

/-- Such a chain that ends in the mode it began in. -/
structure Tame (s t : State) : Prop extends Obeys s t where
  mode : t.mode = s.mode

theorem Runs.agree {s t : State} (h : Runs s t) (agree : LanesAgree s) : LanesAgree t :=
  Relation.ReflTransGen.rec agree (fun _ act ih => act.lanesAgree ih) h

theorem LanesAgree.law {s : State} (agree : LanesAgree s) : LaneLaw s := laneLaw_iff.2 agree.2

theorem Obeys.refl (s : State) : Obeys s s := ⟨.refl s, fun _ => ⟨id, id⟩⟩

theorem Obeys.trans {s t u : State} (h : Obeys s t) (k : Obeys t u) : Obeys s u where
  runs := h.runs.trans k.runs
  laws agree :=
    have first := h.laws agree
    have second := k.laws (h.runs.agree agree)
    ⟨second.1 ∘ first.1, second.2 ∘ first.2⟩

theorem Tame.refl (s : State) : Tame s s := ⟨.refl s, rfl⟩

theorem Tame.trans {s t u : State} (h : Tame s t) (k : Tame t u) : Tame s u :=
  ⟨h.toObeys.trans k.toObeys, k.mode.trans h.mode⟩

theorem Tame.foldl {α : Type} {f : State → α → State} (hf : ∀ s x, Tame s (f s x)) (l : List α) (s : State) :
    Tame s (l.foldl f s) :=
  List.foldlRecOn l f (Tame.refl s) fun _ h x _ => h.trans (hf _ x)

theorem RunsOn.tame {s t : State} (h : RunsOn s t)
    (laws : LanesAgree s → (CommandLaw s → CommandLaw t) ∧ (GateLaw s → GateLaw t)) : Tame s t := ⟨⟨h.runs, laws⟩, h.mode⟩

section
variable {s t : State}

/-! ### What moves no command -/

/-- Limits, interlocks, targets and commands stay. -/
structure Unmoved (s t : State) : Prop where
  commands : ∀ a, (t.lane a).command = (s.lane a).command
  limits : ∀ a, (t.lane a).lo = (s.lane a).lo ∧ (t.lane a).hi = (s.lane a).hi
  interlocks : t.interlocks = s.interlocks
  targets : ∀ i p, t.orderAt i = some p → ∃ o, s.orderAt i = some o ∧ p.actuator = o.actuator ∧ p.target = o.target

theorem Unmoved.of_tables (lanes : t.lanes = s.lanes) (slots : t.slots = s.slots) (interlocks : t.interlocks = s.interlocks) :
    Unmoved s t where
  commands a := by rw [lane_of_lanes lanes]
  limits a := by rw [lane_of_lanes lanes]; exact ⟨rfl, rfl⟩
  interlocks := interlocks
  targets i p live := ⟨p, by rwa [State.orderAt, slot_of_slots slots] at live, rfl, rfl⟩

theorem EngineFrame.unmoved (frame : EngineFrame s t) (commands : ∀ a, (t.lane a).command = (s.lane a).command) :
    Unmoved s t where
  commands := commands
  limits := frame.limits
  interlocks := frame.interlocks
  targets i p live := by
    obtain ⟨o, before, ⟨-, actuator, target, -⟩, -⟩ := frame.orders i p live
    exact ⟨o, before, actuator, target⟩

theorem CommandLaw.unmoved (law : CommandLaw s) (h : Unmoved s t) : CommandLaw t := by
  refine law.framed h.limits h.interlocks (fun i p live => ?_) fun a v command => .inl (by rwa [h.commands] at command)
  obtain ⟨o, before, actuator, target⟩ := h.targets i p live
  rw [actuator, target]
  exact law.targets i o before

theorem GateLaw.unmoved (law : GateLaw s) (stands : Stands s t) (h : Unmoved s t) : GateLaw t where
  rest resting := (h.commands gate).trans (law.rest ((stands.lanes gate).state.symm.trans resting))
  driven k p driving governs live := by
    have own := order?_eq_some live
    obtain ⟨o, before, -, target⟩ := h.targets _ p own.2
    rw [h.commands, target]
    exact law.driven k o ((stands.lanes gate).state.symm.trans driving) ((stands.lanes gate).gov.symm.trans governs)
      (order?_of_orderAt ((stands.slots.handleAt _).symm.trans own.1) before)

theorem Stands.tame (stands : Stands s t) (h : Unmoved s t) : Tame s t :=
  stands.runsOn.tame fun _ => ⟨fun law => law.unmoved h, fun law => law.unmoved stands h⟩

/-- A change outside the lanes, the orders and the interlocks. -/
theorem Stands.aside (stands : Stands s t) (lanes : t.lanes = s.lanes) (slots : t.slots = s.slots)
    (interlocks : t.interlocks = s.interlocks) : Tame s t := stands.tame (.of_tables lanes slots interlocks)

/-- A change of the detectors, the settled fields or the guards' conditions. -/
theorem Stands.quiet (stands : Stands s t) (frame : EngineFrame s t)
    (commands : ∀ a, (t.lane a).command = (s.lane a).command) : Tame s t := stands.tame (frame.unmoved commands)

theorem setCond_tame (h : Handle) (g : Nat) (c : Cond) (s : State) : Tame s (setCond h g c s) :=
  (setCond_stands h g c s).quiet (setCond_frame h g c s) fun a => by rw [setCond_lane]

theorem clearSettled_lane (a b : Actuator) (s : State) : (clearSettled a s).lane b = s.lane b := by
  unfold clearSettled
  split
  · rw [updOrder_lane]
  · rfl

theorem setDetector_command (a b : Actuator) (d : Detector) (s : State) :
    ((setDetector a d s).lane b).command = (s.lane b).command := by
  rw [setDetector, lane_updLane]
  split
  · next same => rw [same]
  · rfl

theorem restartDetector_command (a b : Actuator) (s : State) :
    ((restartDetector a s).lane b).command = (s.lane b).command := by
  rw [restartDetector, setDetector_command, clearSettled_lane]

theorem restartDetector_tame (a : Actuator) (s : State) : Tame s (restartDetector a s) :=
  (restartDetector_stands a s).quiet (restartDetector_frame a s) fun b => restartDetector_command a b s

theorem setDetector_tame {a : Actuator} {d : Detector} {s : State} (h : (s.lane a).state ≠ .off ∨ d = .idle) :
    Tame s (setDetector a d s) :=
  (setDetector_stands h).quiet (setDetector_frame a d s) fun b => setDetector_command a b d s

theorem queueNotice_tame (g : Origin) (n : Notice) (s : State) : Tame s (queueNotice g n s) :=
  (queueNotice_stands g n s).aside (by simp) (by simp) (by simp)

theorem setEntryState_tame {b : BankIx} {e : EntryIx} {x : EntryState} (asleep : s.mode = .run ∨ x = .dormant) :
    Tame s (s.setEntryState b e x) :=
  (setEntryState_stands asleep).aside (by simp) (by simp) (by simp)

theorem setModule_tame (s : State) (m : Module) (x : ModuleState) : Tame s (s.setModule m x) :=
  (setModule_stands s m x).aside rfl rfl rfl

theorem setDirect_tame (s : State) (p : DirectPoint) (x : DirectState) : Tame s (s.setDirect p x) :=
  (setDirect_stands s p x).aside rfl rfl rfl

theorem setReadings_tame (m : Module) (vs : List Int) (s : State) : Tame s (setReadings m vs s) :=
  Tame.foldl (f := fun (s : State) (kv : Fin 5 × Int) => s.setModValue kv.1 kv.2)
    (fun s _ => Stands.aside (s := s) (.of_tables rfl rfl rfl rfl rfl rfl rfl) rfl rfl rfl) _ s

theorem sleepBank_tame (b : BankIx) (s : State) : Tame s (sleepBank b s) :=
  .foldl (fun _ _ => setEntryState_tame (.inr rfl)) allEntries s

theorem forceActuator_tame (a : Actuator) (s : State) : Tame s (forceActuator a s) := by
  have leaves : (forceActuator a s).lanes = s.lanes ∧ (forceActuator a s).slots = s.slots ∧
      (forceActuator a s).interlocks = s.interlocks := by
    unfold forceActuator
    split
    · simp only [queueNotice_leaves]
      exact ⟨rfl, rfl, rfl⟩
    · simp
  obtain ⟨lanes, slots, interlocks⟩ := leaves
  exact (forceActuator_stands a s).aside lanes slots interlocks

theorem setLocalDuty_tame (c : Chan) (n : Nat) (s : State) : Tame s (setLocalDuty c n s) := by
  have leaves : (setLocalDuty c n s).lanes = s.lanes ∧ (setLocalDuty c n s).slots = s.slots ∧
      (setLocalDuty c n s).interlocks = s.interlocks := by
    unfold setLocalDuty
    dsimp only
    split <;> exact ⟨rfl, rfl, rfl⟩
  obtain ⟨lanes, slots, interlocks⟩ := leaves
  exact (setLocalDuty_stands c n s).aside lanes slots interlocks

theorem restoreChan_tame (c : Chan) (s : State) : Tame s (restoreChan c s) := by
  have leaves : (restoreChan c s).lanes = s.lanes ∧ (restoreChan c s).slots = s.slots ∧
      (restoreChan c s).interlocks = s.interlocks := by
    unfold restoreChan
    split
    · split <;> exact ⟨rfl, rfl, rfl⟩
    · exact ⟨rfl, rfl, rfl⟩
  obtain ⟨lanes, slots, interlocks⟩ := leaves
  exact (restoreChan_stands c s).aside lanes slots interlocks

theorem tick_tame (s : State) : Tame s s.tick := by
  refine (tick_stands s).tame ⟨fun a => ?_, fun a => ?_, rfl, fun i p live => ?_⟩
  · rw [tick_lane]; rfl
  · rw [tick_lane]; exact ⟨rfl, rfl⟩
  · rw [State.orderAt, tick_slot] at live
    obtain ⟨o, before, rfl⟩ := Option.map_eq_some_iff.1 live
    exact ⟨o, before, rfl, rfl⟩

/-! ### The engine -/

theorem LaneLaw.ruled (law : LaneLaw s) (commands : CommandLaw s) : Ruled s := ⟨law.namesOwn, commands⟩

theorem settleOrder_tame {h : Handle} {o : Order} (live : s.order? h = some o) : Tame s (settleOrder h s) :=
  (settleOrder_runs live).tame fun agree =>
    ⟨fun law => (ruled_engine.settleOrder (agree.law.ruled law) trivial).commands,
      fun law => gateLaw_engine.settleOrder law trivial⟩

theorem settleGate_tame (s : State) : Tame s (settleGate s) :=
  (settleGate_runs s).tame fun agree =>
    ⟨fun law => (ruled_engine.settleGate (agree.law.ruled law)).commands, fun law => gateLaw_engine.settleGate law⟩

theorem retireCore_tame (i : Slot) (c : Cause) (s : State) : Tame s (retireCore true i c s) :=
  (retireCore_runs i c s).tame fun agree =>
    ⟨fun law => ((agree.law.ruled law).retireCore true i c).commands, fun law => law.retireCore true i c⟩

theorem retire_tame (i : Slot) (c : Cause) (s : State) : Tame s (retire i c s) :=
  (retireCore_tame i c s).trans (settleGate_tame _)

theorem takeHolds_tame {h : Handle} {o : Order} (live : s.order? h = some o) (governs : o.state = .governing) :
    Tame s (takeHolds o.actuator s) :=
  (takeHolds_runs live governs).tame fun agree =>
    ⟨fun law => law.takeHolds agree.law.namesOwn _, fun law => law.takeHolds _⟩

/-- A lane resolved after a change of its ranks. -/
theorem resolveOn_tame {a : Actuator} {f : Lane → Lane} (run : s.mode = .run) (ranks : ranksOnly f)
    (limits : ∀ l, (f l).lo = l.lo ∧ (f l).hi = l.hi) : Tame s (settleGate (resolve a (s.updLane a f))) := by
  refine (((Act.resolves run ranks).runsOn (resolve_frame a _).blocks.mode).tame fun agree => ?_).trans (settleGate_tame _)
  have lane : ∀ b, ((s.updLane a f).lane b).state = (s.lane b).state ∧ ((s.updLane a f).lane b).gov = (s.lane b).gov ∧
      ((s.updLane a f).lane b).orderSet = (s.lane b).orderSet ∧ ((s.updLane a f).lane b).command = (s.lane b).command ∧
      ((s.updLane a f).lane b).lo = (s.lane b).lo ∧ ((s.updLane a f).lane b).hi = (s.lane b).hi := fun b => by
    rw [lane_updLane]
    split
    · next same =>
      obtain ⟨state, gov, orderSet, command⟩ := ranks (s.lane b)
      subst same
      exact ⟨state, gov, orderSet, command, limits _⟩
    · simp
  have own : NamesOwn (s.updLane a f) := fun b k o n live =>
    agree.law.namesOwn b k o (by unfold State.names at n ⊢; rwa [(lane b).2.1, (lane b).2.2.1] at n) live
  refine ⟨fun law => CommandLaw.resolve ?_ own a, fun law => GateLaw.resolve ?_ a⟩
  · exact law.framed (fun b => (lane b).2.2.2.2) rfl (fun i p live => law.targets i p live) fun b v command =>
      .inl (by rwa [(lane b).2.2.2.1] at command)
  · exact law.framed (lane gate).1 (lane gate).2.2.2.1 (fun k => by rw [(lane gate).2.1]; exact id) (OrdersKept.refl s)

/-! ### The control interval (R57) -/

theorem setCommand_interlocks (a : Actuator) (v : Int) (s : State) : (setCommand a v s).interlocks = s.interlocks :=
  (setCommand_frame a v s).interlocks

theorem stepToward_between (aim : Int) (rate : Nat) (c : Int) :
    min aim c ≤ stepToward aim rate c ∧ stepToward aim rate c ≤ max aim c := by
  unfold stepToward
  split
  · split <;> omega
  · split
    · split <;> omega
    · omega

/-- The lane of `a` takes a new command that is allowed. -/
theorem CommandLaw.setCommand (law : CommandLaw s) {a : Actuator} {v : Int} (allowed : s.Allows a v) :
    CommandLaw (setCommand a v s) := by
  refine law.engine (setCommand_frame a v s) fun b w command => ?_
  rw [setCommand_lane] at command
  split at command
  · next same =>
    subst same
    exact .inr (Option.some.inj command ▸ allowed)
  · exact .inl command

/-- The GATE's law where its lane is untouched. -/
theorem GateLaw.apart (law : GateLaw s) (lane : t.lane gate = s.lane gate) (orders : OrdersKept s t) : GateLaw t :=
  law.framed (by rw [lane]) (by rw [lane]) (fun k => by rw [lane]; exact id) orders

theorem GateLaw.setCommand (law : GateLaw s) {a : Actuator} (apart : a ≠ gate) (v : Int) : GateLaw (setCommand a v s) :=
  law.apart (by rw [setCommand_lane, if_neg (Ne.symm apart)]) (setCommand_frame a v s).orders

/-- The aim of a lane is a command it may have (R56, R68). -/
theorem CommandLaw.aim (law : CommandLaw s) (own : NamesOwn s) {a : Actuator} {g : Int} {rate : Nat}
    (aim : s.aim a = some (g, rate)) : s.Allows a g := by
  unfold State.aim at aim
  split at aim
  · obtain ⟨rfl, -⟩ := Prod.mk.inj (Option.some.inj aim)
    exact law.aims law.restAim_ok
  · split at aim
    · next h o governs =>
      obtain ⟨names, live⟩ := governing_eq_some.1 governs
      obtain ⟨rfl, -⟩ := Prod.mk.inj (Option.some.inj aim)
      have fits := law.targets _ o (orderAt_of_order? live)
      rw [own a h o (.inl names) live] at fits
      exact law.aims fits
    · cases aim
  all_goals cases aim

theorem moveCommand_tame (a : Actuator) (s : State) : Tame s (moveCommand a s) := by
  refine (moveCommand_stands a s).runsOn.tame fun agree => ?_
  unfold moveCommand
  split
  · exact ⟨id, id⟩
  · next apart =>
    have apart : a ≠ gate := fun onGate => apart ((kindOf_gate_iff a).2 onGate)
    split
    · next c g rate command aim =>
      split
      · exact ⟨id, id⟩
      · obtain ⟨lower, upper⟩ := stepToward_between g rate c
        exact ⟨fun law => law.setCommand (law.between (law.aim agree.law.namesOwn aim) (law.allowed command) lower upper),
          fun law => law.setCommand apart _⟩
    · exact ⟨id, id⟩

/-! ### The return interlock (R66, R67) -/

/-- The creep limit of one interlock changes; the command of its lane is cut to the new one. -/
theorem CommandLaw.flagged (law : CommandLaw s) {w : Fin 2} {x : Interlock} (creep : 0 ≤ x.creep)
    (cut : ∀ v, (s.lane (wheelActuator w)).command = some v → (s.setInterlock w x).creepClamp (wheelActuator w) v = v) :
    CommandLaw (s.setInterlock w x) where
  limits := law.limits
  creep k := by
    rw [interlock_setInterlock]
    split
    · exact creep
    · exact law.creep k
  targets := law.targets
  commands := law.commands
  clamped a v command := by
    by_cases same : a = wheelActuator w
    · subst same
      exact cut v command
    · have before := law.clamped a v command
      unfold State.creepClamp at before ⊢
      split
      · next k wheel =>
        have other : k ≠ w := by
          rintro rfl
          exact same (wheel?_some wheel)
        rw [wheel] at before
        rw [interlock_setInterlock, if_neg other]
        exact before
      · rfl

/-- A flag that is not new cuts nothing. -/
theorem CommandLaw.reflagged (law : CommandLaw s) {w : Fin 2} {flag : Bool}
    (old : (flag && !(s.interlock w).engaged) = false) :
    CommandLaw (s.setInterlock w { s.interlock w with engaged := flag }) := by
  refine law.flagged (law.creep w) fun v command => ?_
  have before := law.clamped _ v command
  simp only [State.creepClamp, wheel?_wheelActuator, interlock_setInterlock, if_true] at before ⊢
  cases flag with
  | false => rfl
  | true =>
    have engaged : (s.interlock w).engaged = true := by simpa using old
    rwa [engaged] at before

/-- A lane without a command lets its flag change. -/
theorem CommandLaw.flags_idle (law : CommandLaw s) {w : Fin 2} {x : Interlock} (creep : 0 ≤ x.creep)
    (idle : (s.lane (wheelActuator w)).command = none) : CommandLaw (s.setInterlock w x) :=
  law.flagged creep fun v command => by rw [idle] at command; cases command

/-- The lane of `a` without its command. -/
def muted (a : Actuator) (s : State) : State := s.updLane a fun l => { l with command := none }

theorem muted_command (a : Actuator) (s : State) : ((muted a s).lane a).command = none := by
  rw [muted, lane_updLane, if_pos rfl]

theorem muted_limits (a b : Actuator) (s : State) :
    ((muted a s).lane b).lo = (s.lane b).lo ∧ ((muted a s).lane b).hi = (s.lane b).hi := by
  rw [muted, lane_updLane]
  split
  · next same => rw [same]; exact ⟨rfl, rfl⟩
  · exact ⟨rfl, rfl⟩

theorem setCommand_muted (a : Actuator) (v : Int) (s : State) : setCommand a v (muted a s) = setCommand a v s := by
  unfold setCommand muted
  rw [updLane_updLane]

theorem CommandLaw.muted (law : CommandLaw s) (a : Actuator) : CommandLaw (muted a s) := by
  refine law.framed (fun b => muted_limits a b s) rfl (fun i p live => law.targets i p live) fun b v command => ?_
  rw [Machine.muted, lane_updLane] at command
  split at command
  · cases command
  · exact .inl command

/-- The engagement cuts the command of its lane to the creep limit (R67). -/
theorem CommandLaw.engages (law : CommandLaw s) {w : Fin 2} {x : Interlock} (creep : 0 ≤ x.creep) {c : Int}
    (command : (s.lane (wheelActuator w)).command = some c) :
    CommandLaw (Machine.setCommand (wheelActuator w) ((s.setInterlock w x).creepClamp (wheelActuator w) c)
      (s.setInterlock w x)) := by
  have idle : CommandLaw (Machine.muted (wheelActuator w) (s.setInterlock w x)) :=
    (law.muted (wheelActuator w)).flags_idle creep (muted_command _ s)
  obtain ⟨lower, upper⟩ := law.commands _ c command
  obtain ⟨lo, hi⟩ := muted_limits (wheelActuator w) (wheelActuator w) (s.setInterlock w x)
  have allowed := idle.cut (a := wheelActuator w) (v := c) (by rw [lo]; exact lower) (by rw [hi]; exact upper)
  rw [← setCommand_muted]
  exact idle.setCommand allowed

/-- A wheel interlock writes no lane but its own. -/
theorem interlockUse_lane {w : Fin 2} {b : Actuator} (apart : b ≠ wheelActuator w) (s : State) :
    (interlockUse w s).lane b = s.lane b := by
  unfold interlockUse
  dsimp only
  split
  · split
    · split
      · rfl
      · split
        · rw [restartDetector, setDetector, lane_updLane, if_neg apart, clearSettled_lane, setCommand_lane, if_neg apart]
          rfl
        · rw [setCommand_lane, if_neg apart]
          rfl
    · rfl
  · rfl

theorem interlockUse_gate (w : Fin 2) (s : State) : (interlockUse w s).lane gate = s.lane gate :=
  interlockUse_lane (wheelActuator_ne_gate w).symm s

theorem interlockUse_orders (w : Fin 2) (s : State) : OrdersKept s (interlockUse w s) := (interlockUse_reading w s).orders

theorem CommandLaw.interlockUse (law : CommandLaw s) (w : Fin 2) : CommandLaw (interlockUse w s) := by
  have creep := law.creep w
  unfold Machine.interlockUse
  dsimp only
  split
  · split
    · next c command =>
      split
      · next uncut =>
        refine law.flagged creep fun v same => ?_
        obtain rfl : c = v := Option.some.inj (command.symm.trans same)
        exact uncut
      · have cut := law.engages (x := { s.interlock w with engaged := s.interlockFlag (s.interlock w) }) creep command
        split
        · exact cut.unmoved ((restartDetector_frame _ _).unmoved fun a => restartDetector_command _ a _)
        · exact cut
    · next idle => exact law.flags_idle creep idle
  · next old => exact law.reflagged (by simpa using old)

theorem interlockUse_tame (w : Fin 2) (s : State) : Tame s (interlockUse w s) :=
  (interlockUse_stands w s).runsOn.tame fun _ =>
    ⟨fun law => law.interlockUse w, fun law => law.apart (interlockUse_gate w s) (interlockUse_orders w s)⟩

end

end Sys2Proof.Machine
end

section
/-! The limits, the targets and the commands through AMEND, the settings, the map, START and RESTART. -/

namespace Sys2Proof.Machine

section
variable {s t : State}

/-! ### AMEND (R22, R23, R60) -/

theorem CommandLaw.gateStep (law : CommandLaw s) {v : Int} (fits : targetOk s gate v = true) :
    CommandLaw (gateStep v s) := by
  have timed : CommandLaw { s with travel := .running 0 } :=
    law.unmoved ((travel_frame s (.running 0)).unmoved fun _ => rfl)
  unfold Machine.gateStep
  split
  · exact law
  · exact timed.setCommand (timed.gateAims fits)

/-- An AMEND steps the GATE that the order drives, or moves no command; then the GATE's target stays. -/
theorem amendOrder_cases (h : Handle) (o : Order) (f : AmendForm) (s : State) :
    (o.state = .governing ∧ o.actuator = gate ∧ (s.lane gate).state = .driven ∧
      amendOrder h o f s = gateStep (amended f o).target (restartDetector gate (s.updOrder h.slot (amended f)))) ∨
    ((o.state = .governing → o.actuator = gate → (s.lane gate).state = .driven → (amended f o).target = o.target) ∧
      EngineFrame (s.updOrder h.slot (amended f)) (amendOrder h o f s) ∧
      ∀ a, ((amendOrder h o f s).lane a).command = (s.lane a).command) := by
  have lane : ∀ a, (s.updOrder h.slot (amended f)).lane a = s.lane a := updOrder_lane s h.slot _
  have restarted : ∀ a b, ((restartDetector a (s.updOrder h.slot (amended f))).lane b).command = (s.lane b).command :=
    fun a b => by rw [restartDetector_command, lane]
  have state : ∀ a, ((restartDetector a (s.updOrder h.slot (amended f))).lane gate).state = (s.lane gate).state :=
    fun a => by rw [((restartDetector_stands a _).lanes gate).state, lane]
  unfold amendOrder
  dsimp only
  split
  · next changed =>
    obtain ⟨governs, -⟩ := changed
    split
    · next drives =>
      obtain ⟨onGate, driving⟩ := drives
      rw [onGate] at driving ⊢
      exact .inl ⟨governs, rfl, (state gate).symm.trans driving, rfl⟩
    · next still =>
      refine .inr ⟨fun _ onGate driving => absurd ⟨onGate, (state _).trans driving⟩ still, restartDetector_frame _ _, restarted _⟩
  · next same =>
    refine .inr ⟨fun governs _ _ => ?_, .refl _, fun a => by rw [lane]⟩
    by_contra other
    exact same ⟨governs, .inl other⟩

/-- Every order after the record of an AMEND is one of before, the order amended with its new target. -/
theorem updOrder_amended {h : Handle} {o : Order} (live : s.order? h = some o) (f : AmendForm) {i : Slot} {p : Order}
    (there : (s.updOrder h.slot (amended f)).orderAt i = some p) :
    (i = h.slot ∧ p.actuator = o.actuator ∧ p.target = (amended f o).target) ∨ (i ≠ h.slot ∧ s.orderAt i = some p) := by
  rw [orderAt_updOrder] at there
  split at there
  · next same =>
    rw [orderAt_of_order? live] at there
    cases there
    exact .inl ⟨same, rfl, rfl⟩
  · next apart => exact .inr ⟨apart, there⟩

theorem CommandLaw.amends (law : CommandLaw s) {h : Handle} {o : Order} (live : s.order? h = some o) {f : AmendForm}
    (fits : targetOk s o.actuator (amended f o).target = true) : CommandLaw (amendOrder h o f s) := by
  have lane : ∀ a, (s.updOrder h.slot (amended f)).lane a = s.lane a := updOrder_lane s h.slot _
  have record : CommandLaw (s.updOrder h.slot (amended f)) := by
    refine law.framed (fun a => by rw [lane]; exact ⟨rfl, rfl⟩) (by simp) (fun i p there => ?_)
      fun a v command => .inl (by rwa [lane] at command)
    rcases updOrder_amended live f there with ⟨-, actuator, target⟩ | ⟨-, before⟩
    · rw [actuator, target]; exact fits
    · exact law.targets i p before
  rcases amendOrder_cases h o f s with ⟨-, onGate, -, e⟩ | ⟨-, frame, commands⟩
  · rw [e]
    refine CommandLaw.gateStep (record.unmoved ((restartDetector_frame _ _).unmoved fun a => restartDetector_command _ a _)) ?_
    obtain ⟨lo, hi⟩ := (restartDetector_frame gate (s.updOrder h.slot (amended f))).limits gate
    rw [targetOk, lo, hi, lane, ← targetOk, ← onGate]
    exact fits
  · exact record.unmoved (frame.unmoved fun a => by rw [commands, lane])

theorem GateLaw.amends (law : GateLaw s) (lanes : LaneLaw s) {h : Handle} {o : Order} (live : s.order? h = some o)
    (f : AmendForm) : GateLaw (amendOrder h o f s) := by
  have stands := amendOrder_stands h o f s
  have state := (stands.lanes gate).state
  have gov := (stands.lanes gate).gov
  have slots : OrdersKept (s.updOrder h.slot (amended f)) (amendOrder h o f s) := by
    rcases amendOrder_cases h o f s with ⟨-, -, -, e⟩ | ⟨-, frame, -⟩
    · rw [e]; exact ((restartDetector_frame _ _).trans (gateStep_frame _ _)).orders
    · exact frame.orders
  -- a live order that governs the GATE is one of before: the order amended, or another
  have governing : ∀ {k p}, (s.lane gate).gov = some k → (amendOrder h o f s).order? k = some p →
      (k = h ∧ o.actuator = gate ∧ o.state = .governing ∧ p.target = (amended f o).target) ∨
        (k ≠ h ∧ ∃ q, s.order? k = some q ∧ p.target = q.target) := fun {k p} names there => by
    obtain ⟨own, at'⟩ := order?_eq_some there
    obtain ⟨q, before, ⟨-, -, target, -⟩, -⟩ := slots _ p at'
    obtain ⟨r, lives, actuator, governs⟩ := lanes.governs gate k names
    rcases updOrder_amended live f before with ⟨same, -, new⟩ | ⟨apart, old⟩
    · obtain rfl := handle_of_slot lives live same
      rw [live] at lives
      cases lives
      exact .inl ⟨rfl, actuator, governs, target.trans new⟩
    · rw [orderAt_of_order? lives] at old
      exact .inr ⟨fun same => apart (congrArg Handle.slot same), r, lives, by rw [target, Option.some.inj old]⟩
  rcases amendOrder_cases h o f s with ⟨governs, onGate, driving, e⟩ | ⟨same, -, commands⟩
  · refine ⟨fun resting => ?_, fun k p _ names there => ?_⟩
    · rw [state, driving] at resting; cases resting
    · have own := lanes.alone h.slot o (orderAt_of_order? live) governs
      rw [handleAt_of_order? live, onGate] at own
      rw [gov, own] at names
      obtain rfl : h = k := Option.some.inj names
      obtain ⟨-, -, -, target⟩ := (governing own there).resolve_right fun other => other.1 rfl
      rw [target, e, gateStep_lane]
  · refine ⟨fun resting => ?_, fun k p drives names there => ?_⟩
    · rw [commands]; exact law.rest (state.symm.trans resting)
    · rw [commands]
      rw [state] at drives
      rw [gov] at names
      rcases governing names there with ⟨rfl, onGate, governs, target⟩ | ⟨-, q, before, target⟩
      · rw [target, same governs onGate drives]
        exact law.driven k o drives names live
      · rw [target]
        exact law.driven k q drives names before

theorem checkAmended_fits {o : Order} {f : AmendForm} {u : Unit} (law : CommandLaw s) {h : Handle}
    (live : s.order? h = some o) (ok : checkAmended s o f = .ok u) : targetOk s o.actuator (amended f o).target = true := by
  unfold checkAmended at ok
  obtain ⟨_, -, ok⟩ := Except.bind_eq_ok ok
  obtain ⟨_, fits, -⟩ := Except.bind_eq_ok ok
  have fits := require_ok fits
  unfold amended
  cases new : f.target with
  | none => exact law.targets _ o (orderAt_of_order? live)
  | some v => rwa [new] at fits

theorem amendOrder_tame {h : Handle} {o : Order} {f : AmendForm} {u : Unit} (live : s.order? h = some o)
    (ok : checkAmended s o f = .ok u) : Tame s (amendOrder h o f s) :=
  (amendOrder_stands h o f s).runsOn.tame fun agree =>
    ⟨fun law => law.amends live (checkAmended_fits law live ok), fun law => law.amends agree.law live f⟩

/-! ### The settings, in SETUP (R66, R69) -/

theorem checkLimits_allowed {f : Nat × Int × Int} {a : Actuator} (ok : checkLimits f = .ok a) :
    a ≠ gate ∧ limitsAllowed a f.2.1 f.2.2 = true := by
  unfold checkLimits at ok
  obtain ⟨b, -, ok⟩ := Except.bind_eq_ok ok
  obtain ⟨_, kind, ok⟩ := Except.bind_eq_ok ok
  obtain ⟨_, range, ok⟩ := Except.bind_eq_ok ok
  obtain ⟨_, wheel, ok⟩ := Except.bind_eq_ok ok
  cases ok
  have kind := require_ok kind
  refine ⟨fun onGate => ?_, ?_⟩
  · subst onGate
    exact absurd kind (by decide)
  · rw [limitsAllowed, require_ok range, require_ok wheel]
    rfl

/-- The limits of one lane, in SETUP. -/
theorem setLimits_tame {f : Nat × Int × Int} {a : Actuator} (ok : checkLimits f = .ok a) (setup : s.mode = .setup) :
    Tame s (s.updLane a fun l => { l with lo := f.2.1, hi := f.2.2 }) := by
  obtain ⟨apart, allowed⟩ := checkLimits_allowed ok
  have stands : Stands s (s.updLane a fun l => { l with lo := f.2.1, hi := f.2.2 }) :=
    updLane_stands ⟨rfl, rfl, rfl, rfl, rfl, fun _ => id, fun _ => id, fun _ => id⟩
  refine stands.runsOn.tame fun ⟨idle, _⟩ => ⟨fun law => ?_, fun law => ?_⟩
  · have lane : ∀ b, (s.updLane a fun l => { l with lo := f.2.1, hi := f.2.2 }).lane b =
        if b = a then { s.lane a with lo := f.2.1, hi := f.2.2 } else s.lane b := lane_updLane s a _
    have silent : ∀ b v, ((s.updLane a fun l => { l with lo := f.2.1, hi := f.2.2 }).lane b).command ≠ some v := fun b v => by
      have off := (idle.lanesOff setup b).2.2.1
      rw [lane]
      split
      · next same => subst same; simp [off]
      · simp [off]
    refine ⟨fun b => ?_, law.creep, fun i o live => ?_, fun b v command => absurd command (silent b v),
      fun b v command => absurd command (silent b v)⟩
    · rw [lane]
      split
      · next same => subst same; exact allowed
      · exact law.limits b
    · have empty : s.orderAt i = none := idle.noOrders setup i
      exact absurd (empty.symm.trans live) (by simp)
  · refine law.apart ?_ (OrdersKept.refl s)
    rw [lane_updLane, if_neg (Ne.symm apart)]

theorem applySettle_tame (a : Actuator) (f : SettleForm) (s : State) : Tame s (applySettle a f s) := by
  have lane : ∀ b, (applySettle a f s).lane b = if b = a then
      { s.lane a with band := f.band.getD (s.lane a).band, dwell := f.dwell.getD (s.lane a).dwell } else s.lane b :=
    lane_updLane s a fun l => { l with band := f.band.getD l.band, dwell := f.dwell.getD l.dwell }
  refine (applySettle_stands a f s).tame ⟨fun b => ?_, fun b => ?_, rfl, fun i p live => ⟨p, live, rfl, rfl⟩⟩
  · rw [lane]
    split
    · next same => rw [same]
    · rfl
  · rw [lane]
    split
    · next same => rw [same]; exact ⟨rfl, rfl⟩
    · exact ⟨rfl, rfl⟩

theorem checkInterlock_creep {f : InterlockForm} {w : Fin 2} (ok : checkInterlock f = .ok w) {v : Int}
    (creep : f.creep = some v) : 0 ≤ v := by
  unfold checkInterlock at ok
  obtain ⟨a, -, ok⟩ := Except.bind_eq_ok ok
  split at ok
  · cases ok
  · obtain ⟨_, -, ok⟩ := Except.bind_eq_ok ok
    obtain ⟨_, -, ok⟩ := Except.bind_eq_ok ok
    obtain ⟨_, range, -⟩ := Except.bind_eq_ok ok
    rw [creep] at range
    have range := require_ok range
    simp only [inRange, Bool.and_eq_true, decide_eq_true_eq] at range
    exact range.1

theorem applyInterlock_tame {f : InterlockForm} {w : Fin 2} (ok : checkInterlock f = .ok w) (setup : s.mode = .setup) :
    Tame s (applyInterlock w f s) := by
  refine (setInterlock_stands s w _).runsOn.tame fun ⟨idle, _⟩ => ⟨fun law => ?_, fun law => law.apart rfl (OrdersKept.refl s)⟩
  refine law.flags_idle ?_ (idle.lanesOff setup _).2.2.1
  cases new : f.creep with
  | none => exact law.creep w
  | some v => exact checkInterlock_creep ok new

/-! ### Lanes into REST and DOWN (R32, R59) -/

theorem CommandLaw.laneRest (law : CommandLaw s) (a : Actuator) : CommandLaw (laneRest a s) := by
  refine law.framed (fun b => ?_) ?_ (fun i p live => ?_) fun b v command => ?_
  · rw [laneRest_lane]
    split
    · next same => rw [same]; exact ⟨rfl, rfl⟩
    · exact ⟨rfl, rfl⟩
  · unfold Machine.laneRest
    dsimp only
    rw [(handCommand_frame a _).interlocks]
    split <;> rfl
  · rw [State.orderAt, laneRest_slot] at live
    exact law.targets i p live
  · rw [laneRest_lane] at command
    split at command
    · next same =>
      obtain rfl := Option.some.inj command
      exact .inr (same ▸ law.starts)
    · exact .inl command

theorem GateLaw.laneRest (law : GateLaw s) (a : Actuator) : GateLaw (laneRest a s) := by
  by_cases onGate : a = gate
  · subst onGate
    have lane := laneRest_lane gate s gate
    rw [if_pos rfl] at lane
    refine ⟨fun _ => ?_, fun k p driving => by rw [lane] at driving; cases driving⟩
    rw [lane]
    rfl
  · refine law.apart (by rw [laneRest_lane, if_neg (Ne.symm onGate)]) fun i p live => ?_
    rw [State.orderAt, laneRest_slot] at live
    exact ⟨p, live, p.kept_refl, by rw [laneRest_slot]⟩

theorem laneDown_interlocked (a : Actuator) (s : State) : (laneDown a s).interlocks = s.interlocks := by
  unfold laneDown
  dsimp only
  split <;> rfl

theorem CommandLaw.laneDown (law : CommandLaw s) (a : Actuator) : CommandLaw (laneDown a s) := by
  refine law.framed (fun b => ?_) (laneDown_interlocked a s) (fun i p live => ?_) fun b v command => ?_
  · by_cases same : b = a
    · subst same; rw [laneDown_lane]; exact ⟨rfl, rfl⟩
    · rw [laneDown_other same]; exact ⟨rfl, rfl⟩
  · rw [State.orderAt, slot_of_slots (laneDown_leaves a s).1] at live
    exact law.targets i p live
  · by_cases same : b = a
    · subst same; rw [laneDown_lane] at command; cases command
    · rw [laneDown_other same] at command; exact .inl command

theorem GateLaw.laneDown (law : GateLaw s) (a : Actuator) : GateLaw (laneDown a s) := by
  by_cases onGate : a = gate
  · subst onGate
    have lane := laneDown_lane gate s
    refine ⟨fun resting => ?_, fun k p driving => ?_⟩
    · rw [lane] at resting; cases resting
    · rw [lane] at driving; cases driving
  · refine law.apart (laneDown_other (Ne.symm onGate) s) fun i p live => ?_
    rw [State.orderAt, slot_of_slots (laneDown_leaves a s).1] at live
    exact ⟨p, live, p.kept_refl, by rw [slot_of_slots (laneDown_leaves a s).1]⟩

/-! ### The map (R136, R138, R142) -/

theorem GateLaw.aside (law : GateLaw s) (lanes : t.lanes = s.lanes) (slots : t.slots = s.slots) : GateLaw t :=
  law.apart (lane_of_lanes lanes gate) fun i p live =>
    ⟨p, by rwa [State.orderAt, slot_of_slots slots] at live, p.kept_refl, by rw [slot_of_slots slots]⟩

/-- Both laws where the lanes, the orders and the interlocks stay. -/
theorem aside_laws (lanes : t.lanes = s.lanes) (slots : t.slots = s.slots) (interlocks : t.interlocks = s.interlocks) :
    (CommandLaw s → CommandLaw t) ∧ (GateLaw s → GateLaw t) :=
  ⟨fun law => law.unmoved (.of_tables lanes slots interlocks), fun law => law.aside lanes slots⟩

theorem moveActuator_leaves (a : Actuator) (c : Chan) (s : State) : (moveActuator a c s).lanes = s.lanes ∧
    (moveActuator a c s).slots = s.slots ∧ (moveActuator a c s).interlocks = s.interlocks := by
  unfold moveActuator
  split <;> exact ⟨rfl, rfl, rfl⟩

theorem bringBack_laws (a : Actuator) (c : Chan) (s : State) :
    (CommandLaw s → CommandLaw (bringBack a c s)) ∧ (GateLaw s → GateLaw (bringBack a c s)) := by
  obtain ⟨lanes, slots, -⟩ := broughtBack_leaves a c s
  have interlocks : (broughtBack a c s).interlocks = s.interlocks := by
    unfold broughtBack
    dsimp only
    split <;> rfl
  obtain ⟨commands, gates⟩ := aside_laws lanes slots interlocks
  rw [bringBack_eq]
  exact ⟨fun law => (commands law).laneRest a, fun law => (gates law).laneRest a⟩

theorem applyMap_laws (a : Actuator) (c : Chan) (s : State) :
    (CommandLaw s → CommandLaw (applyMap a c s)) ∧ (GateLaw s → GateLaw (applyMap a c s)) := by
  rcases applyMap_cases a c s with e | ⟨-, e⟩ | ⟨-, -, e⟩ | ⟨-, -, e⟩ <;> rw [e]
  · exact ⟨id, id⟩
  · exact aside_laws rfl rfl rfl
  · exact bringBack_laws a c s
  · obtain ⟨lanes, slots, interlocks⟩ := moveActuator_leaves a c s
    exact aside_laws lanes slots interlocks

/-- The lanes and the orders an actuator's loss of its channel leaves, before its orders end. -/
theorem unassigned_laws (a : Actuator) (c : Chan) (s : State) : (unassigned a c s).lanes = s.lanes ∧
    (unassigned a c s).slots = s.slots ∧ (unassigned a c s).interlocks = s.interlocks := by
  unfold unassigned assign releaseChan
  simp [State.setMap, State.setChan]

theorem actuatorDown_laws {a : Actuator} {c : Chan} {s : State} (own : NamesOwn s) :
    (CommandLaw s → CommandLaw (actuatorDown a c s)) ∧ (GateLaw s → GateLaw (actuatorDown a c s)) := by
  obtain ⟨lanes, slots, interlocks⟩ := unassigned_laws a c s
  obtain ⟨commands, gates⟩ := aside_laws lanes slots interlocks
  have own : NamesOwn (unassigned a c s) := fun b k o n live =>
    own b k o ((names_of_lane (lane_of_lanes lanes b)).1 n) (by rwa [order?_of_slot (slot_of_slots slots _)] at live)
  rw [actuatorDown_eq, retireDriveLost_eq]
  refine ⟨fun law => CommandLaw.laneDown ?_ a, fun law => GateLaw.laneDown ?_ a⟩
  · exact (List.foldlRecOn (motive := Ruled) allSlots _ ⟨own, commands law⟩ fun t ht i _ =>
      driveTurn_keeps ht fun _ _ _ => ht.retireCore false i .driveLost).commands
  · exact List.foldlRecOn (motive := GateLaw) allSlots _ (gates law) fun t ht i _ =>
      driveTurn_keeps ht fun _ _ _ => ht.retireCore false i .driveLost

/-! ### START and RESTART (R182, R184) -/

/-- No orders and no commands: only the settings are under the law. -/
theorem CommandLaw.of_idle (limits : ∀ a, limitsAllowed a (s.lane a).lo (s.lane a).hi = true)
    (creep : ∀ w, 0 ≤ (s.interlock w).creep) (orders : ∀ i, s.orderAt i = none)
    (commands : ∀ a, (s.lane a).command = none) : CommandLaw s where
  limits := limits
  creep := creep
  targets i o live := by rw [orders] at live; cases live
  commands a v command := by rw [commands] at command; cases command
  clamped a v command := by rw [commands] at command; cases command

theorem testActuator_interlocks (r : StartRun) (a : Actuator) : (testActuator r a).st.interlocks = r.st.interlocks := by
  rcases testActuator_cases r a with ⟨-, e⟩ | ⟨-, sp, -, e⟩ | ⟨-, -, e⟩ <;> rw [e]
  · simpa using (moveActuator_leaves a sp r.st).2.2
  · simp only [queueNotice_leaves]
    unfold leaveDown
    split <;> rfl

theorem startOrdered_creep (s : State) (w : Fin 2) : ((startOrdered s).interlock w).creep = (s.interlock w).creep := by
  have tested : (startTested s).interlocks = s.interlocks := by
    unfold startTested
    refine List.foldlRecOn (motive := fun r : StartRun => r.st.interlocks = s.interlocks) allActuators testActuator ?_
      fun r h a _ => (testActuator_interlocks r a).trans h
    rfl
  have ordered : ∀ u : State, ((refreshFlags (allActuators.foldl enterOrder u)).interlock w).creep = (u.interlock w).creep :=
    fun u => by
      obtain ⟨ch, entered⟩ := enterOrders_writes u
      rw [refreshFlags_interlock, entered]
      rfl
  rw [startOrdered, ordered, State.interlock, tested]
  rfl

theorem leaveOff_laws (s : State) (a : Actuator) :
    (CommandLaw s → CommandLaw (leaveOff s a)) ∧ (GateLaw s → GateLaw (leaveOff s a)) := by
  unfold leaveOff
  split
  · exact ⟨fun law => law.laneRest a, fun law => law.laneRest a⟩
  · exact ⟨fun law => law.laneDown a, fun law => law.laneDown a⟩

theorem startLanes_laws (setup : s.mode = .setup) (idle : SetupLaw s) :
    (CommandLaw s → CommandLaw (startLanes s)) ∧ (GateLaw s → GateLaw (startLanes s)) := by
  obtain ⟨-, slots, lanes⟩ := startOrdered_leaves s
  have lane := lane_of_lanes lanes
  rw [startLanes_eq]
  refine ⟨fun law => ?_, fun law => ?_⟩
  · refine List.foldlRecOn (motive := CommandLaw) allActuators leaveOff (CommandLaw.of_idle (fun a => ?_) (fun w => ?_)
      (fun i => ?_) fun a => ?_) fun t ht a _ => (leaveOff_laws t a).1 ht
    · rw [lane]; exact law.limits a
    · rw [startOrdered_creep]; exact law.creep w
    · rw [State.orderAt, slot_of_slots slots]; exact idle.noOrders setup i
    · rw [lane]; exact (idle.lanesOff setup a).2.2.1
  · exact List.foldlRecOn (motive := GateLaw) allActuators leaveOff (law.aside lanes slots) fun t ht a _ =>
      (leaveOff_laws t a).2 ht

theorem restartRun_laws (s : State) :
    (CommandLaw s → CommandLaw (restartRun s)) ∧ (GateLaw s → GateLaw (restartRun s)) := by
  have lane := restartRun_lane s
  refine ⟨fun law => .of_idle (fun a => ?_) (fun w => ?_) (fun i => ?_) fun a => ?_, fun _ =>
    ⟨fun resting => ?_, fun k p driving => ?_⟩⟩
  · rw [lane]; exact law.limits a
  · rw [restartRun_interlock]; exact law.creep w
  · rw [State.orderAt, restartRun_slot, freed_order]
  · rw [lane]; rfl
  · rw [lane] at resting; cases resting
  · rw [lane] at driving; cases driving

end

end Sys2Proof.Machine
end

section
/-! The limits, the targets and the commands through a placement (R10, R55, R60). -/

namespace Sys2Proof.Machine

/-! ### The slot a placement takes -/

theorem supersede_takes {s : State} (law : LaneLaw s) (a : Actuator) (c : Cls) {i : Slot}
    (free : (supersede a c s).orderAt i = none) : Takes i (supersede a c s) := by
  unfold supersede at free ⊢
  split at free
  · next j held =>
    obtain ⟨o, live, -⟩ := findOrder_some held
    exact retireCore_takes live law ((retireCore_free live law).1 free)
  · exact law.takes free

section
variable {s : State} {i : Slot} {o : Order}

/-- An order a lane names is no order of the slot taken. -/
theorem Takes.before (x : Takes i s) {a : Actuator} {h : Handle} {p : Order} (n : s.names a h)
    (live : (written o i s).order? h = some p) : s.order? h = some p := by
  have apart : h.slot ≠ i := by
    rintro rfl
    obtain ⟨own, -⟩ := order?_eq_some live
    have gen : ((written o h.slot s).slot h.slot).gen = (s.slot h.slot).gen := by rw [written_slot, if_pos rfl]
    rw [handleAt_of_gen gen] at own
    exact x.unnamed a (own ▸ n)
  have slot : (written o i s).slot h.slot = s.slot h.slot := by rw [written_slot, if_neg apart]
  rw [← live, order?_of_slot slot]

theorem written_lane (a : Actuator) : (written o i s).lane a = s.lane a := rfl

theorem Takes.ruled_written (x : Takes i s) (law : CommandLaw s) (fits : targetOk s o.actuator o.target = true) :
    Ruled (written o i s) where
  own a h p n live := x.own a h p n (x.before n live)
  commands := by
    refine law.framed (fun _ => ⟨rfl, rfl⟩) rfl (fun j p live => ?_) fun _ _ command => .inl command
    rw [State.orderAt, written_slot] at live
    split at live
    · cases live; exact fits
    · exact law.targets j p live

theorem Takes.gateLaw_written (x : Takes i s) (law : GateLaw s) : GateLaw (written o i s) where
  rest := law.rest
  driven h p driving governs live := law.driven h p driving governs (x.before (.inl governs) live)

/-- The order recorded in a position is of the lane. -/
theorem armedNew_own {p : Order} (live : (armedNew o i s).order? (s.handleAt i) = some p) : p.actuator = o.actuator := by
  obtain ⟨-, ⟨-, kept⟩ | ⟨apart, -⟩⟩ := armedNew_orders (orderAt_of_order? live)
  · exact kept.2.1
  · exact absurd rfl apart

theorem recordOrder_lane (h : Handle) (a b : Actuator) (c : Cls) (s : State) :
    ((recordOrder h a c s).lane b).state = (s.lane b).state ∧ ((recordOrder h a c s).lane b).gov = (s.lane b).gov ∧
    ((recordOrder h a c s).lane b).command = (s.lane b).command := by
  unfold recordOrder
  split
  · rw [lane_updLane]
    split
    · next same => rw [same]; exact ⟨rfl, rfl, rfl⟩
    · exact ⟨rfl, rfl, rfl⟩
  · exact ⟨rfl, rfl, rfl⟩

theorem recordOrder_names {h k : Handle} {a b : Actuator} {c : Cls} (n : (recordOrder h a c s).names b k) :
    s.names b k ∨ (b = a ∧ k = h) := by
  unfold recordOrder State.names at n
  split at n
  · rw [lane_updLane] at n
    split at n
    · next same =>
      subst same
      rcases n with n | ⟨d, n⟩
      · exact .inl (.inl n)
      · dsimp only at n
        rw [PerClass.get_set] at n
        split at n
        · exact .inr ⟨rfl, (Option.some.inj n).symm⟩
        · exact .inl (.inr ⟨d, n⟩)
    · exact .inl n
  · exact .inl n

theorem Takes.ruled_entered (x : Takes i s) (law : CommandLaw s) (fits : targetOk s o.actuator o.target = true) :
    Ruled (entered o i s) := by
  have armed : Ruled (armedNew o i s) := by
    unfold armedNew
    split
    · exact ruled_engine.armGuards trivial (x.ruled_written law fits)
    · exact x.ruled_written law fits
  refine ⟨fun b k p n live => ?_, armed.commands.unmoved ((recordOrder_frame _ _ _ _).unmoved fun a => (recordOrder_lane _ _ a _ _).2.2)⟩
  rw [entered, order?_of_slot (recordOrder_slot _ _ _ _ _)] at live
  rcases recordOrder_names n with n | ⟨rfl, rfl⟩
  · exact armed.own b k p n live
  · exact armedNew_own live

theorem Takes.gateLaw_entered (x : Takes i s) (law : GateLaw s) : GateLaw (entered o i s) := by
  have armed : GateLaw (armedNew o i s) := by
    unfold armedNew
    split
    · exact gateLaw_engine.armGuards trivial (x.gateLaw_written law)
    · exact x.gateLaw_written law
  obtain ⟨state, gov, command⟩ := recordOrder_lane (s.handleAt i) o.actuator gate o.cls (armedNew o i s)
  exact armed.framed state command (fun k governs => gov ▸ governs) (recordOrder_frame _ _ _ _).orders

theorem Takes.ruled_installed (x : Takes i s) (law : CommandLaw s) (fits : targetOk s o.actuator o.target = true)
    (replaced : Bool) : Ruled (installOrder o i replaced s) := by
  rw [installOrder_eq]
  refine ruled_engine.settleGate ?_
  unfold resolvedNew
  split
  · exact (x.ruled_entered law fits).resolve _
  · exact x.ruled_entered law fits

theorem Takes.gateLaw_installed (x : Takes i s) (law : GateLaw s) (replaced : Bool) : GateLaw (installOrder o i replaced s) := by
  rw [installOrder_eq]
  refine gateLaw_engine.settleGate ?_
  unfold resolvedNew
  split
  · exact (x.gateLaw_entered law).resolve _
  · exact x.gateLaw_entered law

end

/-! ### The placement -/

section
variable {s : State}

theorem supersede_laws (own : NamesOwn s) (a : Actuator) (c : Cls) :
    (CommandLaw s → CommandLaw (supersede a c s)) ∧ (GateLaw s → GateLaw (supersede a c s)) := by
  unfold supersede
  split
  · exact ⟨fun law => (Ruled.retireCore ⟨own, law⟩ _ _ _).commands, fun law => law.retireCore _ _ _⟩
  · exact ⟨id, id⟩

theorem EngineFrame.targetOk_eq {t : State} (frame : EngineFrame s t) (a : Actuator) (v : Int) :
    targetOk t a v = targetOk s a v := by
  obtain ⟨lo, hi⟩ := frame.limits a
  rw [targetOk, targetOk, lo, hi]

theorem placeOrder_laws {o : Order} (lanes : LaneLaw s)
    (fits : CommandLaw s → targetOk s o.actuator o.target = true) :
    (CommandLaw s → CommandLaw (placeOrder o s).1) ∧ (GateLaw s → GateLaw (placeOrder o s).1) := by
  obtain ⟨commands, gates⟩ := supersede_laws lanes.namesOwn o.actuator o.cls
  cases free : (supersede o.actuator o.cls s).freeSlot? with
  | none => rw [placeOrder_full free]; exact ⟨commands, gates⟩
  | some i =>
    have takes := supersede_takes lanes o.actuator o.cls (freeSlot?_free free)
    rw [placeOrder_free free]
    refine ⟨fun law => (takes.ruled_installed (commands law) ?_ _).commands, fun law => takes.gateLaw_installed (gates law) _⟩
    rw [(supersede_frame o.actuator o.cls s).targetOk_eq]
    exact fits law

theorem placeOrder_tame {o : Order} (run : s.mode = .run) (drives : (s.lane o.actuator).state ≠ .down)
    (fits : CommandLaw s → targetOk s o.actuator o.target = true) : Tame s (placeOrder o s).1 :=
  (placeOrder_runs run drives).tame fun agree => placeOrder_laws agree.law fits

/-! ### The targets the checks let through (R1, R15) -/

theorem targetField_fits {a : Actuator} {v : Int} {u : Unit} (ok : targetField s a v = .ok u) : targetOk s a v = true := by
  unfold targetField at ok
  exact require_ok ok

theorem checkPlace_fits {c : Cls} {f : PlaceForm} {o : Order} (ok : checkPlace s c f = .ok o) :
    targetOk s o.actuator o.target = true := by
  unfold checkPlace at ok
  obtain ⟨a, -, ok⟩ := Except.bind_eq_ok ok
  obtain ⟨_, -, ok⟩ := Except.bind_eq_ok ok
  obtain ⟨_, fits, ok⟩ := Except.bind_eq_ok ok
  obtain ⟨_, -, ok⟩ := Except.bind_eq_ok ok
  obtain ⟨_, -, ok⟩ := Except.bind_eq_ok ok
  obtain ⟨_, -, ok⟩ := Except.bind_eq_ok ok
  obtain ⟨_, -, ok⟩ := Except.bind_eq_ok ok
  obtain ⟨_, -, ok⟩ := Except.bind_eq_ok ok
  cases ok
  exact targetField_fits fits

theorem checkIssue_fits {c : Cls} {f : IssueForm} {o : Order} (ok : checkIssue s c f = .ok o) :
    targetOk s o.actuator o.target = true := by
  unfold checkIssue at ok
  obtain ⟨t, -, ok⟩ := Except.bind_eq_ok ok
  cases filled : s.template t with
  | none => rw [filled] at ok; cases ok
  | some m =>
    rw [filled] at ok
    obtain ⟨_, -, ok⟩ := Except.bind_eq_ok ok
    obtain ⟨_, fits, ok⟩ := Except.bind_eq_ok ok
    obtain ⟨_, -, ok⟩ := Except.bind_eq_ok ok
    obtain ⟨_, -, ok⟩ := Except.bind_eq_ok ok
    cases ok
    exact targetField_fits fits

end

end Sys2Proof.Machine
end

section
/-! The limits, the targets and the commands through the users of a point, the plan store and the link. -/

namespace Sys2Proof.Machine

/-- Nothing changes but what orders, lanes and interlocks do not rest on. -/
theorem Tame.of_tables {s t : State} (mode : t.mode = s.mode) (slots : t.slots = s.slots) (lanes : t.lanes = s.lanes)
    (travel : t.travel = s.travel) (map : t.map = s.map) (chans : t.chans = s.chans) (banks : t.banks = s.banks)
    (interlocks : t.interlocks = s.interlocks) : Tame s t :=
  (Stands.of_tables mode slots lanes travel map chans banks).aside lanes slots interlocks

theorem port_tame {s t : State} (h : { s with
    link := t.link, rx := t.rx, finishing := t.finishing, collided := t.collided, pair := t.pair, line := t.line
    txQueue := t.txQueue, noticesLost := t.noticesLost, draws := t.draws, pending := t.pending } = t) : Tame s t := by
  rw [← h]
  exact .of_tables rfl rfl rfl rfl rfl rfl rfl rfl

/-! ### Guards -/

theorem guardAct_tame (h : Handle) (g : Nat) (action : GuardAction) (s : State) : Tame s (guardAct h g action s) := by
  cases action with
  | retire => exact retire_tame _ _ s
  | freeze =>
    have set := setCond_tame h g .active s
    unfold guardAct
    dsimp only
    split
    · next live =>
      split
      · next governs => exact set.trans (takeHolds_tame live governs)
      · exact set
    · exact set

theorem guardEnds_tame (h : Handle) (g : Nat) (s : State) : Tame s (guardEnds h g s) := by
  have set := setCond_tame h g .satisfied s
  unfold guardEnds
  dsimp only
  split
  · next live =>
    split
    · next governs => exact (set.trans (takeHolds_tame live governs)).trans (settleGate_tame _)
    · exact set
  · exact set

theorem evalGuard_tame (p : Point) (h : Handle) (g : Nat) (s : State) : Tame s (evalGuard p h g s) := by
  unfold evalGuard
  split
  · exact .refl s
  · split
    · exact .refl s
    · split
      · split
        · split
          · exact guardAct_tame _ _ _ s
          · exact setCond_tame _ _ _ s
        · exact setCond_tame _ _ _ s
        · exact guardEnds_tame _ _ s
        all_goals exact .refl s
      · exact .refl s

/-! ### The users of a point -/

theorem guardUse_tame (p : Point) (s : State) : Tame s (guardUse p s) :=
  Tame.foldl (fun s _ => (evalGuard_tame p _ 0 s).trans (evalGuard_tame p _ 1 _)) _ s

theorem settleUse_tame (a : Actuator) (s : State) : Tame s (settleUse a s) := by
  unfold settleUse
  split
  · next driven governs =>
    have on : (s.lane a).state ≠ .off := by rw [driven]; simp
    have detects : ∀ d, Tame s (setDetector a d s) := fun _ => setDetector_tame (.inl on)
    split
    · split
      · split
        · split
          · exact (detects _).trans (settleOrder_tame (governing_eq_some.1 governs).2)
          · exact detects _
        · exact .refl s
      all_goals exact .refl s
    · exact restartDetector_tame a s
  · exact .refl s

theorem laneUse_tame (p : Point) (s : State) : Tame s (laneUse p s) := by
  have settle : Tame s (if h : p.val < 11 then settleUse ⟨p.val, by omega⟩ s else s) := by
    split
    · exact settleUse_tame _ s
    · exact .refl s
  unfold laneUse
  dsimp only
  split
  · exact settle.trans ((interlockUse_tame 0 _).trans (interlockUse_tame 1 _))
  · exact settle

theorem draws_tame (s : State) (n : Nat) : Tame s { s with draws := n } :=
  .of_tables rfl rfl rfl rfl rfl rfl rfl rfl

theorem handPoint_tame (p : Point) (s : State) : Tame s (handPoint p s) := by
  have guards := (guardUse_tame p s).trans (laneUse_tame p _)
  have lanes := (laneUse_tame p s).trans (guardUse_tame p _)
  unfold handPoint
  dsimp only
  split
  · exact guards
  · split
    · exact guards.trans (draws_tame _ _)
    · exact lanes.trans (draws_tame _ _)

theorem handModule_tame (m : Module) (s : State) : Tame s (handModule m s) :=
  Tame.foldl (fun s _ => handPoint_tame _ s) _ s

theorem takeReadings_tame (m : Module) (vs : List Int) (s : State) : Tame s (takeReadings m vs s) :=
  ((setModule_tame s m _).trans (setReadings_tame m vs _)).trans (handModule_tame m _)

theorem goodFrame_tame (m : Module) (vs : List Int) (s : State) : Tame s (goodFrame m vs s) := by
  unfold goodFrame
  dsimp only
  split
  · exact takeReadings_tame m vs s
  · exact takeReadings_tame m vs s
  · split
    · exact takeReadings_tame m vs s
    · exact setModule_tame s m _

theorem staleModule_tame (m : Module) (s : State) : Tame s (staleModule m s) :=
  (setModule_tame s m _).trans (handModule_tame m _)

theorem superviseModule_tame (m : Module) (s : State) : Tame s (superviseModule m s) := by
  unfold superviseModule
  dsimp only
  split
  · exact ((setModule_tame s m _).trans (handModule_tame m _)).trans (queueNotice_tame _ _ _)
  · exact .refl s

theorem applyModule_tame (f : ModuleForm) (s : State) : Tame s (applyModule f s) := by
  have supervised := fun x => (setModule_tame s f.module x).trans (superviseModule_tame f.module _)
  unfold applyModule
  dsimp only
  split
  · exact (supervised _).trans (staleModule_tame _ _)
  · exact supervised _

theorem badModuleFrame_tame (m : Module) (s : State) : Tame s (badModuleFrame m s) :=
  (setModule_tame s m _).trans (superviseModule_tame m _)

theorem takeDirect_tame (p : DirectPoint) (v : Int) (s : State) : Tame s (takeDirect p v s) :=
  (setDirect_tame s p _).trans (handPoint_tame _ _)

theorem faultDirect_tame (p : DirectPoint) (s : State) : Tame s (faultDirect p s) :=
  ((setDirect_tame s p _).trans (handPoint_tame _ _)).trans (queueNotice_tame _ _ _)

theorem recoverDirect_tame (p : DirectPoint) (v : Int) (s : State) : Tame s (recoverDirect p v s) := by
  unfold recoverDirect
  dsimp only
  split
  · exact setDirect_tame s p _
  · split
    · exact takeDirect_tame p v s
    · exact setDirect_tame s p _

theorem handDrift_tame (s : State) : Tame s (handDrift s) := (handPoint_tame _ s).trans (handPoint_tame _ _)

theorem drift_tame (s : State) (d : DriftState) : Tame s { s with drift := d } :=
  .of_tables rfl rfl rfl rfl rfl rfl rfl rfl

theorem driftNote_tame (d : Int) (s : State) : Tame s (driftNote d s) := by
  unfold driftNote
  split
  · exact .refl s
  · split
    · dsimp only
      split
      · exact (drift_tame s _).trans (handDrift_tame _)
      · exact drift_tame s _
    · split
      · exact (drift_tame s _).trans (handDrift_tame _)
      · exact .refl s

theorem seedDrift_tame (x y : Int) (s : State) : Tame s (seedDrift x y s) :=
  (drift_tame s _).trans (handDrift_tame _)

theorem depth_tame (s : State) (d : DepthState) : Tame s { s with depth := d } :=
  .of_tables rfl rfl rfl rfl rfl rfl rfl rfl

theorem measureDepth_tame (d : Int) (s : State) : Tame s (measureDepth d s) :=
  (driftNote_tame d s).trans
    ((depth_tame (driftNote d s) { (driftNote d s).depth with value := some d, status := .valid, stale := some 0 }).trans
      (handPoint_tame depPoint _))

theorem staleDepth_tame (s : State) : Tame s (staleDepth s) :=
  (depth_tame s _).trans (handPoint_tame _ _)

theorem applyDepthStale_tame (n : Nat) (s : State) : Tame s (applyDepthStale n s) := by
  have limit := depth_tame s { s.depth with staleLimit := n }
  unfold applyDepthStale
  dsimp only
  split
  · exact limit.trans (staleDepth_tame _)
  · exact limit

/-! ### Lanes -/

theorem setLowest_tame {s : State} (run : s.mode = .run) (a : Actuator) (c : Cls) : Tame s (setLowest a c s) := by
  unfold setLowest
  split
  · exact .refl s
  · exact resolveOn_tame run (fun _ => ⟨rfl, rfl, rfl, rfl⟩) fun _ => ⟨rfl, rfl⟩

theorem setMask_tame {s : State} (run : s.mode = .run) (a : Actuator) (c : Cls) (on : Bool) :
    Tame s (setMask a c on s) := by
  unfold setMask
  split
  · exact .refl s
  · exact resolveOn_tame run (fun _ => ⟨rfl, rfl, rfl, rfl⟩) fun _ => ⟨rfl, rfl⟩

theorem setYield_tame {s : State} (run : s.mode = .run) (a : Actuator) (on : Bool) : Tame s (setYield a on s) := by
  unfold setYield
  split
  · exact .refl s
  · exact resolveOn_tame run (fun _ => ⟨rfl, rfl, rfl, rfl⟩) fun _ => ⟨rfl, rfl⟩

/-! ### Placements and the plan -/

/-- A placement that finds no slot answers with the state as it was. -/
theorem placed_tame {s : State} {o : Order} (run : s.mode = .run) (drives : (s.lane o.actuator).state ≠ .down)
    (fits : targetOk s o.actuator o.target = true) : Tame s (placed o s).st := by
  have := placeOrder_tame run drives fun _ => fits
  unfold placed
  split
  · next h => rw [h] at this; exact this
  · exact .refl s

theorem issueOne_tame (w : IssueSet) (r : IssueRun) (a : Actuator) (run : r.st.mode = .run) :
    Tame r.st (issueOne w r a).st := by
  unfold issueOne
  dsimp only
  split
  · exact .refl _
  · split
    · exact .refl _
    · next drives =>
      split
      · exact .refl _
      · split
        · next takes =>
          rw [Bool.and_eq_true] at takes
          exact placeOrder_tame run drives fun _ => takes.1
        · exact forceActuator_tame a r.st

theorem internalIssue_tame (w : IssueSet) {s : State} (run : s.mode = .run) : Tame s (internalIssue w s).st :=
  List.foldlRecOn (motive := fun r : IssueRun => Tame s r.st) allActuators _ (Tame.refl s)
    fun r h a _ => h.trans (issueOne_tame w r a (h.mode.trans run))

theorem linkLoss_tame {s : State} (run : s.mode = .run) : Tame s (linkLoss s) := by
  have tethered : Tame s (allSlots.foldl (fun s i => match s.orderAt i with
      | some o => if o.tethered then retire i .linkLost s else s
      | none => s) s) := by
    refine Tame.foldl (fun s i => ?_) allSlots s
    split
    · split
      · exact retire_tame _ _ s
      · exact .refl s
    · exact .refl s
  exact tethered.trans (internalIssue_tame _ (tethered.mode.trans run))

theorem spawnFailure_none {s : State} {x : PlanEntry} (spawns : s.spawnFailure x = none) :
    (s.lane x.actuator).state ≠ .down ∧ targetOk s x.actuator x.target = true := by
  unfold State.spawnFailure at spawns
  split at spawns
  · cases spawns
  · next drives =>
    split at spawns
    · cases spawns
    · next fits => exact ⟨drives, by simpa using fits⟩

theorem spawn_tame {s : State} (run : s.mode = .run) (e : EntryIx) : Tame s (spawn e s) := by
  unfold spawn
  split
  · exact .refl s
  · next x _ =>
    split
    · exact (setEntryState_tame (.inl run)).trans (queueNotice_tame _ _ _)
    · next spawns =>
      obtain ⟨drives, fits⟩ := spawnFailure_none spawns
      have placed := placeOrder_tame (o := planOrder s.active e x) run drives fun _ => fits
      split
      · next h =>
        rw [h] at placed
        exact placed.trans (setEntryState_tame (.inl (placed.mode.trans run)))
      · next h => rw [h] at placed; exact placed

theorem overEntries_tame {f : EntryIx → PlanEntry → State → State}
    (hf : ∀ e x (s : State), s.mode = .run → Tame s (f e x s)) {s : State} (run : s.mode = .run) :
    Tame s (overEntries f s) := by
  refine List.foldlRecOn allEntries _ (Tame.refl s) fun t h e _ => h.trans ?_
  split
  · exact hf _ _ t (h.mode.trans run)
  · exact .refl t

theorem evaluateBank_tame {s : State} (run : s.mode = .run) : Tame s (evaluateBank s) := by
  have placed : Tame s (placeEntries s.depth.value s) :=
    overEntries_tame (fun _ _ _ run => setEntryState_tame (.inl run)) run
  unfold evaluateBank spawnEntries
  split
  · exact placed
  · refine placed.trans (overEntries_tame (fun e x s run => ?_) (placed.mode.trans run))
    split
    · exact spawn_tame run e
    · exact .refl s

theorem noteRetire_tame (d : Int) (e : EntryIx) (x : PlanEntry) (s : State) (run : s.mode = .run) :
    Tame s (noteRetire d e x s) := by
  unfold noteRetire
  split
  · next h _ =>
    split
    · exact .refl s
    · have retired : Tame s (if (s.order? h).isSome then retire h.slot .outOfBand s else s) := by
        split
        · exact retire_tame _ _ s
        · exact .refl s
      exact retired.trans (setEntryState_tame (.inl (retired.mode.trans run)))
  · exact .refl s

theorem noteRearm_tame (d : Int) (e : EntryIx) (x : PlanEntry) (s : State) (run : s.mode = .run) :
    Tame s (noteRearm d e x s) := by
  have moved : Tame s (if x.holds d then s else s.setEntryState s.active e (x.position d)) := by
    split
    · exact .refl s
    · exact setEntryState_tame (.inl run)
  unfold noteRearm
  split
  · exact moved
  · exact moved
  · exact .refl s

theorem noteSpawn_tame (d : Int) (e : EntryIx) (x : PlanEntry) (s : State) (run : s.mode = .run) :
    Tame s (noteSpawn d e x s) := by
  have moved : Tame s (if x.holds d then spawn e s else s.setEntryState s.active e (x.position d)) := by
    split
    · exact spawn_tame run e
    · exact setEntryState_tame (.inl run)
  unfold noteSpawn
  split
  · exact moved
  · exact moved
  · exact .refl s

theorem planNote_tame (d : Int) (s : State) : Tame s (planNote d s) := by
  unfold planNote
  split
  · next run =>
    have retired := overEntries_tame (noteRetire_tame d) run
    have rearmed := retired.trans (overEntries_tame (noteRearm_tame d) (retired.mode.trans run))
    exact rearmed.trans (overEntries_tame (noteSpawn_tame d) (rearmed.mode.trans run))
  · exact .refl s

theorem active_tame (s : State) (b : BankIx) : Tame s { s with active := b } :=
  .of_tables rfl rfl rfl rfl rfl rfl rfl rfl

theorem swapRetire_tame (e : EntryIx) (x : PlanEntry) (s : State) : Tame s (swapRetire e x s) := by
  unfold swapRetire
  split
  · split
    · exact retire_tame _ _ s
    · exact .refl s
  · exact .refl s

theorem swapBanks_tame (s : State) : Tame s (swapBanks s) := by
  unfold swapBanks
  dsimp only
  split
  · next run =>
    have slept := (overEntries_tame (fun e x s _ => swapRetire_tame e x s) run).trans (sleepBank_tame s.active _)
    generalize sleepBank s.active (overEntries swapRetire s) = t at slept ⊢
    exact (slept.trans (active_tame t t.shadow)).trans (evaluateBank_tame (slept.mode.trans run))
  · exact active_tame s _

/-! ### The link -/

theorem enterLost_tame (sending : Bool) (s : State) : Tame s (enterLost sending s) := by
  have port : Tame s { s with
      link := { s.link with state := .lost, silence := none }, pair := .free, finishing := sending } := port_tame rfl
  unfold enterLost
  dsimp only
  split
  · next run => exact port.trans (linkLoss_tame run)
  · exact port

theorem takeBadFrame_tame (s : State) : Tame s (takeBadFrame s) := by
  unfold takeBadFrame
  dsimp only
  generalize (if s.link.badCount < 255 then s.link.badCount + 1 else 255) = n
  have port : Tame s { s with link := { s.link with badCount := n }, rx := .hunting, collided := false } :=
    port_tame rfl
  split
  · split
    · exact port.trans (enterLost_tame _ _)
    · exact port.trans (port_tame rfl)
  · exact port.trans (port_tame rfl)

theorem startRun_obeys {s : State} (setup : s.mode = .setup) : Obeys s (startRun s).st := by
  have run : (startLanes s).mode = .run := (startLanes_steady { s with mode := .run }).store.1
  have lanes : Obeys s (startLanes s) := ⟨(Act.starts setup).runs, fun agree => startLanes_laws setup agree.1⟩
  rw [startRun_eq]
  exact lanes.trans (evaluateBank_tame run).toObeys

end Sys2Proof.Machine
end

section
/-! The limits, the targets and the commands through every command, and a step. -/

namespace Sys2Proof.Machine

/-! ### Requests -/

theorem request_obeys {kind : Byte} {r : Req} {s t : State} {block : State → Reply} (h : ∀ u, Obeys u (block u).st)
    (e : request kind r s block = .next t) : Obeys s t := by
  unfold request at e
  split at e <;> cases e
  · have before : Tame s (takeValidFrame s) := port_tame rfl
    exact (before.toObeys.trans (h _)).trans (port_tame rfl).toObeys
  · exact (takeBadFrame_tame s).toObeys

/-- A request that reports and changes nothing. -/
theorem report_obeys {kind : Byte} {r : Req} {s t : State} {block : State → Reply}
    (e : request kind r s block = .next t) (h : ∀ u, (block u).st = u) : Obeys s t :=
  request_obeys (fun u => by rw [h]; exact .refl u) e

theorem inRun_obeys {s : State} {k : Reply} (h : s.mode = .run → Obeys s k.st) : Obeys s (inRun s k).st :=
  inRun_keeps h (.refl s)

theorem inSetup_obeys {s : State} {k : Reply} (h : s.mode = .setup → Obeys s k.st) : Obeys s (inSetup s k).st :=
  inSetup_keeps h (.refl s)

theorem admitting_obeys {ok : Bool} {s : State} {k : Reply} (h : Obeys s k.st) : Obeys s (admitting ok s k).st :=
  admitting_keeps h (.refl s)

theorem formed_obeys {α : Type} {f : Option α} {s : State} {k : α → Reply} (h : ∀ x, Obeys s (k x).st) :
    Obeys s (formed f s k).st := formed_keeps (fun x _ => h x) (.refl s)

theorem checked_obeys {α : Type} {e : Except Code α} {s : State} {k : α → Reply} (h : ∀ x, e = .ok x → Obeys s (k x).st) :
    Obeys s (checked e s k).st := checked_keeps h (.refl s)

theorem reached_obeys {h : Handle} {s : State} {k : Order → Reply} (hk : ∀ o, s.order? h = some o → Obeys s (k o).st) :
    Obeys s (reached h s k).st := reached_keeps hk (.refl s)

theorem done_obeys {s t : State} {b : List Byte} (h : Tame s t) : Obeys s (done t b).st := h.toObeys

/-! ### Orders -/

theorem execPlace_obeys {r : Req} {s t : State} (e : execPlace r s = .next t) : Obeys s t := by
  unfold execPlace at e
  exact request_obeys (fun _ => inRun_obeys fun run => formed_obeys fun _ => checked_obeys fun _ ho =>
    (placed_tame run (checkPlace_drives ho) (checkPlace_fits ho)).toObeys) e

theorem execIssue_obeys {r : Req} {s t : State} (e : execIssue r s = .next t) : Obeys s t := by
  unfold execIssue at e
  exact request_obeys (fun _ => inRun_obeys fun run => formed_obeys fun _ => checked_obeys fun _ ho =>
    (placed_tame run (checkIssue_drives ho) (checkIssue_fits ho)).toObeys) e

theorem execAmend_obeys {r : Req} {s t : State} (e : execAmend r s = .next t) : Obeys s t := by
  unfold execAmend at e
  refine request_obeys (fun u => inRun_obeys fun _ => formed_obeys fun f => checked_obeys fun h _ => reached_obeys fun o live => ?_) e
  split
  · exact checked_obeys fun _ ok => (amendOrder_tame live ok).toObeys
  · exact .refl u

/-- A new lease (R24). -/
theorem renew_tame (i : Slot) (l : Option Lease) (s : State) : Tame s (s.updOrder i fun o => { o with lease := l }) := by
  have stands : Stands s (s.updOrder i fun o => { o with lease := l }) := updOrder_stands fun _ => ⟨rfl, rfl, rfl⟩
  refine stands.tame ⟨fun a => by rw [updOrder_lane], fun a => by
    rw [updOrder_lane]; exact ⟨rfl, rfl⟩, by simp, fun j p live => ?_⟩
  rw [orderAt_updOrder] at live
  split at live
  · next same =>
    obtain ⟨o, before, rfl⟩ := Option.map_eq_some_iff.1 live
    exact ⟨o, same ▸ before, rfl, rfl⟩
  · exact ⟨p, live, rfl, rfl⟩

theorem execRenew_obeys {r : Req} {s t : State} (e : execRenew r s = .next t) : Obeys s t := by
  unfold execRenew at e
  refine request_obeys (fun u => inRun_obeys fun _ => formed_obeys fun f => checked_obeys fun h _ => reached_obeys fun o _ => ?_) e
  split
  · exact done_obeys (renew_tame _ _ u)
  · exact .refl u

theorem execWithdraw_obeys {r : Req} {s t : State} (e : execWithdraw r s = .next t) : Obeys s t := by
  unfold execWithdraw at e
  refine request_obeys (fun u => inRun_obeys fun _ => formed_obeys fun f => checked_obeys fun h _ => reached_obeys fun o _ => ?_) e
  split
  · exact (retire_tame h.slot .withdrawn u).toObeys
  · exact .refl u

/-! ### The plan store -/

theorem execDepth_obeys {r : Req} {s t : State} (e : execDepth r s = .next t) : Obeys s t := by
  unfold execDepth at e
  exact request_obeys (fun u => admitting_obeys (formed_obeys fun d => checked_obeys fun _ _ =>
    done_obeys ((measureDepth_tame d u).trans (planNote_tame d _)))) e

theorem execPutEntry_obeys {r : Req} {s t : State} (e : execPutEntry r s = .next t) : Obeys s t := by
  unfold execPutEntry at e
  refine request_obeys (fun u => admitting_obeys (formed_obeys fun f => checked_obeys fun (en, x) hx => ?_)) e
  dsimp only
  split
  · exact .refl u
  · exact ((setEntry_stands (.inr fun y hy => by cases hy; exact checkEntry_dormant hx)).aside rfl rfl rfl).toObeys

theorem dropEntry_tame (s : State) (b : BankIx) (e : EntryIx) : Tame s (s.setEntry b e none) :=
  (dropEntry_stands s b e).aside rfl rfl rfl

theorem emptyBank_tame (b : BankIx) (s : State) : Tame s (emptyBank b s) :=
  Tame.foldl (fun s e => dropEntry_tame s b e) allEntries s

/-! ### The map -/

theorem execMapActuator_obeys {r : Req} {s t : State} (e : execMapActuator r s = .next t) : Obeys s t := by
  unfold execMapActuator at e
  exact request_obeys (fun u => admitting_obeys (formed_obeys fun f => checked_obeys fun (a, c) hx => by
    obtain ⟨kind, ok, free⟩ := checkMap_ok hx
    exact ⟨(Act.maps kind ok free).runs, fun _ => applyMap_laws a c u⟩)) e

theorem execSpare_obeys {r : Req} {s t : State} (e : execSpare r s = .next t) : Obeys s t := by
  unfold execSpare at e
  exact request_obeys (fun u => admitting_obeys (formed_obeys fun f => checked_obeys fun (a, c) hx =>
    ((setMap_stands (x := { u.mapAt a with spare := c }) rfl (.inr (checkSpare_kind hx))).aside rfl rfl rfl).toObeys)) e

theorem setFrozen_obeys (r : Req) (on : Bool) (s : State) : Obeys s (setFrozen r on s).st :=
  admitting_obeys (formed_obeys fun _ => checked_obeys fun a _ =>
    ((setMap_stands (x := { s.mapAt a with frozen := on }) rfl (.inl rfl)).aside rfl rfl rfl).toObeys)

theorem clearFault_tame (c : Chan) (s : State) : Tame s (s.setChan c { s.chan c with fault := none }) :=
  (clearFault_stands c s).aside rfl rfl rfl

/-! ### Every request -/

theorem execSetDrift_obeys {r : Req} {s t : State} (e : execSetDrift r s = .next t) : Obeys s t := by
  unfold execSetDrift at e
  refine request_obeys (fun u => admitting_obeys (formed_obeys fun f => checked_obeys fun _ _ => ?_)) e
  exact done_obeys (seedDrift_tame f.1 f.2 u)

theorem execSetCalibration_obeys {r : Req} {s t : State} (e : execSetCalibration r s = .next t) : Obeys s t := by
  unfold execSetCalibration at e
  refine request_obeys (fun u => inSetup_obeys fun _ => admitting_obeys (formed_obeys fun f => checked_obeys fun a _ => ?_)) e
  exact done_obeys (.of_tables rfl rfl rfl rfl rfl rfl rfl rfl)

theorem applyLink_tame (f : Option Nat × Option Nat) (s : State) : Tame s (applyLink f s) := by
  unfold applyLink
  exact port_tame rfl

theorem execSetLink_obeys {r : Req} {s t : State} (e : execSetLink r s = .next t) : Obeys s t := by
  unfold execSetLink at e
  refine request_obeys (fun u => inSetup_obeys fun _ => admitting_obeys (formed_obeys fun f => checked_obeys fun _ _ => ?_)) e
  exact (applyLink_tame f u).toObeys

theorem execStart_obeys {r : Req} {s t : State} (e : execStart r s = .next t) : Obeys s t := by
  unfold execStart at e
  refine request_obeys (fun u => inSetup_obeys fun setup => admitting_obeys (formed_obeys fun _ => ?_)) e
  exact StepKeeps.done_keeps (P := Obeys u) (startRun_obeys setup)

theorem restartRun_obeys (s : State) : Obeys s (restartRun s) := ⟨Act.restarts.runs, fun _ => restartRun_laws s⟩

theorem execSetLimits_obeys {r : Req} {s t : State} (e : execSetLimits r s = .next t) : Obeys s t := by
  unfold execSetLimits at e
  refine request_obeys (fun u => inSetup_obeys fun setup => admitting_obeys (formed_obeys fun f => checked_obeys fun a ok => ?_)) e
  exact (setLimits_tame ok setup).toObeys

theorem execStatus_obeys {r : Req} {s t : State} (e : execStatus r s = .next t) : Obeys s t := by
  unfold execStatus at e
  refine request_obeys (fun u => formed_obeys fun _ => ?_) e
  exact done_obeys (.of_tables rfl rfl rfl rfl rfl rfl rfl rfl)

theorem execUnknownRequest_obeys {r : Req} {kind : Byte} {s t : State} (e : execUnknownRequest r kind s = .next t) :
    Obeys s t := by
  unfold execUnknownRequest at e
  split at e
  · cases e; exact .refl s
  · exact report_obeys e fun _ => rfl

theorem requests_obeys : ∀ c r k s t, frameOf c = some (r, k) → exec c s = .next t → Obeys s t := by
  intro c r k s t f e
  cases c with
  | place r => exact execPlace_obeys e
  | issue r => exact execIssue_obeys e
  | amend r => exact execAmend_obeys e
  | renew r => exact execRenew_obeys e
  | withdraw r => exact execWithdraw_obeys e
  | query r =>
    unfold exec execQuery at e
    exact report_obeys e fun _ => StepKeeps.formed_reports fun _ => StepKeeps.checked_reports fun _ =>
      StepKeeps.reached_reports fun _ => rfl
  | list r =>
    unfold exec execList at e
    exact report_obeys e fun _ => StepKeeps.formed_reports fun _ => StepKeeps.checked_reports fun (_, _) => rfl
  | lowest r =>
    unfold exec execLowest at e
    exact request_obeys (fun u => inRun_obeys fun run => admitting_obeys (formed_obeys fun f => checked_obeys fun a _ =>
      (setLowest_tame run a f.2).toObeys)) e
  | mask r =>
    unfold exec execMask at e
    exact request_obeys (fun u => inRun_obeys fun run => admitting_obeys (formed_obeys fun f => checked_obeys fun a _ =>
      (setMask_tame run a f.2 true).toObeys)) e
  | unmask r =>
    unfold exec execUnmask at e
    exact request_obeys (fun u => inRun_obeys fun run => admitting_obeys (formed_obeys fun f => checked_obeys fun a _ =>
      (setMask_tame run a f.2 false).toObeys)) e
  | yield r =>
    unfold exec execYield at e
    exact request_obeys (fun u => inRun_obeys fun run => admitting_obeys (formed_obeys fun f => checked_obeys fun a _ =>
      (setYield_tame run a f.2).toObeys)) e
  | view r =>
    unfold exec execView at e
    exact report_obeys e fun _ => StepKeeps.formed_reports fun _ => StepKeeps.checked_reports fun _ => rfl
  | setLimits r => exact execSetLimits_obeys e
  | setSettle r =>
    unfold exec execSetSettle at e
    exact request_obeys (fun u => inSetup_obeys fun _ => admitting_obeys (formed_obeys fun f => checked_obeys fun a _ =>
      (applySettle_tame a f u).toObeys)) e
  | setInterlock r =>
    unfold exec execSetInterlock at e
    exact request_obeys (fun u => inSetup_obeys fun setup => admitting_obeys (formed_obeys fun f => checked_obeys fun w ok =>
      (applyInterlock_tame ok setup).toObeys)) e
  | depth r => exact execDepth_obeys e
  | setDrift r => exact execSetDrift_obeys e
  | readPoints r =>
    unfold exec execReadPoints at e
    exact report_obeys e fun _ => StepKeeps.formed_reports fun _ => StepKeeps.checked_reports fun _ => rfl
  | setModule r =>
    unfold exec execSetModule at e
    exact request_obeys (fun u => inSetup_obeys fun _ => admitting_obeys (formed_obeys fun f => checked_obeys fun _ _ =>
      (applyModule_tame f u).toObeys)) e
  | setDepthStale r =>
    unfold exec execSetDepthStale at e
    exact request_obeys (fun u => inSetup_obeys fun _ => admitting_obeys (formed_obeys fun n => checked_obeys fun _ _ =>
      (applyDepthStale_tame n u).toObeys)) e
  | putEntry r => exact execPutEntry_obeys e
  | dropEntry r =>
    unfold exec execDropEntry at e
    exact request_obeys (fun u => admitting_obeys (formed_obeys fun _ => checked_obeys fun en _ =>
      (dropEntry_tame u _ en).toObeys)) e
  | clearShadow r =>
    unfold exec execClearShadow at e
    exact request_obeys (fun u => admitting_obeys (formed_obeys fun _ => (emptyBank_tame _ u).toObeys)) e
  | readEntry r =>
    unfold exec execReadEntry at e
    exact report_obeys e fun _ => StepKeeps.admitting_reports (StepKeeps.formed_reports fun _ =>
      StepKeeps.checked_reports fun _ => rfl)
  | swap r =>
    unfold exec execSwap at e
    exact request_obeys (fun u => admitting_obeys (formed_obeys fun _ => (swapBanks_tame u).toObeys)) e
  | mapActuator r => exact execMapActuator_obeys e
  | spare r => exact execSpare_obeys e
  | freezeMap r =>
    unfold exec execFreezeMap at e
    exact request_obeys (setFrozen_obeys r true) e
  | thaw r =>
    unfold exec execThaw at e
    exact request_obeys (setFrozen_obeys r false) e
  | clearFault r =>
    unfold exec execClearFault at e
    exact request_obeys (fun u => admitting_obeys (formed_obeys fun _ => checked_obeys fun c _ =>
      (clearFault_tame c u).toObeys)) e
  | setLocal r =>
    unfold exec execSetLocal at e
    exact request_obeys (fun u => admitting_obeys (formed_obeys fun f => checked_obeys fun c _ =>
      (setLocalDuty_tame c f.2 u).toObeys)) e
  | forceLocal r =>
    unfold exec execForceLocal at e
    exact request_obeys (fun u => admitting_obeys (formed_obeys fun _ => checked_obeys fun c _ =>
      ((forceChan_stands c u).aside rfl rfl rfl).toObeys)) e
  | restore r =>
    unfold exec execRestore at e
    exact request_obeys (fun u => admitting_obeys (formed_obeys fun _ => checked_obeys fun c _ =>
      (restoreChan_tame c u).toObeys)) e
  | readChannel r =>
    unfold exec execReadChannel at e
    exact report_obeys e fun _ => StepKeeps.formed_reports fun _ => StepKeeps.checked_reports fun _ => rfl
  | setCalibration r => exact execSetCalibration_obeys e
  | putTemplate r =>
    unfold exec execPutTemplate at e
    exact request_obeys (fun u => admitting_obeys (formed_obeys fun _ => checked_obeys fun (_, _) _ =>
      done_obeys (.of_tables rfl rfl rfl rfl rfl rfl rfl rfl))) e
  | readTemplate r =>
    unfold exec execReadTemplate at e
    exact report_obeys e fun _ => StepKeeps.formed_reports fun _ => StepKeeps.checked_reports fun _ => rfl
  | setFallback r =>
    unfold exec execSetFallback at e
    exact request_obeys (fun u => admitting_obeys (formed_obeys fun _ => checked_obeys fun (_, _) _ =>
      done_obeys (.of_tables rfl rfl rfl rfl rfl rfl rfl rfl))) e
  | setHalt r =>
    unfold exec execSetHalt at e
    exact request_obeys (fun u => admitting_obeys (formed_obeys fun _ => checked_obeys fun (_, _) _ =>
      done_obeys (.of_tables rfl rfl rfl rfl rfl rfl rfl rfl))) e
  | halt r =>
    unfold exec execHalt at e
    exact request_obeys (fun u => inRun_obeys fun run => admitting_obeys (formed_obeys fun _ =>
      done_obeys (internalIssue_tame .halt run))) e
  | setLink r => exact execSetLink_obeys e
  | start r => exact execStart_obeys e
  | restart r =>
    unfold exec execRestart at e
    exact request_obeys (fun u => inRun_obeys fun _ => admitting_obeys (formed_obeys fun _ => restartRun_obeys u)) e
  | status r => exact execStatus_obeys e
  | unknownRequest r kind => exact execUnknownRequest_obeys e
  | _ => cases f

/-! ### The events -/

theorem listen_tame (rx : Receiver) (s : State) : Tame s (listen rx s) := by
  unfold listen
  split
  · exact port_tame rfl
  · exact port_tame rfl

theorem takeBytes_obeys {bytes : List Byte} {s t : State} (e : takeBytes bytes s = .next t) : Obeys s t :=
  takeBytes_keeps (P := Obeys s) (fun u rx h => h.trans (listen_tame rx u).toObeys)
    (fun u h => h.trans (takeBadFrame_tame u).toObeys) (fun c r k u v f e h => h.trans (requests_obeys c r k u v f e))
    bytes s t e (.refl s)

theorem execInterByteTimeout_obeys {bytes : List Byte} {s t : State} (e : execInterByteTimeout bytes s = .next t) :
    Obeys s t := by
  unfold execInterByteTimeout at e
  split at e
  · next u hu =>
    have taken := takeBytes_obeys hu
    split at e <;> obtain rfl := Host.Outcome.next.inj e
    · exact taken
    · exact taken.trans (takeBadFrame_tame u).toObeys
  · next o ho => exact absurd e (ho t)

theorem execSilenceExpiry_obeys {s t : State} (e : execSilenceExpiry s = .next t) : Obeys s t := by
  unfold execSilenceExpiry at e
  split at e <;> obtain rfl := Host.Outcome.next.inj e
  · exact (enterLost_tame _ s).toObeys
  · exact .refl s

theorem execFrameSent_obeys {s t : State} (e : execFrameSent s = .next t) : Obeys s t := by
  unfold execFrameSent at e
  split at e
  · cases e; exact .refl s
  · split at e <;> obtain rfl := Host.Outcome.next.inj e
    · exact (port_tame rfl).toObeys
    · exact .refl s

theorem execLeaseExpiry_obeys {h : Handle} {s t : State} (e : execLeaseExpiry h s = .next t) : Obeys s t := by
  unfold execLeaseExpiry at e
  split at e
  · split at e <;> obtain rfl := Host.Outcome.next.inj e
    · exact (retire_tame _ _ s).toObeys
    · exact .refl s
  · cases e; exact .refl s

/-- The control interval timer starts again (R57). -/
theorem interval_tame {a : Actuator} {s : State} (due : (s.lane a).intervalDue = true) :
    Tame s (s.updLane a fun l => { l with interval := some 0 }) := by
  have stands : Stands s (s.updLane a fun l => { l with interval := some 0 }) :=
    updLane_stands ⟨rfl, rfl, rfl, rfl, rfl, fun _ => id, fun _ none => by simp [Lane.intervalDue, none] at due, fun _ => id⟩
  refine stands.tame ⟨fun b => ?_, fun b => ?_, rfl, fun _ p live => ⟨p, live, rfl, rfl⟩⟩
  · rw [lane_updLane]
    split
    · next same => rw [same]
    · rfl
  · rw [lane_updLane]
    split
    · next same => rw [same]; exact ⟨rfl, rfl⟩
    · exact ⟨rfl, rfl⟩

theorem execControlInterval_obeys {a : Actuator} {s t : State} (e : execControlInterval a s = .next t) : Obeys s t := by
  unfold execControlInterval at e
  split at e <;> obtain rfl := Host.Outcome.next.inj e
  · next due =>
    exact ((interval_tame due).trans (moveCommand_tame a _)).toObeys
  · exact .refl s

theorem execSettleDwellExpiry_obeys {a : Actuator} {s t : State} (e : execSettleDwellExpiry a s = .next t) : Obeys s t := by
  unfold execSettleDwellExpiry at e
  split at e
  · next driven governs =>
    split at e <;> obtain rfl := Host.Outcome.next.inj e
    · have detects : Tame s (setDetector a .settled s) := setDetector_tame (.inl (by rw [driven]; simp))
      exact (detects.trans (settleOrder_tame (governing_eq_some.1 governs).2)).toObeys
    · exact .refl s
  · cases e; exact .refl s

theorem execGateTravelComplete_obeys {s t : State} (e : execGateTravelComplete s = .next t) : Obeys s t := by
  unfold execGateTravelComplete at e
  split at e <;> obtain rfl := Host.Outcome.next.inj e
  · next due =>
    have completes : Tame s { s with travel := .complete } :=
      (travel_stands fun _ cleared => by simp [State.travelDue, cleared] at due).aside rfl rfl rfl
    exact (completes.trans (settleGate_tame _)).toObeys
  · exact .refl s

theorem execGuardDwellExpiry_obeys {h : Handle} {g : Fin 2} {s t : State} (e : execGuardDwellExpiry h g s = .next t) :
    Obeys s t := by
  unfold execGuardDwellExpiry at e
  split at e
  · cases e; exact .refl s
  · split at e
    · cases e; exact .refl s
    · split at e <;> obtain rfl := Host.Outcome.next.inj e
      · exact (guardAct_tame _ _ _ s).toObeys
      · exact .refl s

theorem execModuleStaleExpiry_obeys {m : Module} {s t : State} (e : execModuleStaleExpiry m s = .next t) : Obeys s t := by
  unfold execModuleStaleExpiry at e
  split at e <;> obtain rfl := Host.Outcome.next.inj e
  · exact (staleModule_tame m s).toObeys
  · exact .refl s

theorem execDepthStaleExpiry_obeys {s t : State} (e : execDepthStaleExpiry s = .next t) : Obeys s t := by
  unfold execDepthStaleExpiry at e
  split at e <;> obtain rfl := Host.Outcome.next.inj e
  · exact (staleDepth_tame s).toObeys
  · exact .refl s

theorem execDirectSample_obeys {p : DirectPoint} {i : Nat} {v : Int} {s t : State}
    (e : execDirectSample p i v s = .next t) : Obeys s t := by
  unfold execDirectSample at e
  split at e <;> obtain rfl := Host.Outcome.next.inj e
  · exact (takeDirect_tame p _ s).toObeys
  · exact (takeDirect_tame p _ s).toObeys
  · exact (recoverDirect_tame p _ s).toObeys
  · exact (faultDirect_tame p s).toObeys
  · exact (faultDirect_tame p s).toObeys
  · exact (setDirect_tame s p _).toObeys

theorem execModuleReadingFrame_obeys {bytes : List Byte} {s t : State} (e : execModuleReadingFrame bytes s = .next t) :
    Obeys s t := by
  unfold execModuleReadingFrame at e
  split at e
  · cases e; exact .refl s
  · split at e
    · cases e; exact .refl s
    · split at e <;> obtain rfl := Host.Outcome.next.inj e
      · exact (goodFrame_tame _ _ s).toObeys
      · exact (badModuleFrame_tame _ s).toObeys

theorem execChannelFaultReport_obeys {c : Chan} {k : FaultKind} {s t : State}
    (e : execChannelFaultReport c k s = .next t) : Obeys s t := by
  unfold execChannelFaultReport at e
  dsimp only at e
  split at e
  · next acts =>
    split at e
    · next free =>
      cases e
      exact ((faulted_stands k fun a _ assigned _ => not_assigned_of_assignee free a assigned).aside rfl rfl rfl).toObeys
    · next a assigned =>
      split at e <;> obtain rfl := Host.Outcome.next.inj e
      · next sp spare =>
        obtain ⟨lanes, slots, interlocks⟩ := moveActuator_leaves a sp (faulted c k s)
        have moves : Obeys s (moveActuator a sp (faulted c k s)) :=
          ⟨(Act.moves acts.1 assigned spare).runs, fun _ => aside_laws lanes slots interlocks⟩
        exact moves.trans (queueNotice_tame _ _ _).toObeys
      · refine ⟨(Act.downs k acts.1 assigned).runs, fun agree => ?_⟩
        obtain ⟨commands, gates⟩ := actuatorDown_laws (a := a) (c := c) (s := faulted c k s) agree.law.namesOwn
        exact ⟨fun law => commands (law.unmoved (.of_tables rfl rfl rfl)), fun law => gates (law.aside rfl rfl)⟩
  · next idle =>
    cases e
    exact ((faulted_stands k fun _ run _ ok => idle ⟨run, ok⟩).aside rfl rfl rfl).toObeys

/-! ### Every command and every step -/

theorem powers_obeys (s : State) : Obeys s { State.reset with pending := s.pending, draws := s.draws } := by
  obtain ⟨-, -, -, -, -, -, -, -, -, commands, -, gates, -⟩ := lawsHoldAtReset
  exact ⟨Act.powers.runs, fun _ => ⟨fun _ => commands.unmoved (.of_tables rfl rfl rfl), fun _ => gates.aside rfl rfl⟩⟩

theorem exec_obeys : ∀ c s t, exec c s = .next t → Obeys s t := by
  intro c s t e
  cases c with
  | powerOn => cases e; exact powers_obeys s
  | badFrame bytes => exact takeBytes_obeys e
  | interByteTimeout bytes => exact execInterByteTimeout_obeys e
  | silenceExpiry => exact execSilenceExpiry_obeys e
  | frameSent => exact execFrameSent_obeys e
  | leaseExpiry h => exact execLeaseExpiry_obeys e
  | controlInterval a => exact execControlInterval_obeys e
  | settleDwellExpiry a => exact execSettleDwellExpiry_obeys e
  | gateTravelComplete => exact execGateTravelComplete_obeys e
  | guardDwellExpiry h g => exact execGuardDwellExpiry_obeys e
  | moduleStaleExpiry m => exact execModuleStaleExpiry_obeys e
  | depthStaleExpiry => exact execDepthStaleExpiry_obeys e
  | directSample p i v => exact execDirectSample_obeys e
  | moduleReadingFrame bytes => exact execModuleReadingFrame_obeys e
  | channelFaultReport c k => exact execChannelFaultReport_obeys e
  | unknownRequest r kind => exact execUnknownRequest_obeys e
  | _ => exact requests_obeys _ _ _ s t rfl e

theorem step_obeys {s t : State} (e : step s = .next t) : Obeys s t := by
  unfold step at e
  split at e
  · next rest _ =>
    have taken : Tame s { s with pending := rest } := port_tame rfl
    exact taken.toObeys.trans (exec_obeys _ _ _ e)
  · unfold idle at e
    split at e
    · cases e; exact (tick_tame s).toObeys
    · exact exec_obeys _ _ _ e
    · exact exec_obeys _ _ _ e
    · exact (draws_tame s (s.draws + 1)).toObeys.trans (exec_obeys _ _ _ e)

/-- Settles O60: along the chain of acts that a step is, with the lane law, which says what a lane names. -/
theorem everyStepKeepsCommandLaw : Obligations.EveryStepKeepsCommandLaw :=
  fun _ _ e setup lanes => (step_obeys e).laws ⟨setup, laneLaw_iff.1 lanes⟩

end Sys2Proof.Machine
end

section
/-! The control interval (R57) and the settle dwell (R62, R64). -/

namespace Sys2Proof.Machine

/-! ### The aim of a lane (R56, R68) -/

theorem clampedAim_iff {s : State} (creep : ∀ w, 0 ≤ (s.interlock w).creep) {a : Actuator} {raw g : Int} :
    clampedAim s a raw g ↔ g = s.creepClamp a raw := by
  refine ⟨fun aimed => ?_, fun e => e ▸ creepClamp_clampedAim s a raw⟩
  have other := creepClamp_clampedAim s a raw
  unfold clampedAim at aimed other
  split at aimed
  · next wheel =>
    have limit := creep ⟨a.val, wheel⟩
    rw [dif_pos wheel] at other
    dsimp only at aimed other
    split at aimed
    · next engaged =>
      rw [if_pos engaged] at other
      omega
    · next free =>
      rw [if_neg free] at other
      rw [aimed, other]
  · next not =>
    rw [dif_neg not] at other
    rw [aimed, other]

theorem aim_of_aimIs {s : State} (creep : ∀ w, 0 ≤ (s.interlock w).creep) {a : Actuator} (apart : a ≠ gate) {g : Int}
    {rate : Nat} (aims : aimIs s a g rate) : s.aim a = some (g, rate) := by
  rcases aims with ⟨rest, aimed, rfl⟩ | ⟨driven, h, o, gov, live, aimed, rfl⟩
  · rw [clampedAim_iff creep] at aimed
    simp only [State.aim, rest, toCommand_proportional apart, restAim_eq, aimed]
  · rw [clampedAim_iff creep] at aimed
    have governs : s.governing a = some (h, o) := governing_eq_some.2 ⟨gov, live⟩
    simp only [State.aim, driven, governs, toCommand_proportional apart, aimed]

theorem aim_held {s : State} {a : Actuator} (held : (s.lane a).state = .held) : s.aim a = none := by
  simp only [State.aim, held]

theorem stepToward_eq (g : Int) (rate : Nat) (c : Int) :
    stepToward g rate c = if (g - c).natAbs ≤ rate then g else if c < g then c + rate else c - rate := by
  unfold stepToward
  split_ifs <;> omega

/-! ### The control interval -/

/-- The control interval timer of the lane has started again. -/
def retimed (a : Actuator) (s : State) : State := s.updLane a fun l => { l with interval := some 0 }

theorem retimed_lane (a b : Actuator) (s : State) :
    (retimed a s).lane b = if b = a then { s.lane a with interval := some 0 } else s.lane b := lane_updLane s a _ b

theorem retimed_aim (a : Actuator) (s : State) : (retimed a s).aim a = s.aim a := by
  have lane := retimed_lane a a s
  rw [if_pos rfl] at lane
  have governs : (retimed a s).governing a = s.governing a := by
    unfold State.governing
    rw [lane]
    rfl
  unfold State.aim
  rw [governs, lane]
  rfl

theorem exec_interval_early {a : Actuator} {n : Nat} {s : State} (timer : (s.lane a).interval = some n) (early : n < 20) :
    exec (.controlInterval a) s = .next s := by
  show execControlInterval a s = _
  rw [execControlInterval, if_neg (by simp [Lane.intervalDue, timer]; omega)]

theorem exec_interval_due {a : Actuator} {n : Nat} {s : State} (timer : (s.lane a).interval = some n) (due : 20 ≤ n) :
    exec (.controlInterval a) s = .next (moveCommand a (retimed a s)) := by
  show execControlInterval a s = _
  rw [execControlInterval, if_pos (by simp [Lane.intervalDue, timer, due])]
  rfl

theorem moveCommand_gate (s : State) : moveCommand gate s = s := if_pos rfl

theorem moveCommand_none {a : Actuator} {s : State} (none : s.aim a = none) : moveCommand a s = s := by
  unfold moveCommand
  rw [none]
  split
  · rfl
  · cases (s.lane a).command <;> rfl

theorem moveCommand_some {a : Actuator} {s : State} (apart : a ≠ gate) {c g : Int} {rate : Nat}
    (command : (s.lane a).command = some c) (aim : s.aim a = some (g, rate)) : moveCommand a s =
      if stepToward g rate c = c then s else setCommand a (stepToward g rate c) s := by
  unfold moveCommand
  rw [if_neg fun kind => apart ((kindOf_gate_iff a).1 kind), command, aim]

/-- The lane of `a` with a new command, before its channel follows. -/
def commanding (a : Actuator) (v : Int) (s : State) : State := s.updLane a fun l => { l with command := some v }

theorem setCommand_eq (a : Actuator) (v : Int) (s : State) : setCommand a v s = handCommand a (commanding a v s) := rfl

theorem commanding_command (a : Actuator) (v : Int) (s : State) : ((commanding a v s).lane a).command = some v := by
  rw [commanding, lane_updLane, if_pos rfl]

/-- What a new command of a lane leaves: all but its command and the output of its channel (R57). -/
theorem setCommand_leaves (a : Actuator) (v : Int) (s : State) : BlocksKept s (setCommand a v s) ∧
    (setCommand a v s).slots = s.slots ∧ (setCommand a v s).banks = s.banks ∧ (setCommand a v s).travel = s.travel ∧
    (setCommand a v s).interlocks = s.interlocks ∧ (setCommand a v s).txQueue = s.txQueue ∧
    (setCommand a v s).noticesLost = s.noticesLost := by
  obtain ⟨slots, -, banks, queue, lost, travel⟩ := handCommand_leaves a (commanding a v s)
  have frame := setCommand_frame a v s
  exact ⟨frame.blocks, slots, banks, travel, frame.interlocks, queue, lost⟩

theorem setCommand_chan (a : Actuator) (v : Int) (s : State) {d : Chan} (other : (s.mapAt a).assigned ≠ some d) :
    (setCommand a v s).chan d = s.chan d := handCommand_chan a (commanding a v s) other

/-- The channel of a lane follows its new command in ORDER (R133). -/
theorem setCommand_output {a : Actuator} {v : Int} {s : State} {d : Chan} (assigned : (s.mapAt a).assigned = some d)
    (mode : (s.chan d).mode = .order) (assignee : s.assignee d = some a) :
    ((setCommand a v s).chan d).output = s.dutyOf a v := by
  have mode' : ((commanding a v s).chan d).mode = .order := mode
  rw [setCommand_eq, handCommand_assigned (s := commanding a v s) assigned, if_pos mode']
  exact outputOf_order mode' (s := commanding a v s) assignee (commanding_command a v s)

/-- Settles O29. An expiry starts the timer again and moves the command one step toward the aim of R56; the channel of a
changed command follows it. -/
theorem controlIntervalMovesTheCommand : Obligations.ControlIntervalMovesTheCommand := by
  intro a n s timer
  refine ⟨exec_interval_early timer, fun due still => ?_, fun c g rate due apart command aims creep => ?_⟩
  · rw [exec_interval_due timer due]
    rcases still with held | rfl
    · rw [moveCommand_none (by rw [retimed_aim, aim_held held])]
      rfl
    · rw [moveCommand_gate]
      rfl
  · have lane := retimed_lane a a s
    rw [if_pos rfl] at lane
    have others : ∀ b, b ≠ a → (retimed a s).lane b = s.lane b := fun b apart => by rw [retimed_lane, if_neg apart]
    have blocks : BlocksKept s (retimed a s) := by constructor <;> rfl
    rw [exec_interval_due timer due, moveCommand_some apart (by rw [lane]; exact command)
      ((retimed_aim a s).trans (aim_of_aimIs creep apart aims)), stepToward_eq]
    generalize (if (g - c).natAbs ≤ rate then g else if c < g then c + rate else c - rate) = v
    refine ⟨_, rfl, ?_⟩
    split
    · next same =>
      refine ⟨by rw [lane, same, ← command], others, fun _ _ => rfl, fun d _ => ⟨⟨rfl, rfl, rfl⟩, fun moved => absurd same moved⟩,
        blocks, rfl, rfl, rfl, rfl, rfl, rfl⟩
    · obtain ⟨kept, slots, banks, travel, interlocks, queue, lost⟩ := setCommand_leaves a v (retimed a s)
      refine ⟨by rw [setCommand_lane, if_pos rfl, lane], fun b other => by rw [setCommand_lane, if_neg other, others b other],
        fun d other => setCommand_chan a v (retimed a s) other, fun d assigned => ⟨(setCommand_frame a v _).tables.chans d,
          fun _ mode assignee => setCommand_output (s := retimed a s) assigned mode assignee⟩,
        blocks.trans kept, slots, banks, travel, interlocks, queue, lost⟩

/-! ### The settle dwell -/

/-- Settles O30. The settle of a STANDING order that nothing waits on writes its detector and its settled field alone. -/
theorem settleDwellExpirySettlesTheOrder : Obligations.SettleDwellExpirySettlesTheOrder := by
  intro a h o n s driven gov live detector
  have governs : s.governing a = some (h, o) := governing_eq_some.2 ⟨gov, live⟩
  refine ⟨fun early => ?_, fun due standing unawaited _ => ?_⟩
  · show execSettleDwellExpiry a s = _
    simp only [execSettleDwellExpiry, driven, governs]
    exact if_neg (by simp [Lane.dwellDue, detector]; omega)
  · show execSettleDwellExpiry a s = _
    simp only [execSettleDwellExpiry, driven, governs]
    rw [if_pos (by simp [Lane.dwellDue, detector, due]), settleOrder_standing (s := setDetector a .settled s) live standing unawaited,
      updOrder_eq (s := setDetector a .settled s) live]
    rfl

end Sys2Proof.Machine
end

section
/-! The requests of SETUP that store settings: their bodies read back, their checks, and the duties a calibration gives
(R66, R69 to R71, R134, R151, R178). -/

namespace Sys2Proof.Machine

/-! ### Bodies -/

theorem putOptS16_reads {x : Option Int} (fits : ∀ v, x = some v → fits16 v) :
    ∃ p v1 v0, putOptS16 x = [p, v1, v0] ∧ formOptS16 p v1 v0 = some x := by
  cases x with
  | none => exact ⟨0, 0, 0, rfl, rfl⟩
  | some v => exact ⟨1, _, _, rfl, congrArg (fun i => some (some i)) (s16_bytes (fits v rfl))⟩

theorem optU16_reads {x : Option Nat} (fits : ∀ n, x = some n → n < 65536) :
    ∃ p v1 v0, optU16 x = [p, v1, v0] ∧ formOptU16 p v1 v0 = some x := by
  cases x with
  | none => exact ⟨0, 0, 0, rfl, rfl⟩
  | some n => exact ⟨1, _, _, rfl, congrArg (fun i => some (some i)) (u16_bytes (fits n rfl))⟩

theorem putOptU8_reads {x : Option Nat} (fits : ∀ n, x = some n → n < 256) :
    ∃ p v, putOptU8 x = [p, v] ∧ formOptU8 p v = some x := by
  cases x with
  | none => exact ⟨0, 0, rfl, rfl⟩
  | some n => exact ⟨1, _, rfl, congrArg (fun i => some (some i)) (toNat_byte (fits n rfl))⟩

@[simp] theorem putOptS16_length (x : Option Int) : (putOptS16 x).length = 3 := by cases x <;> rfl

@[simp] theorem optU16_length (x : Option Nat) : (optU16 x).length = 3 := by cases x <;> rfl

@[simp] theorem putOptU8_length (x : Option Nat) : (putOptU8 x).length = 2 := by cases x <;> rfl

theorem actuator_byte (a : Actuator) : (BitVec.ofNat 8 a.val).toNat = a.val := toNat_byte (by omega)

theorem formLimits_bytes (a : Actuator) {lo hi : Int} (fitsLo : fits16 lo) (fitsHi : fits16 hi) :
    formLimits (putByte a.val ++ putS16 lo ++ putS16 hi) = some (a.val, lo, hi) := by
  show some ((BitVec.ofNat 8 a.val).toNat, s16 _ _, s16 _ _) = _
  rw [actuator_byte, s16_bytes fitsLo, s16_bytes fitsHi]

theorem formSettle_bytes (a : Actuator) {band : Option Int} {dwell travel : Option Nat}
    (given : (band.isSome || dwell.isSome || travel.isSome) = true) (fitsBand : ∀ v, band = some v → fits16 v)
    (fitsDwell : ∀ n, dwell = some n → n < 65536) (fitsTravel : ∀ n, travel = some n → n < 65536) :
    formSettle (putByte a.val ++ putOptS16 band ++ optU16 dwell ++ optU16 travel) = some ⟨a.val, band, dwell, travel⟩ := by
  obtain ⟨p, b1, b0, hb, fb⟩ := putOptS16_reads fitsBand
  obtain ⟨q, d1, d0, hd, fd⟩ := optU16_reads fitsDwell
  obtain ⟨r, t1, t0, ht, ft⟩ := optU16_reads fitsTravel
  rw [hb, hd, ht]
  simp only [putByte, List.cons_append, List.nil_append, formSettle, fb, fd, ft, Option.bind_eq_bind, Option.bind_some, given,
    if_true, actuator_byte]

theorem formInterlock_bytes (w : Fin 2) {pumpMin flowMin creep : Option Int}
    (given : (pumpMin.isSome || flowMin.isSome || creep.isSome) = true) (fitsPump : ∀ v, pumpMin = some v → fits16 v)
    (fitsFlow : ∀ v, flowMin = some v → fits16 v) (fitsCreep : ∀ v, creep = some v → fits16 v) :
    formInterlock (putByte w.val ++ putOptS16 pumpMin ++ putOptS16 flowMin ++ putOptS16 creep) =
      some ⟨w.val, pumpMin, flowMin, creep⟩ := by
  obtain ⟨p, b1, b0, hb, fb⟩ := putOptS16_reads fitsPump
  obtain ⟨q, d1, d0, hd, fd⟩ := putOptS16_reads fitsFlow
  obtain ⟨r, t1, t0, ht, ft⟩ := putOptS16_reads fitsCreep
  rw [hb, hd, ht]
  simp only [putByte, List.cons_append, List.nil_append, formInterlock, fb, fd, ft, Option.bind_eq_bind, Option.bind_some,
    given, if_true, toNat_byte (show w.val < 256 by omega)]

theorem formCalibration_bytes (a : Actuator) {low high : Nat} (fitsLow : low < 65536) (fitsHigh : high < 65536) :
    formCalibration (putByte a.val ++ putU16 low ++ putU16 high) = some (a.val, low, high) := by
  show some ((BitVec.ofNat 8 a.val).toNat, u16 _ _, u16 _ _) = _
  rw [actuator_byte, u16_bytes fitsLow, u16_bytes fitsHigh]

theorem formLink_bytes {silence threshold : Option Nat} (given : (silence.isSome || threshold.isSome) = true)
    (fitsSilence : ∀ n, silence = some n → n < 65536) (fitsThreshold : ∀ n, threshold = some n → n < 256) :
    formLink (optU16 silence ++ putOptU8 threshold) = some (silence, threshold) := by
  obtain ⟨p, s1, s0, hs, fs⟩ := optU16_reads fitsSilence
  obtain ⟨q, t, ht, ft⟩ := putOptU8_reads fitsThreshold
  rw [hs, ht]
  simp only [List.cons_append, List.nil_append, formLink, fs, ft, Option.bind_eq_bind, Option.bind_some, given, if_true]

/-! ### Checks -/

theorem fullRange_within (a : Actuator) :
    -350 ≤ (fullRange a).1 ∧ (fullRange a).1 < (fullRange a).2 ∧ (fullRange a).2 ≤ 1800 := by
  revert a
  decide

theorem bandMax_le (a : Actuator) : bandMax a ≤ 200 := by
  revert a
  decide

theorem kindOf_ne_gate {a : Actuator} (apart : a ≠ gate) : kindOf a ≠ .gate := fun kind => apart ((kindOf_gate_iff a).1 kind)

theorem optional_ok {α : Type} {x : Option α} {check : α → Except Code Unit} (h : ∀ v, x = some v → check v = .ok ()) :
    Machine.optional x check = .ok () := by
  cases x with
  | none => rfl
  | some v => exact h v rfl

theorem require_of {b : Bool} (c : Code) (h : b = true) : require b c = .ok () := by rw [h, require_true]

theorem limits_fit {a : Actuator} {lo hi : Int} (allowed : limitsAllowed a lo hi = true) : fits16 lo ∧ fits16 hi := by
  have bounds := fullRange_within a
  simp only [limitsAllowed, inRange, Bool.and_eq_true, decide_eq_true_eq] at allowed
  unfold fits16
  omega

theorem checkLimits_ok {a : Actuator} {lo hi : Int} (apart : a ≠ gate) (allowed : limitsAllowed a lo hi = true) :
    checkLimits (a.val, lo, hi) = .ok a := by
  obtain ⟨range, wheel⟩ := (Bool.and_eq_true _ _).mp allowed
  unfold checkLimits
  rw [actuatorField_val, bind_ok rfl, bind_ok (require_of _ (by simp [kindOf_ne_gate apart])), bind_ok (require_of _ range),
    bind_ok (require_of _ wheel)]

theorem checkSettle_proportional {a : Actuator} {band : Option Int} {dwell : Option Nat} (apart : a ≠ gate)
    (bandOk : ∀ b, band = some b → 1 ≤ b ∧ b ≤ bandMax a) (dwellOk : ∀ d, dwell = some d → d ≤ 5000) :
    checkSettle ⟨a.val, band, dwell, none⟩ = .ok a := by
  have kind : decide (kindOf a ≠ .gate) = true := by simp [kindOf_ne_gate apart]
  have bandChecks : Machine.optional band (fun b => do
      require (kindOf a ≠ .gate) .notApplicable
      require (1 ≤ b && b ≤ bandMax a) .outOfRange) = .ok () :=
    optional_ok fun b hb => by
      rw [bind_ok (require_of _ kind)]
      exact require_of _ (by simp [bandOk b hb])
  have dwellChecks : Machine.optional dwell (fun d => do
      require (kindOf a ≠ .gate) .notApplicable
      require (d ≤ 5000) .outOfRange) = .ok () :=
    optional_ok fun d hd => by
      rw [bind_ok (require_of _ kind)]
      exact require_of _ (by simp [dwellOk d hd])
  unfold checkSettle
  rw [actuatorField_val, bind_ok rfl, bind_ok bandChecks, bind_ok dwellChecks]
  rfl

theorem checkSettle_gate {n : Nat} (least : 1 ≤ n) (most : n ≤ 30) : checkSettle ⟨11, none, none, some n⟩ = .ok gate := by
  have field : actuatorField 11 = .ok gate := rfl
  have range : (decide (1 ≤ n) && decide (n ≤ 30)) = true := by simp [least, most]
  unfold checkSettle
  rw [field, bind_ok rfl]
  simp only [Machine.optional, range, require_true]
  rfl

theorem checkInterlock_ok {w : Fin 2} {pumpMin flowMin creep : Option Int}
    (pumpOk : ∀ v, pumpMin = some v → 0 ≤ v ∧ v ≤ 1800) (flowOk : ∀ v, flowMin = some v → 0 ≤ v ∧ v ≤ 1500)
    (creepOk : ∀ v, creep = some v → 0 ≤ v ∧ v ≤ 350) : checkInterlock ⟨w.val, pumpMin, flowMin, creep⟩ = .ok w := by
  have range : ∀ {x : Option Int} {most : Int}, (∀ v, x = some v → 0 ≤ v ∧ v ≤ most) →
      Machine.optional x (fun v => require (inRange (0, most) v) .outOfRange) = .ok () := fun ok =>
    optional_ok fun v hv => require_of _ (by simp [inRange, ok v hv])
  unfold checkInterlock
  rw [show w.val = (wheelActuator w).val from rfl, actuatorField_val, bind_ok rfl]
  simp only [wheel?_wheelActuator]
  rw [bind_ok (range pumpOk), bind_ok (range flowOk), bind_ok (range creepOk)]

theorem checkCalibration_ok {a : Actuator} {low high : Nat} (apart : a ≠ gate) (lowOk : low ≤ 1000) (highOk : high ≤ 1000)
    (differ : low ≠ high) : checkCalibration (a.val, low, high) = .ok a := by
  unfold checkCalibration
  rw [actuatorField_val, bind_ok rfl, bind_ok (require_of _ (by simp [kindOf_ne_gate apart])),
    bind_ok (require_of _ (by simp [lowOk, highOk, differ]))]

theorem checkLink_ok {silence threshold : Option Nat} (silenceOk : ∀ n, silence = some n → 500 ≤ n ∧ n ≤ 10000)
    (thresholdOk : ∀ n, threshold = some n → 1 ≤ n ∧ n ≤ 64) : checkLink (silence, threshold) = .ok () := by
  unfold checkLink
  rw [bind_ok (require_of _ ?_)]
  · refine require_of _ ?_
    cases threshold with
    | none => rfl
    | some n => simp [thresholdOk n rfl]
  · cases silence with
    | none => rfl
    | some n => simp [silenceOk n rfl]

/-- OPERATOR's request in SETUP with a body that reads and checks passes the steps of R170. -/
theorem setup_passes {α β : Type} {s : State} {tag : Word} {body : List Byte} {form : Option α} {f : α}
    {check : α → Except Code β} {x : β} (setup : s.mode = .setup) (reads : form = some f) (ok : check f = .ok x)
    (k : α → β → Reply) : (inSetup s <| admitting (isOperator ⟨.operator, tag, body⟩) s <|
      formed form s fun f => checked (check f) s fun x => k f x) = k f x := by
  rw [inSetup, if_pos setup, reads, formed_some, ok, checked_ok]
  rfl

/-! ### What a calibration gives (R134) -/

/-- The straight line of a calibration, over its denominator. -/
def dutyLine (a : Actuator) (low high : Nat) (c : Int) : Int :=
  low * (50 * ((fullRange a).2 - (fullRange a).1)) + ((high : Int) - low) * (c - 50 * (fullRange a).1)

theorem dutyOf_line {s : State} {a : Actuator} (apart : a ≠ gate) {low high : Nat} (cal : s.cal a = ⟨low, high⟩) (c : Int) :
    s.dutyOf a c = ((2 * dutyLine a low high c + 50 * ((fullRange a).2 - (fullRange a).1)) /
      (2 * (50 * ((fullRange a).2 - (fullRange a).1)))).toNat := by
  rw [State.dutyOf, if_neg (kindOf_ne_gate apart), cal]
  rfl

theorem nearest_whole {n den : Int} (pos : 0 < den) : (2 * (n * den) + den) / (2 * den) = n := by
  have split : 2 * (n * den) + den = den + 2 * den * n := by ring
  rw [split, Int.add_mul_ediv_left _ _ (by omega), Int.ediv_eq_zero_of_lt (by omega) (by omega), zero_add]

theorem dutyOf_whole {s : State} {a : Actuator} (apart : a ≠ gate) {low high : Nat} (cal : s.cal a = ⟨low, high⟩) {c : Int}
    {n : Nat} (line : dutyLine a low high c = n * (50 * ((fullRange a).2 - (fullRange a).1))) : s.dutyOf a c = n := by
  have bounds := fullRange_within a
  rw [dutyOf_line apart cal, line, nearest_whole (by omega), Int.toNat_natCast]

theorem dutyLine_nonneg {a : Actuator} {low high : Nat} {c : Int} (least : 50 * (fullRange a).1 ≤ c)
    (most : c ≤ 50 * (fullRange a).2) : 0 ≤ dutyLine a low high c := by
  have weights : dutyLine a low high c =
      low * (50 * (fullRange a).2 - c) + high * (c - 50 * (fullRange a).1) := by
    unfold dutyLine
    ring
  rw [weights]
  exact add_nonneg (mul_nonneg (by omega) (by omega)) (mul_nonneg (by omega) (by omega))

/-- The whole number that rounding to the nearest gives lies within half of the quotient, halves up. -/
theorem nearest_bounds {line den : Int} (pos : 0 < den) (nonneg : 0 ≤ line) :
    den * (2 * ((2 * line + den) / (2 * den)).toNat - 1) ≤ 2 * line ∧
      2 * line < den * (2 * ((2 * line + den) / (2 * den)).toNat + 1) := by
  have whole : 0 ≤ (2 * line + den) / (2 * den) := Int.ediv_nonneg (by omega) (by omega)
  have division := Int.mul_ediv_add_emod (2 * line + den) (2 * den)
  have least := Int.emod_nonneg (2 * line + den) (show 2 * den ≠ 0 by omega)
  have most := Int.emod_lt_of_pos (2 * line + den) (show 0 < 2 * den by omega)
  rw [Int.toNat_of_nonneg whole]
  constructor <;> linarith

theorem dutyOf_calibrated {s : State} {a : Actuator} (apart : a ≠ gate) {low high : Nat} (cal : s.cal a = ⟨low, high⟩)
    {c : Int} (least : 50 * (fullRange a).1 ≤ c) (most : c ≤ 50 * (fullRange a).2) :
    calibratedDuty a low high c (s.dutyOf a c) := by
  have bounds := fullRange_within a
  rw [dutyOf_line apart cal]
  exact nearest_bounds (by omega) (dutyLine_nonneg least most)

theorem updLane_same {s : State} {a : Actuator} {f : Lane → Lane} (same : f (s.lane a) = s.lane a) : s.updLane a f = s := by
  rw [State.updLane, same]
  simp [State.lane]

/-! ### The requests -/

section
variable {s : State} (tag : Word) (setup : s.mode = .setup)
include setup

theorem exec_setLimits {a : Actuator} {lo hi : Int} (apart : a ≠ gate) (allowed : limitsAllowed a lo hi = true) :
    let r : Req := ⟨.operator, tag, putByte a.val ++ putS16 lo ++ putS16 hi⟩
    exec (.setLimits r) s = .next (answered 0x25 r .done (putS16 lo ++ putS16 hi)
      ((received s).updLane a fun l => { l with lo := lo, hi := hi })) := by
  obtain ⟨fitsLo, fitsHi⟩ := limits_fit allowed
  exact show execSetLimits _ s = _ from request_done (by simp [putByte, putS16, putU16])
    (setup_passes (s := received s) setup (formLimits_bytes a fitsLo fitsHi) (checkLimits_ok apart allowed) _)

theorem exec_setSettle {a : Actuator} {band : Option Int} {dwell : Option Nat} (apart : a ≠ gate)
    (given : band.isSome ∨ dwell.isSome) (bandOk : ∀ b, band = some b → 1 ≤ b ∧ b ≤ bandMax a)
    (dwellOk : ∀ d, dwell = some d → d ≤ 5000) :
    let r : Req := ⟨.operator, tag, putByte a.val ++ putOptS16 band ++ optU16 dwell ++ optU16 none⟩
    let b := band.getD (s.lane a).band
    let d := dwell.getD (s.lane a).dwell
    exec (.setSettle r) s = .next (answered 0x26 r .done (putS16 b ++ putU16 d)
      ((received s).updLane a fun l => { l with band := b, dwell := d })) := by
  have most := bandMax_le a
  have reads : formSettle (putByte a.val ++ putOptS16 band ++ optU16 dwell ++ optU16 none) = some ⟨a.val, band, dwell, none⟩ :=
    formSettle_bytes a (by simpa using given) (fun b hb => by have := bandOk b hb; unfold fits16; omega)
      (fun d hd => by have := dwellOk d hd; omega) (fun _ none => nomatch none)
  have stored : applySettle a ⟨a.val, band, dwell, none⟩ (received s) = (received s).updLane a fun l =>
      { l with band := band.getD (s.lane a).band, dwell := dwell.getD (s.lane a).dwell } := rfl
  refine show execSetSettle _ s = _ from request_done (by simp [putByte])
    ((setup_passes (s := received s) setup reads (checkSettle_proportional apart bandOk dwellOk) _).trans ?_)
  simp only [stored, State.settleBytes, if_neg (kindOf_ne_gate apart), lane_updLane, if_true]

theorem exec_setTravel {n : Nat} (least : 1 ≤ n) (most : n ≤ 30) :
    let r : Req := ⟨.operator, tag, putByte 11 ++ putOptS16 none ++ optU16 none ++ optU16 (some n)⟩
    exec (.setSettle r) s = .next (answered 0x26 r .done (putU16 n) { received s with travelLimit := n }) := by
  have reads := formSettle_bytes gate (band := none) (dwell := none) (travel := some n) rfl (fun _ none => nomatch none)
    (fun _ none => nomatch none) (fun m hm => by cases hm; omega)
  have stored : applySettle gate ⟨gate.val, none, none, some n⟩ (received s) = { received s with travelLimit := n } :=
    congrArg (fun u : State => { u with travelLimit := n }) (updLane_same rfl)
  refine show execSetSettle _ s = _ from request_done (by simp [putByte])
    ((setup_passes (s := received s) setup reads (checkSettle_gate least most) _).trans ?_)
  simp only [stored, State.settleBytes, show kindOf gate = .gate from rfl, if_true]

theorem exec_setInterlock {w : Fin 2} {pumpMin flowMin creep : Option Int}
    (given : pumpMin.isSome ∨ flowMin.isSome ∨ creep.isSome) (pumpOk : ∀ v, pumpMin = some v → 0 ≤ v ∧ v ≤ 1800)
    (flowOk : ∀ v, flowMin = some v → 0 ≤ v ∧ v ≤ 1500) (creepOk : ∀ v, creep = some v → 0 ≤ v ∧ v ≤ 350) :
    let r : Req := ⟨.operator, tag, putByte w.val ++ putOptS16 pumpMin ++ putOptS16 flowMin ++ putOptS16 creep⟩
    let x := s.interlock w
    let y : Interlock := { x with
      pumpMin := pumpMin.getD x.pumpMin, flowMin := flowMin.getD x.flowMin, creep := creep.getD x.creep }
    exec (.setInterlock r) s = .next (answered 0x27 r .done (putS16 y.pumpMin ++ putS16 y.flowMin ++ putS16 y.creep)
      ((received s).setInterlock w { y with engaged := s.interlockFlag y })) := by
  have reads := formInterlock_bytes w (pumpMin := pumpMin) (flowMin := flowMin) (creep := creep) (by simpa [or_assoc] using given)
    (fun v hv => by have := pumpOk v hv; unfold fits16; omega) (fun v hv => by have := flowOk v hv; unfold fits16; omega)
    (fun v hv => by have := creepOk v hv; unfold fits16; omega)
  refine show execSetInterlock _ s = _ from request_done (by simp [putByte])
    ((setup_passes (s := received s) setup reads (checkInterlock_ok pumpOk flowOk creepOk) _).trans ?_)
  simp only [applyInterlock, interlock_setInterlock, if_true]
  rfl

theorem exec_setCalibration {a : Actuator} {low high : Nat} (apart : a ≠ gate) (lowOk : low ≤ 1000) (highOk : high ≤ 1000)
    (differ : low ≠ high) :
    let r : Req := ⟨.operator, tag, putByte a.val ++ putU16 low ++ putU16 high⟩
    exec (.setCalibration r) s = .next (answered 0x59 r .done (putU16 low ++ putU16 high)
      { received s with cals := s.cals.set a.val ⟨low, high⟩ }) :=
  show execSetCalibration _ s = _ from request_done (by simp [putByte, putU16])
    (setup_passes (s := received s) setup (formCalibration_bytes a (by omega) (by omega))
      (checkCalibration_ok apart lowOk highOk differ) _)

theorem exec_setLink {silence threshold : Option Nat} (given : silence.isSome ∨ threshold.isSome)
    (silenceOk : ∀ n, silence = some n → 500 ≤ n ∧ n ≤ 10000) (thresholdOk : ∀ n, threshold = some n → 1 ≤ n ∧ n ≤ 64) :
    let r : Req := ⟨.operator, tag, optU16 silence ++ putOptU8 threshold⟩
    let l := silence.getD s.link.silenceLimit
    let b := threshold.getD s.link.badThreshold
    exec (.setLink r) s = .next (answered 0x70 r .done (putU16 l ++ putByte b ++ [1, 0])
      { received s with link := ⟨.up, some 0, 0, l, b⟩ }) := by
  have reads := formLink_bytes (silence := silence) (threshold := threshold) (by simpa using given)
    (fun n hn => by have := silenceOk n hn; omega) (fun n hn => by have := thresholdOk n hn; omega)
  exact show execSetLink _ s = _ from request_done (by simp)
    (setup_passes (s := received s) setup reads (checkLink_ok silenceOk thresholdOk) _)

end

/-- The endpoints of the full range take the duties a calibration sets for them. -/
theorem dutyOf_ends {s : State} {a : Actuator} (apart : a ≠ gate) {low high : Nat} (cal : s.cal a = ⟨low, high⟩) :
    s.dutyOf a (50 * (fullRange a).1) = low ∧ s.dutyOf a (50 * (fullRange a).2) = high :=
  ⟨dutyOf_whole apart cal (by unfold dutyLine; ring), dutyOf_whole apart cal (by unfold dutyLine; ring)⟩

/-- Settles O28. Each request is its form read back, its checks and its store; the duties are the nearest whole numbers
to the line of the calibration. -/
theorem setupRequestsStoreTheirSettings : Obligations.SetupRequestsStoreTheirSettings := by
  intro tag s setup
  refine ⟨fun a lo hi => exec_setLimits tag setup, fun a band dwell => exec_setSettle tag setup,
    fun n => exec_setTravel tag setup, fun w pumpMin flowMin creep given pumpOk flowOk creepOk =>
      ⟨_, interlockFlag_iff s _, exec_setInterlock tag setup given pumpOk flowOk creepOk⟩,
    fun a low high apart lowOk highOk differ => ?_, ⟨?_, ?_⟩, fun silence threshold => exec_setLink tag setup⟩
  · intro r t
    have cal : t.cal a = ⟨low, high⟩ := Vector.getElem_set_self _
    obtain ⟨atLow, atHigh⟩ := dutyOf_ends apart cal
    exact ⟨exec_setCalibration tag setup apart lowOk highOk differ, atLow, atHigh, fun v => dutyOf_calibrated apart cal⟩
  · simp [State.dutyOf, show kindOf gate = .gate from rfl]
  · simp [State.dutyOf, show kindOf gate = .gate from rfl]

end Sys2Proof.Machine
end

section
/-! The return interlock as the user of a point (R66 to R68): what any of its users does to the flag and to the command of
a wheel lane, in either order of the users (R91). -/

namespace Sys2Proof.Machine

section
variable {s t u : State}

/-! ### The order engine moves no proportional command -/

/-- Every lane but the GATE's has the command it had. -/
def SteersNone (s t : State) : Prop := ∀ a, a ≠ gate → (t.lane a).command = (s.lane a).command

theorem SteersNone.refl (s : State) : SteersNone s s := fun _ _ => rfl

theorem SteersNone.trans (h : SteersNone s t) (k : SteersNone t u) : SteersNone s u := fun a apart =>
  (k a apart).trans (h a apart)

theorem SteersNone.of_lanes (lanes : ∀ a, t.lane a = s.lane a) : SteersNone s t := fun a _ => by rw [lanes]

theorem takeHolds_steers (a : Actuator) (s : State) : SteersNone s (takeHolds a s) := by
  intro b apart
  by_cases same : b = a
  · subst same
    cases gov : s.governing b with
    | none => rw [takeHolds_rests gov]; exact if_neg apart
    | some p =>
      obtain ⟨h, o⟩ := p
      cases held : (s.lane b).masked o.cls || o.frozen with
      | true => rw [takeHolds_holds gov held, lane_updLane, if_pos rfl, updOrder_lane]
      | false => rw [takeHolds_drives gov held]; exact if_neg apart
  · rw [(takeHolds_resolves a s).lanes b same]

theorem resolve_steers (a : Actuator) (s : State) : SteersNone s (resolve a s) := by
  by_cases still : (s.lane a).state = .off ∨ (s.lane a).state = .down
  · rw [resolve_still still]
    exact .refl s
  · rw [resolve_acts still]
    exact .trans (fun b _ => resolveChoice_command a b s) (takeHolds_steers a _)

theorem leaveLane_steers (lane : Bool) (o : Order) (h : Handle) (s : State) : SteersNone s (leaveLane lane o h s) := by
  have dropped : SteersNone s (dropFromLane o.actuator o.cls h s) := fun a _ => (dropFromLane_shrinks _ _ _ s).command a
  unfold leaveLane
  split
  · exact dropped.trans (resolve_steers _ _)
  · exact dropped

theorem retireOne_steers (lane : Bool) (i : Slot) (c : Cause) (s : State) : SteersNone s (retireOne lane i c s) := by
  cases live : s.orderAt i with
  | none => rw [retireOne_dead live]; exact .refl s
  | some o =>
    rw [retireOne_live live]
    exact (leaveLane_steers lane o (s.handleAt i) s).trans (.of_lanes (lane_of_lanes (freeSlot_leaves _ _ _ _ _).2.1))

theorem steersNone_engine (s : State) : EngineKeeps (SteersNone s) (fun _ => True) (fun _ => True) where
  resolved h _ _ := h.trans (resolve_steers _ _)
  lose h _ _ := h.trans (retireOne_steers _ _ _ _)
  cond g c h _ := h.trans (.of_lanes (setCond_lane _ g c _))
  trip h _ _ _ _ _ _ := h.trans (retireOne_steers _ _ _ _)
  ready h _ _ := h.trans (.of_lanes (readied_lane _ _))
  waits _ _ _ := trivial
  settles _ _ := trivial
  settled h _ := h.trans (.of_lanes (settled_lane _ _))
  complete h _ _ _ _ := h.trans (retireOne_steers _ _ _ _)

theorem retire_steers (i : Slot) (c : Cause) (s : State) : SteersNone s (retire i c s) :=
  (steersNone_engine s).retire (.refl s) fun _ _ => retireOne_steers _ _ _ _

theorem guardAct_steers (h : Handle) (g : Nat) (action : GuardAction) (s : State) : SteersNone s (guardAct h g action s) := by
  unfold guardAct
  split
  · exact retire_steers _ _ _
  · have cond : SteersNone s (setCond h g .active s) := .of_lanes (setCond_lane h g .active s)
    dsimp only
    split
    · split
      · exact cond.trans (takeHolds_steers _ _)
      · exact cond
    · exact cond

theorem guardEnds_steers (h : Handle) (g : Nat) (s : State) : SteersNone s (guardEnds h g s) := by
  have cond : SteersNone s (setCond h g .satisfied s) := .of_lanes (setCond_lane h g .satisfied s)
  unfold guardEnds
  dsimp only
  split
  · split
    · exact (steersNone_engine s).settleGate (cond.trans (takeHolds_steers _ _))
    · exact cond
  · exact cond

theorem evalGuard_steers (p : Point) (h : Handle) (g : Nat) (s : State) : SteersNone s (evalGuard p h g s) := by
  unfold evalGuard
  split
  · exact .refl s
  · split
    · exact .refl s
    · split
      · split
        · split
          · exact guardAct_steers _ _ _ _
          · exact .of_lanes (setCond_lane _ _ _ _)
        · exact .of_lanes (setCond_lane _ _ _ _)
        · exact guardEnds_steers _ _ _
        all_goals exact .refl s
      · exact .refl s

theorem guardUse_steers (p : Point) (s : State) : SteersNone s (guardUse p s) :=
  List.foldlRecOn allSlots _ (SteersNone.refl s) fun _ h _ _ =>
    h.trans ((evalGuard_steers p _ 0 _).trans (evalGuard_steers p _ 1 _))

theorem restartDetector_steers (a : Actuator) (s : State) : SteersNone s (restartDetector a s) := fun b _ =>
  restartDetector_command a b s

theorem setDetector_steers (a : Actuator) (d : Detector) (s : State) : SteersNone s (setDetector a d s) := fun b _ =>
  setDetector_command a b d s

theorem settleUse_steers (a : Actuator) (s : State) : SteersNone s (settleUse a s) := by
  unfold settleUse
  split
  · split
    · split
      · split
        · split
          · exact (steersNone_engine s).settleOrder (setDetector_steers a .settled s) trivial
          · exact setDetector_steers a _ s
        · exact .refl s
      all_goals exact .refl s
    · exact restartDetector_steers a s
  · exact .refl s

/-! ### One wheel lane -/

theorem SamePoints.refl (s : State) : SamePoints s s := ⟨rfl, rfl, rfl, rfl, rfl⟩

theorem SamePoints.trans (h : SamePoints s t) (k : SamePoints t u) : SamePoints s u :=
  ⟨k.direct.trans h.direct, k.modValues.trans h.modValues, k.modules.trans h.modules, k.depth.trans h.depth,
    k.drift.trans h.drift⟩

/-- The points, the interlock of wheel lane `w` and its command stand. -/
structure WheelStands (w : Fin 2) (s t : State) : Prop where
  points : SamePoints s t
  interlock : t.interlock w = s.interlock w
  command : (t.lane (wheelActuator w)).command = (s.lane (wheelActuator w)).command

theorem WheelStands.refl (w : Fin 2) (s : State) : WheelStands w s s := ⟨.refl s, rfl, rfl⟩

theorem EngineFrame.wheel (frame : EngineFrame s t) (steers : SteersNone s t) (w : Fin 2) : WheelStands w s t :=
  ⟨frame.blocks.points, by rw [State.interlock, frame.interlocks]; rfl, steers _ (wheelActuator_ne_gate w)⟩

theorem guardUse_wheel (p : Point) (w : Fin 2) (s : State) : WheelStands w s (guardUse p s) :=
  (guardUse_frame p s).wheel (guardUse_steers p s) w

theorem settleUse_wheel (a : Actuator) (w : Fin 2) (s : State) : WheelStands w s (settleUse a s) :=
  (settleUse_frame a s).wheel (settleUse_steers a s) w

/-- The command an interlock leaves when its flag is evaluated to `flag` (R67, R68). -/
def Interlock.leaves (x : Interlock) (flag : Bool) (command : Option Int) : Option Int :=
  if flag && !x.engaged then command.map (clamp (-(50 * x.creep)) (50 * x.creep)) else command

/-- Wheel lane `w` has re-evaluated its flag, and cut its command where that engages it. -/
structure WheelReacts (w : Fin 2) (s t : State) : Prop where
  points : SamePoints s t
  interlock : t.interlock w = { s.interlock w with engaged := s.interlockFlag (s.interlock w) }
  command : (t.lane (wheelActuator w)).command =
    (s.interlock w).leaves (s.interlockFlag (s.interlock w)) (s.lane (wheelActuator w)).command

theorem WheelStands.reacts {w : Fin 2} (h : WheelStands w s t) (k : WheelReacts w t u) : WheelReacts w s u := by
  have flag : t.interlockFlag (t.interlock w) = s.interlockFlag (s.interlock w) := by rw [h.interlock, h.points.flag]
  refine ⟨h.points.trans k.points, ?_, ?_⟩
  · rw [k.interlock, flag, h.interlock]
  · rw [k.command, flag, h.interlock, h.command]

theorem WheelReacts.stands {w : Fin 2} (h : WheelReacts w s t) (k : WheelStands w t u) : WheelReacts w s u :=
  ⟨h.points.trans k.points, k.interlock.trans h.interlock, k.command.trans h.command⟩

theorem wheelActuator_inj {v w : Fin 2} (same : wheelActuator v = wheelActuator w) : v = w := by
  simpa [wheelActuator, Fin.ext_iff] using same

/-- The other wheel lane's interlock leaves this one. -/
theorem interlockUse_other {v w : Fin 2} (apart : w ≠ v) (s : State) : WheelStands w s (interlockUse v s) := by
  have lanes : wheelActuator w ≠ wheelActuator v := fun same => apart (wheelActuator_inj same)
  have own : (s.setInterlock v { s.interlock v with engaged := s.interlockFlag (s.interlock v) }).interlock w =
      s.interlock w := by rw [interlock_setInterlock, if_neg apart]
  refine ⟨(interlockUse_reading v s).blocks.points, ?_, by rw [interlockUse_lane lanes]⟩
  rw [State.interlock, (interlockUse_frame v s).interlocks]
  exact own

theorem interlockUse_reacts (w : Fin 2) (s : State) : WheelReacts w s (interlockUse w s) := by
  refine ⟨(interlockUse_reading w s).blocks.points, ?_, ?_⟩
  · rw [State.interlock, (interlockUse_frame w s).interlocks]
    exact (interlock_setInterlock _ _ _ _).trans (if_pos rfl)
  · unfold interlockUse Interlock.leaves
    dsimp only
    generalize flagged : s.interlockFlag (s.interlock w) = flag
    split
    · next engages =>
      have on : flag = true := by
        rw [Bool.and_eq_true] at engages
        exact engages.1
      split
      · next c command =>
        have command : (s.lane (wheelActuator w)).command = some c := command
        have cut : (s.setInterlock w { s.interlock w with engaged := flag }).creepClamp (wheelActuator w) c =
            clamp (-(50 * (s.interlock w).creep)) (50 * (s.interlock w).creep) c := by
          simp only [State.creepClamp, wheel?_wheelActuator, interlock_setInterlock, if_true, on]
        rw [command, Option.map_some, cut]
        split
        · next uncut => rw [uncut]; exact command
        · split
          · rw [restartDetector_command, setCommand_lane, if_pos rfl]
          · rw [setCommand_lane, if_pos rfl]
      · next idle =>
        have idle : (s.lane (wheelActuator w)).command = none := idle
        rw [idle]
        exact idle
    · rfl

/-! ### The users of PMS and SLF -/

/-- Both wheel lanes re-evaluate their flags (R66). -/
theorem interlockUses_react (w : Fin 2) (s : State) : WheelReacts w s (interlockUse 1 (interlockUse 0 s)) := by
  by_cases first : w = 0
  · subst first
    exact (interlockUse_reacts 0 s).stands (interlockUse_other (by decide) _)
  · have second : w = 1 := by omega
    subst second
    exact (interlockUse_other (by decide) s).reacts (interlockUse_reacts 1 _)

theorem laneUse_reacts {p : Point} (watched : p = pmsPoint ∨ p = slfPoint) (w : Fin 2) (s : State) :
    WheelReacts w s (laneUse p s) := by
  have settled : WheelStands w s (if h : p.val < 11 then settleUse ⟨p.val, by omega⟩ s else s) := by
    split
    · exact settleUse_wheel _ w s
    · exact .refl w s
  unfold laneUse
  rw [if_pos watched]
  exact settled.reacts (interlockUses_react w _)

/-- The users of a point act in one of two orders (log 4). -/
theorem handPoint_orders (p : Point) (s : State) : ∃ n, handPoint p s = { laneUse p (guardUse p s) with draws := n } ∨
    handPoint p s = { guardUse p (laneUse p s) with draws := n } := by
  unfold handPoint
  dsimp only
  split
  · exact ⟨_, .inl rfl⟩
  · split
    · exact ⟨_, .inl rfl⟩
    · exact ⟨_, .inr rfl⟩

theorem draws_wheel (w : Fin 2) (s : State) (n : Nat) : WheelStands w s { s with draws := n } :=
  ⟨⟨rfl, rfl, rfl, rfl, rfl⟩, rfl, rfl⟩

theorem handPoint_reacts {p : Point} (watched : p = pmsPoint ∨ p = slfPoint) (w : Fin 2) (s : State) :
    WheelReacts w s (handPoint p s) := by
  obtain ⟨n, order | order⟩ := handPoint_orders p s
  · rw [order]
    exact ((guardUse_wheel p w s).reacts (laneUse_reacts watched w _)).stands (draws_wheel w _ n)
  · rw [order]
    exact ((laneUse_reacts watched w s).stands (guardUse_wheel p w _)).stands (draws_wheel w _ n)

/-! ### Engagement and release -/

section
variable {w : Fin 2} (reacts : WheelReacts w s t)
include reacts

theorem WheelReacts.cuts (due : interlockDue s (s.interlock w)) (creep : 0 ≤ (s.interlock w).creep)
    (stands : ∀ c, (s.interlock w).engaged = true → (s.lane (wheelActuator w)).command = some c →
      -(50 * (s.interlock w).creep) ≤ c ∧ c ≤ 50 * (s.interlock w).creep) : engagedAndCut s t w := by
  obtain ⟨-, interlock, command⟩ := reacts
  rw [(interlockFlag_iff s _).2 due] at interlock command
  refine ⟨by rw [interlock], fun idle => ?_, fun c at' => ?_⟩
  · rw [command, idle]
    unfold Interlock.leaves
    split <;> rfl
  · rw [command, at']
    unfold Interlock.leaves
    split
    · rw [Option.map_some, clamp_eq c (by omega)]
    · next old =>
      have within := stands c (by simpa using old) at'
      rw [min_eq_right within.2, max_eq_right within.1]

theorem WheelReacts.frees (free : ¬ interlockDue s (s.interlock w)) : releasedInPlace s t w := by
  obtain ⟨-, interlock, command⟩ := reacts
  rw [← interlockFlag_iff, Bool.not_eq_true] at free
  rw [free] at interlock command
  exact ⟨by rw [interlock], command⟩

end

end

end Sys2Proof.Machine
end

section
/-! Samples and frames read: the value of a direct sample, what a point then is, and the readings of a module's frame (R92
to R95, R192). -/

namespace Sys2Proof.Machine

/-! ### Raw signals (R92, R93) -/

/-- Rounding to the nearest, where no tie is. -/
theorem roundNearest_near {up : Bool} {num v : Int} {den : Nat} (near : (2 * (num - den * v)).natAbs < den) :
    roundNearest up num den = v := by
  have pos : (0 : Int) < den := by omega
  have division := Int.mul_ediv_add_emod num den
  have least := Int.emod_nonneg num (show (den : Int) ≠ 0 by omega)
  have most := Int.emod_lt_of_pos num pos
  have apart : num = den * v + (num - den * v) := by ring
  by_cases below : num - den * v < 0
  · have quotient : num / den = v - 1 := by
      rw [show num = (num - den * v + den) + den * (v - 1) by ring, Int.add_mul_ediv_left _ _ (by omega),
        Int.ediv_eq_zero_of_lt (by omega) (by omega), zero_add]
    have remainder : num % den = num - den * v + den := by
      rw [quotient] at division
      linarith
    unfold roundNearest
    dsimp only
    rw [quotient, remainder, if_neg (by omega), if_pos (by omega)]
    omega
  · have quotient : num / den = v := by
      rw [show num = (num - den * v) + den * v by ring, Int.add_mul_ediv_left _ _ (by omega),
        Int.ediv_eq_zero_of_lt (by omega) (by omega), zero_add]
    have remainder : num % den = num - den * v := by
      rw [quotient] at division
      linarith
    unfold roundNearest
    dsimp only
    rw [quotient, remainder, if_pos (by omega)]

section
variable {p : DirectPoint} {current : Nat} {speed v : Int}

theorem sampleValue_wheel (wheel : p.val < 2) : sampleValue p current speed =
    if current < 2000 ∨ 20000 < current then none
    else if -400000 ≤ speed ∧ speed ≤ 400000 then some (roundNearest (Config.freeRoundUp p.val speed) speed 1000)
    else none := by
  have other : p.val ≠ 10 := by omega
  simp [sampleValue, pointRange, inRange, wheel, other]

theorem sampleValue_pump (pump : p.val = 10) : sampleValue p current speed =
    if current < 2000 ∨ 20000 < current then none
    else if (speed.natAbs : Int) ≤ 2000000 then
      some (roundNearest (Config.freeRoundUp 10 speed.natAbs) speed.natAbs 1000) else none := by
  simp [sampleValue, pointRange, inRange, pump]

theorem sampleValue_plate (plate : ¬ p.val < 2) (other : p.val ≠ 10) : sampleValue p current speed =
    if current < 3800 ∨ 20500 < current then none
    else if current < 4000 then some 0
    else if 20000 < current then some 220
    else some (roundNearest (Config.freeRoundUp p.val current) ((current - 4000 : Int) * 220) 16000) := by
  simp [sampleValue, plate, other]

theorem sampleValue_live (live : liveSample p current speed v) : sampleValue p current speed = some v := by
  unfold liveSample at live
  by_cases wheel : p.val < 2
  · rw [if_pos wheel] at live
    obtain ⟨least, most, lower, upper, near⟩ := live
    rw [sampleValue_wheel wheel, if_neg (by omega), if_pos ⟨lower, upper⟩, roundNearest_near near]
  by_cases pump : p.val = 10
  · rw [if_neg wheel, if_pos pump] at live
    obtain ⟨least, most, lower, upper, near⟩ := live
    rw [sampleValue_pump pump, if_neg (by omega), Int.natAbs_of_nonneg lower, if_pos upper, roundNearest_near near]
  · rw [if_neg wheel, if_neg pump] at live
    rw [sampleValue_plate wheel pump]
    rcases live with ⟨least, most, rfl⟩ | ⟨least, most, rfl⟩ | ⟨least, most, near⟩
    · rw [if_neg (by omega), if_pos most]
    · rw [if_neg (by omega), if_neg (by omega), if_pos least]
    · rw [if_neg (by omega), if_neg (by omega), if_neg (by omega), roundNearest_near (v := v) (by omega)]

theorem sampleValue_dead (dead : deadSample p current speed) : sampleValue p current speed = none := by
  unfold deadSample at dead
  by_cases wheel : p.val < 2
  · rw [if_pos wheel] at dead
    rw [sampleValue_wheel wheel]
    split
    · rfl
    · exact if_neg (by omega)
  by_cases pump : p.val = 10
  · rw [if_neg wheel, if_pos pump] at dead
    rw [sampleValue_pump pump]
    split
    · rfl
    · exact if_neg (by omega)
  · rw [if_neg wheel, if_neg pump] at dead
    rw [sampleValue_plate wheel pump, if_pos dead]

end

/-! ### A direct sample (R92 to R94) -/

section
variable {p : DirectPoint} {current : Nat} {speed v : Int} {s : State}

theorem exec_sample_taken (reads : sampleValue p current speed = some v) (sound : (s.directAt p).status ≠ .faulted) :
    exec (.directSample p current speed) s = .next (takeDirect p v s) := by
  show execDirectSample p current speed s = _
  unfold execDirectSample
  rw [reads]
  cases status : (s.directAt p).status with
  | valid => rfl
  | stale => rfl
  | faulted => exact absurd status sound

theorem exec_sample_faults (lost : sampleValue p current speed = none) (sound : (s.directAt p).status ≠ .faulted) :
    exec (.directSample p current speed) s = .next (faultDirect p s) := by
  show execDirectSample p current speed s = _
  unfold execDirectSample
  rw [lost]
  cases status : (s.directAt p).status with
  | valid => rfl
  | stale => rfl
  | faulted => exact absurd status sound

theorem exec_sample_recovers (reads : sampleValue p current speed = some v) (faulted : (s.directAt p).status = .faulted) :
    exec (.directSample p current speed) s = .next (recoverDirect p v s) := by
  show execDirectSample p current speed s = _
  unfold execDirectSample
  rw [reads, faulted]

theorem exec_sample_stops (lost : sampleValue p current speed = none) (faulted : (s.directAt p).status = .faulted) :
    exec (.directSample p current speed) s = .next (s.setDirect p { s.directAt p with recovery := none }) := by
  show execDirectSample p current speed s = _
  unfold execDirectSample
  rw [lost, faulted]

end

theorem pointStatus_setDirect (s : State) (p : DirectPoint) (d : DirectState) :
    (s.setDirect p d).pointStatus (directPoint p) = d.status := by
  have direct : (directPoint p).val < 11 := p.isLt
  rw [State.pointStatus, dif_pos direct, directAt_setDirect]
  exact congrArg _ (if_pos rfl)

theorem pointValue_setDirect (s : State) (p : DirectPoint) (d : DirectState) :
    (s.setDirect p d).pointValue (directPoint p) = d.value := by
  have direct : (directPoint p).val < 11 := p.isLt
  rw [State.pointValue, dif_pos direct, directAt_setDirect]
  exact congrArg _ (if_pos rfl)

/-! ### Short points (R66) -/

theorem shortOf_valid {s : State} {p : Point} {v minimum : Int} (valid : s.pointStatus p = .valid)
    (value : s.pointValue p = some v) : shortOf s p minimum ↔ v < minimum := by
  simp [shortOf, valid, value]

theorem shortOf_invalid {s : State} {p : Point} (invalid : s.pointStatus p ≠ .valid) (minimum : Int) :
    shortOf s p minimum := fun ⟨valid, _⟩ => invalid valid

/-! ### The frame of a module of one value (R95, R192) -/

theorem putS16_s16 (a b : Byte) : putS16 (s16 a b) = [a, b] := by
  have ha := a.isLt
  have hb := b.isLt
  have word : (s16 a b % 65536).toNat = a.toNat * 256 + b.toNat := by
    unfold s16 u16
    split <;> omega
  rw [putS16, putU16, word]
  refine congrArg₂ (fun x y => [x, y]) (BitVec.eq_of_toNat_eq ?_) (BitVec.eq_of_toNat_eq ?_) <;>
    simp only [BitVec.toNat_ofNat] <;> omega

/-- The readings of a module of one value. -/
theorem readingsOf_single {m : Module} {k : Fin 5} (one : moduleValues m = [k]) {vs : List Int} :
    readingsOf m vs ↔ ∃ v, vs = [v] ∧ inRange (pointRange (valuePoint k)) v = true := by
  unfold readingsOf
  rw [one]
  constructor
  · rintro ⟨single, ranges⟩
    obtain ⟨v, rfl⟩ := List.length_eq_one_iff.1 single
    exact ⟨v, rfl, ranges 0 (by simp) (by simp)⟩
  · rintro ⟨v, rfl, range⟩
    refine ⟨rfl, fun j h h' => ?_⟩
    obtain rfl : j = 0 := by simpa using h
    exact range

theorem goodReadings_single {m : Module} {k : Fin 5} (one : moduleValues m = [k]) {a b c x y : Byte} :
    goodReadings m [a, b, c, x, y] =
      if [x, y] = putCrc [a, b, c] ∧ inRange (pointRange (valuePoint k)) (s16 b c) = true then some [s16 b c]
      else none := by
  unfold goodReadings
  rw [one]
  have code : ([a, b, c, x, y].length = 3 + 2 * [k].length ∧
      [a, b, c, x, y].drop (1 + 2 * [k].length) = putCrc ([a, b, c, x, y].take (1 + 2 * [k].length))) ↔
        [x, y] = putCrc [a, b, c] := and_iff_right rfl
  simp only [code, List.zip_cons_cons, List.zip_nil_left, List.all_cons, List.all_nil, Bool.and_true]
  split_ifs <;> simp_all

theorem goodReadings_length {m : Module} {k : Fin 5} (one : moduleValues m = [k]) {bytes : List Byte}
    (long : bytes.length ≠ 5) : goodReadings m bytes = none := by
  unfold goodReadings
  rw [one]
  exact if_neg fun fits => long fits.1

theorem moduleFrame_single (m : Module) (v : Int) : ∃ b c x y,
    moduleFrame m [v] = [BitVec.ofNat 8 (m.code + 1), b, c, x, y] ∧ putS16 v = [b, c] ∧
      putCrc [BitVec.ofNat 8 (m.code + 1), b, c] = [x, y] := ⟨_, _, _, _, rfl, rfl, rfl⟩

theorem s16_of_putS16 {v : Int} {b c : Byte} (fits : fits16 v) (bytes : putS16 v = [b, c]) : s16 b c = v := by
  obtain ⟨rfl, rfl⟩ : _ = b ∧ _ = c := by simpa [putS16, putU16] using bytes
  exact s16_bytes fits

theorem goodReadings_moduleFrame {m : Module} {k : Fin 5} (one : moduleValues m = [k]) {v : Int}
    (reads : readingsOf m [v]) (fits : fits16 v) : goodReadings m (moduleFrame m [v]) = some [v] := by
  obtain ⟨w, same, range⟩ := (readingsOf_single one).1 reads
  cases same
  obtain ⟨b, c, x, y, frame, value, code⟩ := moduleFrame_single m v
  have back := s16_of_putS16 fits value
  rw [frame, goodReadings_single one, back, if_pos ⟨code.symm, range⟩]

theorem goodReadings_none {m : Module} {k : Fin 5} (one : moduleValues m = [k]) {rest : List Byte}
    (bad : ¬ ∃ vs, readingsOf m vs ∧ BitVec.ofNat 8 (m.code + 1) :: rest = moduleFrame m vs) :
    goodReadings m (BitVec.ofNat 8 (m.code + 1) :: rest) = none := by
  by_cases long : (BitVec.ofNat 8 (m.code + 1) :: rest).length = 5
  · obtain ⟨b, c, x, y, rfl⟩ : ∃ b c x y, rest = [b, c, x, y] :=
      List.length_eq_four.1 (by simpa using long)
    rw [goodReadings_single one]
    refine if_neg fun ⟨code, range⟩ => bad ⟨[s16 b c], (readingsOf_single one).2 ⟨_, rfl, range⟩, ?_⟩
    have frame : moduleFrame m [s16 b c] = BitVec.ofNat 8 (m.code + 1) :: putS16 (s16 b c) ++
      putCrc (BitVec.ofNat 8 (m.code + 1) :: putS16 (s16 b c)) := by simp [moduleFrame, putByte]
    rw [frame, putS16_s16, ← code]
    rfl
  · exact goodReadings_length one long

end Sys2Proof.Machine
end

section
/-! What engages and what releases the return interlock (R66 to R68): a pump sample, a FLOW frame, FLOW STALE or
FAULTED. -/

namespace Sys2Proof.Machine

/-! ### FLOW -/

theorem flow_range {v : Int} (reads : readingsOf .flow [v]) : 0 ≤ v ∧ v ≤ 1500 := by
  obtain ⟨w, same, range⟩ := (readingsOf_single (k := 2) rfl).1 reads
  cases same
  simpa [inRange, pointRange, valuePoint] using range

theorem handModule_flow (s : State) : handModule .flow s = handPoint slfPoint s := by
  have point : valuePoint 2 = slfPoint := rfl
  rw [handModule, moduleValues, List.foldl_cons, List.foldl_nil, point]

theorem exec_flow_bad {rest : List Byte} {s : State}
    (bad : ¬ ∃ vs, readingsOf .flow vs ∧ BitVec.ofNat 8 (Module.code .flow + 1) :: rest = moduleFrame .flow vs) :
    exec (.moduleReadingFrame (BitVec.ofNat 8 (Module.code .flow + 1) :: rest)) s = .next (badModuleFrame .flow s) := by
  have none := goodReadings_none (k := 2) rfl bad
  show execModuleReadingFrame (BitVec.ofNat 8 (Module.code .flow + 1) :: rest) s = _
  have address : moduleOf (BitVec.ofNat 8 (Module.code .flow + 1)) = some .flow := rfl
  simp only [execModuleReadingFrame, address, none]

/-- A good frame of a module that is not FAULTED, or has run well for two frames before (R97). -/
theorem goodFrame_taken {m : Module} {vs : List Int} {s : State}
    (taken : (s.module m).status ≠ .faulted ∨ 2 ≤ (s.module m).goodRun) : goodFrame m vs s = takeReadings m vs s := by
  unfold goodFrame
  dsimp only
  split
  · rfl
  · rfl
  · next faulted =>
    have run := taken.resolve_left (not_not.2 faulted)
    exact if_pos (by omega)

/-- FLOW as a good frame leaves it. -/
def flowRead (v : Int) (s : State) : State :=
  setReadings .flow [v]
    (s.setModule .flow { s.module .flow with status := .valid, badCount := 0, goodRun := 0, stale := some 0 })

theorem exec_flow_good {v : Int} {s : State} (reads : readingsOf .flow [v])
    (taken : (s.module .flow).status ≠ .faulted ∨ 2 ≤ (s.module .flow).goodRun) :
    exec (.moduleReadingFrame (moduleFrame .flow [v])) s = .next (handPoint slfPoint (flowRead v s)) := by
  have range := flow_range reads
  have good := goodReadings_moduleFrame (k := 2) rfl reads (by unfold fits16; omega)
  have frame : goodFrame .flow [v] s = handPoint slfPoint (flowRead v s) := by
    rw [goodFrame_taken taken, ← handModule_flow]
    rfl
  rw [← frame]
  obtain ⟨b, c, x, y, bytes, -, -⟩ := moduleFrame_single .flow v
  rw [bytes] at good ⊢
  show execModuleReadingFrame [BitVec.ofNat 8 (Module.code .flow + 1), b, c, x, y] s = _
  have address : moduleOf (BitVec.ofNat 8 (Module.code .flow + 1)) = some .flow := rfl
  simp only [execModuleReadingFrame, address, good]

theorem flowRead_status (v : Int) (s : State) : (flowRead v s).pointStatus 13 = .valid := by
  show ((s.setModule .flow _).module .flow).status = _
  rw [module_setModule, if_pos rfl]

theorem flowRead_value (v : Int) (s : State) : (flowRead v s).pointValue 13 = some v :=
  (modValue_setModValue _ 2 v 2).trans (if_pos rfl)

/-- A module that is not VALID makes SLF short (R66). -/
theorem setModule_flow_short {s : State} {x : ModuleState} (invalid : x.status ≠ .valid) (minimum : Int) :
    shortOf (s.setModule .flow x) 13 minimum := by
  refine shortOf_invalid (fun valid => invalid ?_) minimum
  have status : ((s.setModule .flow x).module .flow).status = .valid := valid
  rwa [module_setModule, if_pos rfl] at status

/-- A bad frame that reaches the threshold faults FLOW. -/
theorem badModuleFrame_faults {m : Module} {s : State} (small : (s.module m).badCount ≤ 255)
    (sound : (s.module m).status ≠ .faulted) (due : (s.module m).threshold ≤ min 255 ((s.module m).badCount + 1)) :
    badModuleFrame m s = queueNotice .operator (.moduleFaulted m) (handModule m (s.setModule m
      { s.module m with status := .faulted, badCount := min 255 ((s.module m).badCount + 1), goodRun := 0, stale := none })) := by
  have count : (if (s.module m).badCount < 255 then (s.module m).badCount + 1 else 255) =
      min 255 ((s.module m).badCount + 1) := by split <;> omega
  have twice : ∀ x y : ModuleState, (s.setModule m x).setModule m y = s.setModule m y := fun x y => by
    simp [State.setModule]
  unfold badModuleFrame superviseModule faultModule
  simp only [count, module_setModule, if_true, twice]
  exact if_pos ⟨sound, due⟩

/-! ### The statement -/

section
variable {w : Fin 2} {s : State}

/-- A point handed to its users engages the interlock of the lane, where the points were all that changed before. -/
theorem handPoint_cuts {p : Point} (watched : p = pmsPoint ∨ p = slfPoint) {u : State} (lanes : u.lanes = s.lanes)
    (interlocks : u.interlocks = s.interlocks) (creep : 0 ≤ (s.interlock w).creep)
    (stands : ∀ c, (s.interlock w).engaged = true → (s.lane (wheelActuator w)).command = some c →
      -(50 * (s.interlock w).creep) ≤ c ∧ c ≤ 50 * (s.interlock w).creep)
    (due : interlockDue u (s.interlock w)) : engagedAndCut s (handPoint p u) w := by
  have lane := lane_of_lanes lanes (wheelActuator w)
  have interlock : u.interlock w = s.interlock w := by rw [State.interlock, interlocks]; rfl
  have cuts := WheelReacts.cuts (handPoint_reacts watched w u)
  rw [engagedAndCut, lane, interlock] at cuts
  exact cuts due creep stands

end

/-- Settles O33. Each command writes points alone and hands one of PMS and SLF to its users, whose interlocks re-evaluate
their flags in either order of the users. -/
theorem interlockEngagementCutsTheWheelCommand : Obligations.InterlockEngagementCutsTheWheelCommand := by
  intro w v current s x m taken cut freed
  have pump : ∀ {v : Int}, 2000 ≤ current → current ≤ 20000 → 0 ≤ v → v ≤ 2000 →
      sampleValue 10 current (1000 * v) = some v := fun {v} least most lower upper =>
    sampleValue_live (show _ ∧ _ ∧ _ ∧ _ ∧ _ from ⟨least, most, by omega, by omega, by simp⟩)
  refine ⟨fun creep stands => ⟨fun least most lower upper sound below => ?_, fun dead sound => ?_, fun minimum => ⟨?_, ?_, ?_⟩⟩,
    fun least most lower upper sound above flows => ?_, fun reads good flows pumps => ?_⟩
  · refine ⟨_, exec_sample_taken (pump least most lower upper) sound, handPoint_cuts (.inl rfl) (s := s)
      (u := s.setDirect 10 ⟨.valid, some v, none⟩) rfl rfl creep stands (.inl ?_)⟩
    exact (shortOf_valid (pointStatus_setDirect s 10 _) (pointValue_setDirect s 10 _)).2 below
  · refine ⟨_, exec_sample_faults (sampleValue_dead dead) sound, ?_⟩
    have status := pointStatus_setDirect s 10 ⟨.faulted, (s.directAt 10).value, none⟩
    have cuts := handPoint_cuts (p := directPoint 10) (.inl rfl) (s := s)
      (u := s.setDirect 10 ⟨.faulted, (s.directAt 10).value, none⟩) rfl rfl creep stands
      (.inl (shortOf_invalid (fun valid => nomatch status.symm.trans valid) _))
    simpa only [engagedAndCut, faultDirect, queueNotice_leaves] using cuts
  · intro reads good below
    refine ⟨_, exec_flow_good reads good, handPoint_cuts (.inr rfl) (s := s) (u := flowRead v s) rfl rfl creep stands
      (.inr ⟨minimum, ?_⟩)⟩
    exact (shortOf_valid (flowRead_status v s) (flowRead_value v s)).2 below
  · intro n timer due
    have timer : (s.module .flow).stale = some n := timer
    have expired : exec (.moduleStaleExpiry .flow) s = .next (staleModule .flow s) := by
      show execModuleStaleExpiry .flow s = _
      exact if_pos (by rw [ModuleState.staleDue, timer]; exact decide_eq_true due)
    refine ⟨_, expired, ?_⟩
    rw [staleModule, handModule_flow]
    exact handPoint_cuts (.inr rfl) (s := s) (u := s.setModule .flow { s.module .flow with status := .stale, stale := none })
      rfl rfl creep stands (.inr ⟨minimum, setModule_flow_short (by simp) _⟩)
  · intro rest small sound due bad
    refine ⟨_, exec_flow_bad bad, ?_⟩
    have cuts := handPoint_cuts (p := slfPoint) (.inr rfl) (s := s) (u := s.setModule .flow { s.module .flow with
      status := .faulted, badCount := min 255 ((s.module .flow).badCount + 1), goodRun := 0, stale := none })
      rfl rfl creep stands (.inr ⟨minimum, setModule_flow_short (by simp) _⟩)
    rw [badModuleFrame_faults small sound due]
    simpa only [engagedAndCut, handModule_flow, queueNotice_leaves] using cuts
  · refine ⟨_, exec_sample_taken (pump least most lower upper) sound,
      WheelReacts.frees (s := s.setDirect 10 _) (handPoint_reacts (.inl rfl) w _) ?_⟩
    rintro (short | ⟨minimum, short⟩)
    · have below : v < x.pumpMin := (shortOf_valid (pointStatus_setDirect s 10 _) (pointValue_setDirect s 10 _)).1 short
      omega
    · exact flows.elim minimum fun full => full short
  · refine ⟨_, exec_flow_good reads good, WheelReacts.frees (s := flowRead v s) (handPoint_reacts (.inr rfl) w _) ?_⟩
    rintro (short | ⟨minimum, short⟩)
    · exact pumps short
    · have below : v < x.flowMin := (shortOf_valid (flowRead_status v s) (flowRead_value v s)).1 short
      exact flows.elim minimum fun above => by omega

end Sys2Proof.Machine
end

section
/-! A point and its users (R61, R62, R76, R91): guards that watch another point, the settle detector of the point's lane,
and interlocks that a reading does not move. -/

namespace Sys2Proof.Machine

section
variable {p : Point} {s t : State} {i : Slot} {k : Nat}

/-! ### Guards that watch another point -/

/-- Guard `k` of the order in slot `i`, if any, does not watch the point. -/
def unwatchedAt (p : Point) (s : State) (i : Slot) (k : Nat) : Prop :=
  ∀ q e, s.orderAt i = some q → q.guards[k]? = some e → e.guard.point ≠ p

theorem Order.kept_guard {o q : Order} (kept : o.kept q) {e : GuardEntry} (entry : q.guards[k]? = some e) :
    ∃ e', o.guards[k]? = some e' ∧ e'.guard = e.guard := by
  obtain ⟨-, -, -, -, -, -, -, -, -, -, guards⟩ := kept
  have same := congrArg (·[k]?) guards
  simp only [List.getElem?_map, entry, Option.map_some] at same
  exact Option.map_eq_some_iff.1 same.symm

theorem unwatchedAt.kept (h : unwatchedAt p s i k) (orders : OrdersKept s t) : unwatchedAt p t i k := by
  intro q e live entry
  obtain ⟨o, before, kept, -⟩ := orders i q live
  obtain ⟨e', entry', same⟩ := Order.kept_guard kept entry
  exact same ▸ h o e' before entry'

theorem evalGuard_unwatched {h : Handle}
    (apart : ∀ o e, s.order? h = some o → o.guards[k]? = some e → e.guard.point ≠ p) : evalGuard p h k s = s := by
  unfold evalGuard
  split
  · rfl
  · next o live =>
    split
    · rfl
    · next e entry => exact if_neg (apart o e live entry)

theorem unwatchedAt.evalGuard {h : Handle} (apart : unwatchedAt p s h.slot k) : evalGuard p h k s = s :=
  evalGuard_unwatched fun o e live => apart o e (order?_eq_some live).2

/-- The guards of one slot take a reading (R76). -/
def guardTurn (p : Point) (s : State) (i : Slot) : State := evalGuard p (s.handleAt i) 1 (evalGuard p (s.handleAt i) 0 s)

theorem guardUse_eq (p : Point) (s : State) : guardUse p s = allSlots.foldl (guardTurn p) s := rfl

theorem guardTurn_unwatched (apart : ∀ k, k < 2 → unwatchedAt p s i k) : guardTurn p s i = s := by
  have first := (apart 0 (by omega)).evalGuard (h := s.handleAt i)
  have second := (apart 1 (by omega)).evalGuard (h := s.handleAt i)
  rw [guardTurn, first, second]

theorem guardTurns_unwatched {l : List Slot} (apart : ∀ i ∈ l, ∀ k, k < 2 → unwatchedAt p s i k) :
    l.foldl (guardTurn p) s = s :=
  List.foldlRecOn (motive := fun t => t = s) l _ rfl fun t same i mem => by
    subst same
    exact guardTurn_unwatched (apart i mem)

theorem guardUse_unwatched (apart : ∀ i k, unwatchedAt p s i k) : guardUse p s = s :=
  guardTurns_unwatched fun i _ k _ => apart i k

/-- Where one guard watches the point, the guard unit evaluates it alone (R76). -/
theorem guardUse_sole {h : Handle} {o : Order} {g : Fin 2} (live : s.order? h = some o)
    (sole : ∀ i k, unwatchedAt p s i k ∨ (i = h.slot ∧ k = g.val)) : guardUse p s = evalGuard p h g s := by
  have elsewhere : ∀ {t}, OrdersKept s t → ∀ i, i ≠ h.slot → ∀ k, k < 2 → unwatchedAt p t i k := fun kept i apart k _ =>
    ((sole i k).resolve_right fun own => apart own.1).kept kept
  obtain ⟨before, after, split⟩ := List.append_of_mem (mem_allSlots h.slot)
  have nodup : allSlots.Nodup := List.nodup_finRange 40
  rw [split, List.nodup_middle, List.nodup_cons, List.mem_append, not_or] at nodup
  obtain ⟨⟨notBefore, notAfter⟩, -⟩ := nodup
  have turn : guardTurn p s h.slot = evalGuard p h g s := by
    rw [guardTurn, (order?_eq_some live).1]
    by_cases first : g = 0
    · subst first
      have second : unwatchedAt p s h.slot 1 := (sole h.slot 1).resolve_right fun own => absurd own.2 (by decide)
      exact (second.kept (evalGuard_frame p h 0 s).orders).evalGuard
    · have isSecond : g = 1 := by omega
      subst isSecond
      have idle : unwatchedAt p s h.slot 0 := (sole h.slot 0).resolve_right fun own => absurd own.2 (by decide)
      rw [idle.evalGuard]
      rfl
  rw [guardUse_eq, split, List.foldl_append, List.foldl_cons,
    guardTurns_unwatched fun i mem => elsewhere (OrdersKept.refl s) i fun same => notBefore (same ▸ mem), turn,
    guardTurns_unwatched fun i mem => elsewhere (evalGuard_frame p h g s).orders i fun same => notAfter (same ▸ mem)]

/-! ### Both orders of the users (R91) -/

theorem handPoint_agree (guardFirst : laneUse p (guardUse p s) = t) (laneFirst : guardUse p (laneUse p s) = t) :
    handPoint p s = t := by
  unfold handPoint
  simp only [guardFirst, laneFirst, if_true]

/-- Without a guard that watches it, a point goes to its lanes alone. -/
theorem handPoint_unwatched (apart : ∀ i k, unwatchedAt p s i k) : handPoint p s = laneUse p s :=
  handPoint_agree (by rw [guardUse_unwatched apart])
    (guardUse_unwatched fun i k => (apart i k).kept (laneUse_frame p s).orders)

/-! ### Interlocks that stand -/

theorem interlockUse_still {w : Fin 2} (stand : interlocksStand s) : interlockUse w s = s := by
  have flag : s.interlockFlag (s.interlock w) = (s.interlock w).engaged := by
    rw [Bool.eq_iff_iff, interlockFlag_iff]
    exact (stand w).symm
  have same : s.setInterlock w (s.interlock w) = s := by simp [State.setInterlock, State.interlock]
  unfold interlockUse
  dsimp only
  rw [flag, same, if_neg (by simp)]

theorem EngineFrame.interlocksStand (frame : EngineFrame s t) (stand : interlocksStand s) : interlocksStand t := by
  intro w
  have interlock : t.interlock w = s.interlock w := by rw [State.interlock, frame.interlocks]; rfl
  rw [interlock, ← interlockFlag_iff, frame.blocks.points.flag, interlockFlag_iff]
  exact stand w

end

/-! ### The settle detector (R61, R62) -/

section
variable {p : DirectPoint} {a : Actuator} {s : State} {h : Handle} {o : Order}

/-- The lane whose feedback is the point (R29). -/
def laneOf (p : DirectPoint) : Actuator := ⟨p.val, by omega⟩

/-- The lane users of a direct point: the detector of its lane, and for PMS the interlocks. -/
theorem laneUse_direct (p : DirectPoint) (s : State) : laneUse (directPoint p) s =
    if p = 10 then interlockUse 1 (interlockUse 0 (settleUse (laneOf p) s)) else settleUse (laneOf p) s := by
  have direct : (directPoint p).val < 11 := p.isLt
  have watched : (directPoint p = pmsPoint ∨ directPoint p = slfPoint) ↔ p = 10 := by
    revert p
    decide
  unfold laneUse
  simp only [dif_pos direct, watched]
  rfl

theorem laneUse_still (stand : p = 10 → interlocksStand s) : laneUse (directPoint p) s = settleUse (laneOf p) s := by
  rw [laneUse_direct]
  split
  · next pump =>
    have stands := (settleUse_frame (laneOf p) s).interlocksStand (stand pump)
    rw [interlockUse_still stands, interlockUse_still stands]
  · rfl

theorem settleUse_undriven (idle : (s.lane a).state ≠ .driven) : settleUse a s = s := by
  unfold settleUse
  split
  · next driven _ => exact absurd driven idle
  · rfl

variable (driven : (s.lane a).state = .driven) (governs : s.governing a = some (h, o))
include driven governs

theorem settleUse_restarts (out : s.inBand a o.target = false) : settleUse a s = restartDetector a s := by
  simp only [settleUse, driven, governs, out, Bool.false_eq_true, if_false]

theorem settleUse_starts (within : s.inBand a o.target = true) (idle : (s.lane a).detector = .idle)
    (there : s.atTarget a o.target = true) : settleUse a s =
      if (s.lane a).dwell = 0 then settleOrder h (setDetector a .settled s) else setDetector a (.timing 0) s := by
  simp only [settleUse, driven, governs, within, idle, there, if_true]

theorem settleUse_stays (within : s.inBand a o.target = true)
    (still : (s.lane a).detector ≠ .idle ∨ s.atTarget a o.target = false) : settleUse a s = s := by
  simp only [settleUse, driven, governs, within, if_true]
  split
  · next idle => exact if_neg (by rw [still.resolve_left (not_not.2 idle)]; simp)
  · rfl
  · rfl

end

/-! ### Wheel interlocks beside the lane -/

section
variable {s : State} {w : Fin 2}

theorem restartDetector_slot {a : Actuator} {i : Slot} (apart : ∀ k, (s.lane a).gov = some k → k.slot ≠ i) :
    (restartDetector a s).slot i = s.slot i := by
  show (clearSettled a s).slot i = s.slot i
  unfold clearSettled
  split
  · next k gov => rw [slot_updOrder, if_neg (apart k gov).symm]
  · rfl

/-- The cut touches no order but the one that governs the wheel lane. -/
theorem interlockUse_slot {i : Slot} (apart : ∀ k, (s.lane (wheelActuator w)).gov = some k → k.slot ≠ i) :
    (interlockUse w s).slot i = s.slot i := by
  have cut : ∀ (u : State) v, (setCommand (wheelActuator w) v u).slot i = u.slot i := fun u v =>
    slot_of_slots (setCommand_leaves (wheelActuator w) v u).2.1 i
  unfold interlockUse
  dsimp only
  split
  · split
    · split
      · rfl
      · split
        · rw [restartDetector_slot, cut]
          · rfl
          · intro k gov
            rw [setCommand_lane, if_pos rfl] at gov
            exact apart k gov
        · rw [cut]
          rfl
    · rfl
  · rfl

end

/-- A reading at the lane whose feedback it is: the lane and its order are as the settle detector leaves them. -/
theorem laneUse_settles {p : DirectPoint} {h : Handle} {o : Order} {s t : State} (law : LaneLaw s)
    (live : s.order? h = some o) (gov : (s.lane (laneOf p)).gov = some h) (settles : settleUse (laneOf p) s = t)
    (others : ∀ b, b ≠ laneOf p → t.lane b = s.lane b) :
    (laneUse (directPoint p) s).lane (laneOf p) = t.lane (laneOf p) ∧ (laneUse (directPoint p) s).order? h = t.order? h := by
  rw [laneUse_direct, settles]
  split
  · next pump =>
    have apart : ∀ w, laneOf p ≠ wheelActuator w := by
      subst pump
      decide
    have wheel : ∀ w k, (t.lane (wheelActuator w)).gov = some k → k.slot ≠ h.slot := by
      intro w k gov' same
      rw [others _ (apart w).symm] at gov'
      obtain ⟨q, live', actuator, -⟩ := law.governs _ k gov'
      obtain ⟨o', live'', actuator', -⟩ := law.governs _ h gov
      have handle : k = h := by
        rw [← (order?_eq_some live').1, ← (order?_eq_some live).1, same]
      subst handle
      rw [live'] at live''
      cases live''
      exact apart w (actuator'.symm.trans actuator)
    have lanes : ∀ w, (interlockUse w t).lane (laneOf p) = t.lane (laneOf p) := fun w => interlockUse_lane (apart w) t
    refine ⟨by rw [interlockUse_lane (apart 1), lanes], order?_of_slot ?_⟩
    rw [interlockUse_slot, interlockUse_slot (wheel 0)]
    intro k gov'
    rw [interlockUse_lane (by decide)] at gov'
    exact wheel 1 k gov'
  · exact ⟨rfl, rfl⟩

end Sys2Proof.Machine
end

section
/-! A guard that alone watches a direct point, on a reading or a fault of it that moves no detector and no interlock (R75
to R82). -/

namespace Sys2Proof.Machine

/-! ### The writes of an evaluation -/

/-- The order with guard `g`, whose entry is `e`, in the condition `c`. -/
def Order.withCond (o : Order) (g : Nat) (e : GuardEntry) (c : Cond) : Order :=
  { o with guards := o.guards.set g { e with cond := c } }

section
variable {h : Handle} {g : Nat} {o : Order} {e : GuardEntry} {s : State}

theorem setCond_eq (live : s.order? h = some o) (entry : o.guards[g]? = some e) (c : Cond) :
    setCond h g c s = s.setSlot h.slot ⟨h.gen, some (o.withCond g e c)⟩ := by
  have modified : (o.guards.modify g fun e => { e with cond := c }) = o.guards.set g { e with cond := c } := by
    rw [List.modify_eq_set_getElem?, entry]
    rfl
  rw [setCond, updOrder_eq live, modified]
  rfl

/-- The lane of a governing order takes a hold. -/
theorem takeHolds_held (gov : (s.lane o.actuator).gov = some h)
    (held : ((s.lane o.actuator).masked o.cls || o.frozen) = true) :
    takeHolds o.actuator (s.setSlot h.slot ⟨h.gen, some o⟩) =
      (s.setSlot h.slot ⟨h.gen, some { o with settled := false }⟩).updLane o.actuator fun l =>
        { l with state := .held, guardHold := o.frozen, maskHold := l.masked o.cls, detector := .idle } := by
  have governs : (s.setSlot h.slot ⟨h.gen, some o⟩).governing o.actuator = some (h, o) :=
    governing_eq_some.2 ⟨gov, order?_setSlot s h o⟩
  rw [takeHolds_holds governs held, updOrder_setSlot]
  unfold State.updLane
  congr

theorem takeHolds_held_state (gov : (s.lane o.actuator).gov = some h)
    (held : ((s.lane o.actuator).masked o.cls || o.frozen) = true) :
    ((takeHolds o.actuator (s.setSlot h.slot ⟨h.gen, some o⟩)).lane o.actuator).state = .held := by
  rw [takeHolds_held gov held, lane_updLane, if_pos rfl]

/-- The lane of a governing order without a hold is DRIVEN. -/
theorem takeHolds_driven (apart : o.actuator ≠ gate) (gov : (s.lane o.actuator).gov = some h)
    (free : ((s.lane o.actuator).masked o.cls || o.frozen) = false) :
    takeHolds o.actuator (s.setSlot h.slot ⟨h.gen, some o⟩) =
      (s.setSlot h.slot ⟨h.gen, some o⟩).updLane o.actuator fun l =>
        { l with state := .driven, guardHold := false, maskHold := false } := by
  have governs : (s.setSlot h.slot ⟨h.gen, some o⟩).governing o.actuator = some (h, o) :=
    governing_eq_some.2 ⟨gov, order?_setSlot s h o⟩
  have same : (s.setSlot h.slot ⟨h.gen, some o⟩).lane o.actuator = s.lane o.actuator := rfl
  simp only [takeHolds, governs, same, free, Bool.false_eq_true, if_false, if_neg apart]

/-- The hold, or the drive, of a lane that is not the GATE's leaves the GATE as it was. -/
theorem takeHolds_gateAlike (own : NamesOwn s) {a : Actuator} (apart : a ≠ gate) : GateAlike s (takeHolds a s) where
  travel := (takeHolds_resolves a s).travel apart
  lane := (takeHolds_resolves a s).lanes gate apart.symm
  orders _ _ live onGate := takeHolds_slot (own.unnamed live (onGate ▸ apart.symm))

/-- A lane that takes its holds gives the GATE nothing new to settle, unless it is the GATE, DRIVEN at the end of its
travel. -/
theorem takeHolds_settles (own : NamesOwn s) {a : Actuator} (quiet : s.gateSettles = none)
    (hindered : a = gate → ((takeHolds gate s).lane gate).state ≠ .driven) : (takeHolds a s).gateSettles = none := by
  by_cases onGate : a = gate
  · subst onGate
    cases settles : (takeHolds gate s).gateSettles with
    | none => rfl
    | some k =>
      obtain ⟨-, -, -, driven, -⟩ := gateSettles_iff.1 settles
      exact absurd driven (hindered rfl)
  · exact (takeHolds_gateAlike own onGate).settles own (takeHolds_frame a s).orders quiet

/-- A change of a guard's condition gives the GATE nothing to settle. -/
theorem setCond_settles {c : Cond} (quiet : s.gateSettles = none) : (setCond h g c s).gateSettles = none := by
  cases settles : (setCond h g c s).gateSettles with
  | none => rfl
  | some k =>
    obtain ⟨q, gov, live, driven, unsettled, complete, there⟩ := gateSettles_iff.1 settles
    have lanes := setCond_lane h g c s gate
    have before : ∃ o, s.order? k = some o ∧ o.settled = q.settled ∧ o.target = q.target := by
      rw [setCond, order?_updOrder] at live
      split at live
      · obtain ⟨o, before, rfl⟩ := Option.map_eq_some_iff.1 live
        exact ⟨o, before, rfl, rfl⟩
      · exact ⟨q, live, rfl, rfl⟩
    obtain ⟨o, before, settled, target⟩ := before
    have again : s.gateSettles = some k := gateSettles_iff.2 ⟨o, lanes ▸ gov, before, lanes ▸ driven, settled.trans unsettled,
      by simpa [setCond] using complete, by simpa only [State.atTarget, lanes, target] using there⟩
    rw [quiet] at again
    cases again

end

/-! ### One guard on the point -/

/-- Guard `g` of the order `o` under `h` alone watches the direct point, whose lane is another than the order's and not
DRIVEN, and PMS moves no interlock. -/
structure SoleUser (s : State) (p : DirectPoint) (h : Handle) (g : Fin 2) (o : Order) (e : GuardEntry) : Prop where
  live : s.order? h = some o
  entry : o.guards[g.val]? = some e
  watches : e.guard.point = directPoint p
  sole : ∀ i k, unwatchedAt (directPoint p) s i k ∨ (i = h.slot ∧ k = g.val)
  own : NamesOwn s
  undriven : (s.lane (laneOf p)).state ≠ .driven
  apart : o.actuator ≠ laneOf p
  stand : p = 10 → interlocksStand s

section
variable {s t : State} {p : DirectPoint} {h : Handle} {g : Fin 2} {o : Order} {e : GuardEntry}
  (x : SoleUser s p h g o e)
include x

theorem SoleUser.guards : guardUse (directPoint p) s = evalGuard (directPoint p) h g s := guardUse_sole x.live x.sole

theorem SoleUser.lanes : laneUse (directPoint p) s = s := by
  rw [laneUse_still x.stand, settleUse_undriven x.undriven]

/-- The users of the point do what the guard does, where that does not drive the point's lane. -/
theorem SoleUser.hands (evaluated : evalGuard (directPoint p) h g s = t) (undriven : (t.lane (laneOf p)).state ≠ .driven) :
    handPoint (directPoint p) s = t := by
  have frame : EngineFrame s t := evaluated ▸ evalGuard_frame (directPoint p) h g s
  refine handPoint_agree ?_ ?_
  · rw [x.guards, evaluated, laneUse_still fun pump => frame.interlocksStand (x.stand pump), settleUse_undriven undriven]
  · rw [x.lanes, x.guards, evaluated]

/-- Whatever the guard causes, the lanes then write only what the engine may. -/
theorem SoleUser.framed : EngineFrame (evalGuard (directPoint p) h g s) (handPoint (directPoint p) s) := by
  have draws : ∀ (t : State) n, EngineFrame t { t with draws := n } := fun t n =>
    ⟨(draws_frame t n).blocks, rfl, (draws_frame t n).tables, (draws_frame t n).orders, (draws_frame t n).free⟩
  obtain ⟨n, order | order⟩ := handPoint_orders (directPoint p) s
  · rw [order, x.guards, laneUse_still fun pump => (evalGuard_frame _ h g s).interlocksStand (x.stand pump)]
    exact (settleUse_frame _ _).trans (draws _ n)
  · rw [order, x.lanes, x.guards]
    exact draws _ n

/-! ### The cases of R78 -/

theorem SoleUser.evaluates : evalGuard (directPoint p) h g s = match e.cond, violated s e.guard with
    | .satisfied, true => if e.guard.dwell = 0 then guardAct h g e.guard.action s else setCond h g (.timing 0) s
    | .timing _, false => setCond h g .satisfied s
    | .active, false => guardEnds h g s
    | _, _ => s := by
  simp only [evalGuard, x.live, x.entry, x.watches, if_true]
  split <;> simp_all

theorem SoleUser.writes (c : Cond) : setCond h g c s = s.setSlot h.slot ⟨h.gen, some (o.withCond g e c)⟩ :=
  setCond_eq x.live x.entry c

theorem SoleUser.idles (bad : violated s e.guard = true → e.cond ≠ .satisfied)
    (good : violated s e.guard = false → e.cond = .inert ∨ e.cond = .satisfied) : handPoint (directPoint p) s = s := by
  refine x.hands ?_ x.undriven
  rw [x.evaluates]
  cases found : violated s e.guard with
  | true =>
    cases cond : e.cond with
    | satisfied => exact absurd cond (bad found)
    | inert => rfl
    | timing n => rfl
    | active => rfl
  | false => rcases good found with cond | cond <;> rw [cond]

/-- A change of the guard's condition that is all the evaluation writes. -/
theorem SoleUser.sets {c : Cond} (evaluated : evalGuard (directPoint p) h g s = setCond h g c s) :
    handPoint (directPoint p) s = s.setSlot h.slot ⟨h.gen, some (o.withCond g e c)⟩ := by
  rw [← x.writes]
  refine x.hands evaluated ?_
  rw [setCond_lane]
  exact x.undriven

theorem SoleUser.starts (bad : violated s e.guard = true) (cond : e.cond = .satisfied) (dwell : 0 < e.guard.dwell) :
    handPoint (directPoint p) s = s.setSlot h.slot ⟨h.gen, some (o.withCond g e (.timing 0))⟩ := by
  refine x.sets ?_
  rw [x.evaluates, cond, bad]
  exact if_neg (by omega)

theorem SoleUser.stops (good : violated s e.guard = false) {n : Nat} (cond : e.cond = .timing n) :
    handPoint (directPoint p) s = s.setSlot h.slot ⟨h.gen, some (o.withCond g e .satisfied)⟩ := by
  refine x.sets ?_
  rw [x.evaluates, cond, good]

theorem SoleUser.acts (bad : violated s e.guard = true) (cond : e.cond = .satisfied) (dwell : e.guard.dwell = 0) :
    evalGuard (directPoint p) h g s = guardAct h g e.guard.action s := by
  rw [x.evaluates, cond, bad]
  exact if_pos dwell

theorem SoleUser.retires (bad : violated s e.guard = true) (cond : e.cond = .satisfied) (dwell : e.guard.dwell = 0)
    (action : e.guard.action = .retire) : (handPoint (directPoint p) s).slot h.slot = ⟨h.gen + 1, none⟩ ∧
      firstNotice s (handPoint (directPoint p) s) (addressee o.cls) (.retired h o.actuator .guardTrip) ∧
      EngineFrame s (handPoint (directPoint p) s) := by
  have retired : evalGuard (directPoint p) h g s = retire h.slot .guardTrip s := by
    rw [x.acts bad cond dwell, action]
    rfl
  have framed := x.framed
  rw [retired] at framed
  obtain ⟨handle, own⟩ := order?_eq_some x.live
  have self := retire_self (c := .guardTrip) own
  have first := retire_first (c := .guardTrip) own (by simp)
  rw [order?_slot x.live] at self
  rw [handle] at first
  exact ⟨framed.stays_free self, first.engine framed, (retire_frame _ _ _).trans framed⟩

theorem SoleUser.freezes (bad : violated s e.guard = true) (cond : e.cond = .satisfied) (dwell : e.guard.dwell = 0)
    (action : e.guard.action = .freeze) (waits : o.state ≠ .governing) :
    handPoint (directPoint p) s = s.setSlot h.slot ⟨h.gen, some (o.withCond g e .active)⟩ := by
  refine x.sets ?_
  rw [x.acts bad cond dwell, action, guardAct_freeze x.live x.entry, if_neg waits, x.writes]
  rfl

theorem SoleUser.holds (bad : violated s e.guard = true) (cond : e.cond = .satisfied) (dwell : e.guard.dwell = 0)
    (action : e.guard.action = .freeze) (governs : o.state = .governing) (gov : (s.lane o.actuator).gov = some h) :
    handPoint (directPoint p) s =
      (s.setSlot h.slot ⟨h.gen, some { o.withCond g e .active with settled := false }⟩).updLane o.actuator fun l =>
        { l with state := .held, guardHold := true, maskHold := l.masked o.cls, detector := .idle } := by
  refine x.hands ?_ ?_
  · rw [x.acts bad cond dwell, action, guardAct_freeze x.live x.entry, if_pos governs]
    exact takeHolds_frozen (o := o.withActive g e) gov (withActive_frozen x.entry)
  · rw [lane_updLane, if_neg (Ne.symm x.apart)]
    exact x.undriven

theorem SoleUser.ends (good : violated s e.guard = false) (cond : e.cond = .active) :
    evalGuard (directPoint p) h g s = if o.state = .governing
      then settleGate (takeHolds o.actuator (s.setSlot h.slot ⟨h.gen, some (o.withCond g e .satisfied)⟩))
      else s.setSlot h.slot ⟨h.gen, some (o.withCond g e .satisfied)⟩ := by
  rw [x.evaluates, cond, good]
  dsimp only [guardEnds]
  rw [x.writes, order?_setSlot]
  rfl

theorem SoleUser.released (good : violated s e.guard = false) (cond : e.cond = .active) (waits : o.state ≠ .governing) :
    handPoint (directPoint p) s = s.setSlot h.slot ⟨h.gen, some (o.withCond g e .satisfied)⟩ := by
  refine x.sets ?_
  rw [x.ends good cond, if_neg waits, x.writes]

/-- The guard of a governing order ends: its lane takes its holds anew, and the GATE has nothing to settle. -/
theorem SoleUser.rehold (good : violated s e.guard = false) (cond : e.cond = .active) (governs : o.state = .governing)
    (taken : takeHolds o.actuator (s.setSlot h.slot ⟨h.gen, some (o.withCond g e .satisfied)⟩) = t)
    (quiet : t.gateSettles = none) : handPoint (directPoint p) s = t := by
  refine x.hands (by rw [x.ends good cond, if_pos governs, taken, settleGate_none quiet]) ?_
  rw [← taken, (takeHolds_resolves _ _).lanes _ (Ne.symm x.apart)]
  exact x.undriven

theorem SoleUser.settlesNot (quiet : s.gateSettles = none)
    (hindered : o.actuator = gate →
      ((takeHolds gate (s.setSlot h.slot ⟨h.gen, some (o.withCond g e .satisfied)⟩)).lane gate).state ≠ .driven) :
    (takeHolds o.actuator (s.setSlot h.slot ⟨h.gen, some (o.withCond g e .satisfied)⟩)).gateSettles = none := by
  have own : NamesOwn (setCond h g .satisfied s) := x.own.mono (setCond_frame _ _ _ _).orders fun a _ =>
    (names_of_lane (setCond_lane h g .satisfied s a)).1
  rw [← x.writes] at hindered ⊢
  exact takeHolds_settles own (setCond_settles quiet) hindered

/-- R78 with R80 to R82, whichever of the users acts first. -/
theorem SoleUser.evaluated {bad : Prop} (found : bad ↔ violated s e.guard = true) :
    GuardEvaluated s h g o e bad (handPoint (directPoint p) s) := by
  have fine : ¬ bad ↔ violated s e.guard = false := by rw [found, Bool.not_eq_true]
  unfold GuardEvaluated
  refine ⟨fun bads goods => x.idles (bads ∘ found.2) (goods ∘ fine.2), fun isBad => x.starts (found.1 isBad),
    fun isBad => x.retires (found.1 isBad),
    fun isBad cond dwell action => ⟨x.freezes (found.1 isBad) cond dwell action, x.holds (found.1 isBad) cond dwell action⟩,
    fun good ⟨n, cond⟩ => x.stops (fine.1 good) cond, fun good => x.released (fine.1 good),
    fun good cond governs gov quiet => ⟨fun held => ?_, fun unmasked thawed => ⟨fun apart => ?_, fun onGate running => ?_⟩⟩⟩
  · have hold := takeHolds_held (o := o.withCond g e .satisfied) (s := s) gov (Bool.or_eq_true _ _ ▸ held)
    refine x.rehold (fine.1 good) cond governs hold (hold ▸ x.settlesNot quiet fun onGate driven => ?_)
    have state : ((takeHolds o.actuator (s.setSlot h.slot ⟨h.gen, some (o.withCond g e .satisfied)⟩)).lane o.actuator).state =
        .held := takeHolds_held_state (o := o.withCond g e .satisfied) gov (Bool.or_eq_true _ _ ▸ held)
    rw [onGate, driven] at state
    cases state
  · have drive := takeHolds_driven (o := o.withCond g e .satisfied) (s := s) apart gov
      (Bool.or_eq_false_iff.2 ⟨unmasked, thawed⟩)
    exact x.rehold (fine.1 good) cond governs drive (drive ▸ x.settlesNot quiet fun onGate => absurd onGate apart)
  · have still := (takeHolds_resolves o.actuator (s.setSlot h.slot ⟨h.gen, some (o.withCond g e .satisfied)⟩)).running running
    have governing : (s.setSlot h.slot ⟨h.gen, some (o.withCond g e .satisfied)⟩).governing o.actuator =
        some (h, o.withCond g e .satisfied) := governing_eq_some.2 ⟨gov, order?_setSlot s h _⟩
    have drives := takeHolds_drives governing (Bool.or_eq_false_iff.2 ⟨unmasked, thawed⟩)
    rw [x.rehold (fine.1 good) cond governs rfl (gateSettles_running still)]
    rw [onGate] at drives ⊢
    rw [drives]
    exact ⟨rfl, by simp [Order.withCond]⟩

end

end Sys2Proof.Machine
end

section
/-! A direct sample at its point, at the settle detector of its lane and at a guard that alone watches it (R61, R62, R75
to R78, R92 to R94). -/

namespace Sys2Proof.Machine

section
variable {p : DirectPoint} {current : Nat} {speed v : Int} {s : State}

/-! ### The point -/

theorem queueNotice_newest (o : Origin) (n : Notice) (s : State) : newestNotice (queueNotice o n s) o n := by
  unfold newestNotice queueNotice
  split
  · exact .inl ⟨_, rfl⟩
  · next full => exact .inr ⟨Nat.not_lt.1 full, rfl⟩

/-- A sample in the live range takes its value where the point is not FAULTED, or has recovered for 1 s (R92, R94). -/
theorem exec_sample_takes (live : liveSample p current speed v)
    (sound : (s.directAt p).status ≠ .faulted ∨ ∃ n, (s.directAt p).recovery = some n ∧ 1000 ≤ n + 20) :
    exec (.directSample p current speed) s = .next (handPoint (directPoint p) (s.setDirect p ⟨.valid, some v, none⟩)) := by
  by_cases faulted : (s.directAt p).status = .faulted
  · obtain ⟨n, timer, due⟩ := sound.resolve_left (not_not.2 faulted)
    rw [exec_sample_recovers (sampleValue_live live) faulted, recoverDirect]
    simp only [timer]
    exact congrArg _ (if_pos due)
  · exact exec_sample_taken (sampleValue_live live) faulted

theorem exec_sample_lost (dead : deadSample p current speed) (sound : (s.directAt p).status ≠ .faulted) :
    exec (.directSample p current speed) s = .next (queueNotice .operator (.pointFaulted p)
      (handPoint (directPoint p) (s.setDirect p ⟨.faulted, (s.directAt p).value, none⟩))) :=
  exec_sample_faults (sampleValue_dead dead) sound

/-- A FAULTED point starts its recovery with a sample in the live range, and goes on until 1 s is complete (R94). -/
theorem exec_sample_recovering (live : liveSample p current speed v) (faulted : (s.directAt p).status = .faulted) :
    ((s.directAt p).recovery = none → exec (.directSample p current speed) s =
      .next (s.setDirect p { s.directAt p with recovery := some 0 })) ∧
    (∀ n, (s.directAt p).recovery = some n → n + 20 < 1000 → exec (.directSample p current speed) s =
      .next (s.setDirect p { s.directAt p with recovery := some (n + 20) })) := by
  rw [exec_sample_recovers (sampleValue_live live) faulted]
  refine ⟨fun timer => ?_, fun n timer early => ?_⟩
  · simp only [recoverDirect, timer]
  · simp only [recoverDirect, timer]
    exact congrArg _ (if_neg (show ¬ 1000 ≤ n + 20 by omega))

/-! ### The settle detector -/

theorem laneOf_ne_gate (p : DirectPoint) : laneOf p ≠ gate := by
  revert p
  decide

theorem feedback_laneOf (p : DirectPoint) : feedback (laneOf p) = some (directPoint p) := by
  have direct : (laneOf p).val < 11 := p.isLt
  exact if_pos direct

theorem inBand_valid {target : Int} (status : s.pointStatus (directPoint p) = .valid)
    (value : s.pointValue (directPoint p) = some v) : s.inBand (laneOf p) target =
      decide ((v - target).natAbs ≤ (s.lane (laneOf p)).band.toNat) := by
  simp only [State.inBand, feedback_laneOf, status, value]

theorem inBand_invalid {target : Int} (status : s.pointStatus (directPoint p) ≠ .valid) :
    s.inBand (laneOf p) target = false := by
  simp only [State.inBand, feedback_laneOf]
  split
  · next valid _ => exact absurd valid status
  · rfl

end

/-- The lane of a direct point DRIVEN by the order `o` under `h`, no guard watching the point. -/
structure Detects (s : State) (p : DirectPoint) (h : Handle) (o : Order) : Prop where
  driven : (s.lane (laneOf p)).state = .driven
  gov : (s.lane (laneOf p)).gov = some h
  live : s.order? h = some o
  law : LaneLaw s
  unwatched : ∀ i k, unwatchedAt (directPoint p) s i k

section
variable {s t : State} {p : DirectPoint} {h : Handle} {o : Order} (x : Detects s p h o)
include x

theorem Detects.governs : s.governing (laneOf p) = some (h, o) := governing_eq_some.2 ⟨x.gov, x.live⟩

/-- The users leave the lane and its order as the settle detector does. -/
theorem Detects.hands (settles : settleUse (laneOf p) s = t) (others : ∀ b, b ≠ laneOf p → t.lane b = s.lane b) :
    (handPoint (directPoint p) s).lane (laneOf p) = t.lane (laneOf p) ∧
      (handPoint (directPoint p) s).order? h = t.order? h := by
  rw [handPoint_unwatched x.unwatched]
  exact laneUse_settles x.law x.live x.gov settles others

omit x in
theorem setDetector_others (d : Detector) (u : State) (b : Actuator) (apart : b ≠ laneOf p) :
    (setDetector (laneOf p) d u).lane b = u.lane b := by rw [setDetector, lane_updLane, if_neg apart]

theorem Detects.restarts (out : s.inBand (laneOf p) o.target = false) :
    (handPoint (directPoint p) s).lane (laneOf p) = { s.lane (laneOf p) with detector := .idle } ∧
      (handPoint (directPoint p) s).order? h = some { o with settled := false } := by
  have cleared : clearSettled (laneOf p) s = s.updOrder h.slot fun o => { o with settled := false } := by
    simp only [clearSettled, x.gov]
  obtain ⟨lane, order⟩ := x.hands (settleUse_restarts x.driven x.governs out) fun b apart => by
    rw [restartDetector, setDetector_others _ _ b apart, clearSettled_lane]
  rw [lane, order, restartDetector, setDetector, lane_updLane, if_pos rfl, clearSettled_lane, cleared]
  refine ⟨rfl, ?_⟩
  show (s.updOrder h.slot _).order? h = _
  rw [order?_updOrder, if_pos rfl, x.live]
  rfl

theorem Detects.starts (within : s.inBand (laneOf p) o.target = true) (idle : (s.lane (laneOf p)).detector = .idle)
    (there : s.atTarget (laneOf p) o.target = true) (dwell : 0 < (s.lane (laneOf p)).dwell) :
    (handPoint (directPoint p) s).lane (laneOf p) = { s.lane (laneOf p) with detector := .timing 0 } ∧
      (handPoint (directPoint p) s).order? h = some o := by
  have settles := settleUse_starts x.driven x.governs within idle there
  rw [if_neg (by omega)] at settles
  obtain ⟨lane, order⟩ := x.hands settles (setDetector_others _ s)
  rw [lane, order, setDetector, lane_updLane, if_pos rfl]
  exact ⟨rfl, x.live⟩

theorem Detects.settles (within : s.inBand (laneOf p) o.target = true) (idle : (s.lane (laneOf p)).detector = .idle)
    (there : s.atTarget (laneOf p) o.target = true) (dwell : (s.lane (laneOf p)).dwell = 0)
    (standing : o.completion = .standing) (unawaited : ∀ i, s.waitsOn i h = false) :
    (handPoint (directPoint p) s).lane (laneOf p) = { s.lane (laneOf p) with detector := .settled } ∧
      (handPoint (directPoint p) s).order? h = some { o with settled := true } := by
  have settles := settleUse_starts x.driven x.governs within idle there
  rw [if_pos dwell, settleOrder_standing (s := setDetector (laneOf p) .settled s) x.live standing unawaited] at settles
  obtain ⟨lane, order⟩ := x.hands settles fun b apart => by rw [updOrder_lane, setDetector_others _ s b apart]
  rw [lane, order, updOrder_lane, setDetector, lane_updLane, if_pos rfl, order?_updOrder, if_pos rfl]
  refine ⟨rfl, ?_⟩
  show (s.order? h).map _ = _
  rw [x.live]
  rfl

theorem Detects.stays (within : s.inBand (laneOf p) o.target = true)
    (still : (s.lane (laneOf p)).detector ≠ .idle ∨ s.atTarget (laneOf p) o.target = false) :
    (handPoint (directPoint p) s).lane (laneOf p) = s.lane (laneOf p) ∧ (handPoint (directPoint p) s).order? h = some o := by
  obtain ⟨lane, order⟩ := x.hands (settleUse_stays x.driven x.governs within still) fun _ _ => rfl
  exact ⟨lane, order.trans x.live⟩

end

/-! ### The guard -/

/-- A sole guard of the point keeps watching it when the point takes a sample. -/
theorem SoleGuard.user {s : State} {p : DirectPoint} {h : Handle} {g : Fin 2} {o : Order} {e : GuardEntry} {d : DirectState}
    (sole : SoleGuard s [⟨p.val, by omega⟩] h g o e)
    (aside : ∀ a : Actuator, a.val = p.val → (s.lane a).state ≠ .driven ∧ o.actuator ≠ a)
    (stand : p = 10 → interlocksStand (s.setDirect p d)) : SoleUser (s.setDirect p d) p h g o e where
  live := sole.live
  entry := sole.entry
  watches := List.mem_singleton.1 sole.watches
  sole i k := by
    by_cases own : i = h.slot ∧ k = g.val
    · exact .inr own
    · exact .inl fun q e' live entry same => own (sole.sole i q k e' live entry (List.mem_singleton.2 same))
  own := sole.lanes.namesOwn
  undriven := (aside (laneOf p) rfl).1
  apart := (aside (laneOf p) rfl).2
  stand := stand

theorem violated_valid {s : State} {g : Guard} {v : Int} (status : s.pointStatus g.point = .valid)
    (value : s.pointValue g.point = some v) : violates g v ↔ violated s g = true := by
  unfold violates violated
  simp only [status, value]
  cases g.relation <;> simp [relationHolds]

theorem violated_invalid {s : State} {g : Guard} (status : s.pointStatus g.point ≠ .valid) : violated s g = true := by
  unfold violated
  split
  · next valid _ => exact absurd valid status
  · rfl

/-- Settles O35. The sample is taken, faults its point or counts to its recovery; what its users do then is read off the
settle detector and the sole guard, in either order of the users. -/
theorem directSamplesAreTakenFaultAndRecover : Obligations.DirectSamplesAreTakenFaultAndRecover := by
  intro p current speed s d taken
  have takes : ∀ v, liveSample p current speed v → (d.status ≠ .faulted ∨ ∃ n, d.recovery = some n ∧ 1000 ≤ n + 20) →
      taken v := fun v live sound => ⟨_, exec_sample_takes live sound, handPoint_frame _ _⟩
  refine ⟨fun v live sound => takes v live (.inl sound), fun dead sound => ⟨_, exec_sample_lost dead sound, ?_, ?_⟩,
    fun dead faulted => exec_sample_stops (sampleValue_dead dead) faulted, fun v live faulted => ?_, ?_, ?_⟩
  · exact (handPoint_frame _ _).trans (queueNotice_frame _ _ _).reading
  · exact queueNotice_newest _ _ _
  · obtain ⟨starts, goes⟩ := exec_sample_recovering live faulted
    exact ⟨starts, goes, fun n timer due => takes v live (.inr ⟨n, timer, due⟩)⟩
  · intro a h o same driven gov live law unwatched sound band restarted
    obtain rfl : a = laneOf p := Fin.ext same
    have detects : ∀ d', Detects (s.setDirect p d') p h o := fun d' =>
      ⟨driven, gov, live, ⟨law.positions, law.governs, law.alone, law.states, law.running⟩,
        fun i k q e live entry watches => unwatched i q e live (List.mem_of_getElem? entry) (congrArg Fin.val watches)⟩
    refine ⟨fun dead => ⟨_, exec_sample_lost dead sound, ?_⟩, fun v reads => ⟨_, exec_sample_takes reads (.inl sound), ?_⟩⟩
    · have status := pointStatus_setDirect s p ⟨.faulted, (s.directAt p).value, none⟩
      have restarts := (detects _).restarts (inBand_invalid fun valid => nomatch status.symm.trans valid)
      simp only [restarted, queueNotice_leaves]
      exact restarts
    · have x := detects ⟨.valid, some v, none⟩
      have band' : ∀ target, (s.setDirect p ⟨.valid, some v, none⟩).inBand (laneOf p) target =
          decide ((v - target).natAbs ≤ (s.lane (laneOf p)).band.toNat) := fun target =>
        inBand_valid (pointStatus_setDirect s p _) (pointValue_setDirect s p _)
      have atTarget : ∀ target, (s.setDirect p ⟨.valid, some v, none⟩).atTarget (laneOf p) target =
          decide ((s.lane (laneOf p)).command = some (50 * target)) := fun target => by
        simp only [State.atTarget, toCommand_proportional (laneOf_ne_gate p)]
        rfl
      refine ⟨fun outside => x.restarts ?_, fun inside => ?_⟩
      · rw [band']
        exact decide_eq_false (by omega)
      · have within : (s.setDirect p ⟨.valid, some v, none⟩).inBand (laneOf p) o.target = true := by
          rw [band']
          exact decide_eq_true (by omega)
        refine ⟨fun idle there => ⟨x.starts within idle (by rw [atTarget]; exact decide_eq_true there),
          fun zero standing unawaited _ =>
            x.settles within idle (by rw [atTarget]; exact decide_eq_true there) zero standing unawaited⟩,
          fun still => x.stays within (still.imp_right fun away => by rw [atTarget]; exact decide_eq_false away)⟩
  · intro h g o e sole aside
    refine ⟨fun v => ?_, fun dead sound => ?_⟩
    · intro u reads sound stand
      refine ⟨_, exec_sample_takes reads sound, ?_⟩
      have x := sole.user (d := ⟨.valid, some v, none⟩) aside stand
      refine x.evaluated (violated_valid ?_ ?_)
      · rw [x.watches]
        exact pointStatus_setDirect s p _
      · rw [x.watches]
        exact pointValue_setDirect s p _
    · intro u stand
      refine ⟨_, exec_sample_lost dead sound, ?_⟩
      have x := sole.user (d := ⟨.faulted, (s.directAt p).value, none⟩) aside stand
      have status := pointStatus_setDirect s p ⟨.faulted, (s.directAt p).value, none⟩
      refine x.evaluated (iff_of_true trivial (violated_invalid fun valid => ?_))
      rw [x.watches, status] at valid
      cases valid

end Sys2Proof.Machine
end
